-- ==== Sys2Proof/Word.lean ====
section
/-! DEFINITION. The word types, the unit numbers and the plain data that commands carry as operands.
The rows of spec/opcode_table.json give no operand fields, so each command's operands are taken from the
rules it stands for: who sends it, the unit it names, the value written, and what the outside world presents. -/
namespace Sys2Proof

/-- A byte of memory, of a frame or of a packet. -/
abbrev Byte := BitVec 8
/-- The value of a short transfer: always 8 bytes (R407). -/
abbrev Word := BitVec 64

/-- Bough b, 0 to 3 (R3: every grade has all four). -/
abbrev BoughId := Fin 4
/-- Branch position r of a bough, 0 to 5 (R1, R2). -/
abbrev BranchPos := Fin 6
/-- Leaf l of a branch (R13). -/
abbrev LeafPos := Fin 4
/-- Seam s, 0 to 15. -/
abbrev SeamId := Fin 16
/-- Bank of a seam: BG0 and BA[1:0] make 8 banks (R323, R324). -/
abbrev BankId := Fin 8
/-- Claim 0 to 15 (R475). -/
abbrev ClaimId := Fin 16
/-- Work queue 0 to 63 (R375). -/
abbrev QueueId := Fin 64
/-- Handle queue number within a bough (R262). -/
abbrev HqPos := Fin 32
/-- Uteel link 0 to 3 (R1). -/
abbrev LinkId := Fin 4
/-- Camera port 0 to 15 (R1). -/
abbrev CamId := Fin 16
/-- Foreman 0 boot, 1 seam, 2 power, 3 link, 4 hub (R441). -/
abbrev ForemanId := Fin 5
/-- Image type t stands at index t - 1; types 0x01 to 0x08 (R442). -/
abbrev ImageSlot := Fin 8

/-- The three grades, fixed by fuse (R1). -/
inductive Grade where
  | a128 | b128 | c64
  deriving DecidableEq, Repr, Inhabited

/-- The five requesters of the dictionary (R408), p = 0 to 4 in this order. -/
inductive Requester where
  | burlyn | can0 | can1 | host | pcie
  deriving DecidableEq, Repr, Inhabited

/-- How a dictionary access arrives where no Burlyn or CAN frame carries it (R422, R423), or a plain write of an object. -/
inductive DictAccess where
  /-- A write of an 8-byte value to an object. -/
  | write (idx : BitVec 16) (sub : BitVec 8) (value : Word)
  /-- A store of `width` bytes at an offset of the host window (R35, R422, R423). -/
  | store (offset : Nat) (width : Nat) (value : Word)
  /-- A load of `width` bytes at an offset of the host window. -/
  | load (offset : Nat) (width : Nat)
  deriving DecidableEq, Repr, Inhabited

/-- An open or a commit of a block object (R419): the object named, the SELECT byte, OFFSET, LENGTH, and the CRC a
Burlyn frame may carry (R414). -/
structure BlockArgs where
  idx : BitVec 16
  sub : BitVec 8
  sel : BitVec 8
  offset : BitVec 32
  length : BitVec 32
  crc : Option (BitVec 16)
  deriving DecidableEq, Repr, Inhabited

/-- A frame on a CAN FD bus as a controller receives it (R424, R425). -/
structure CanFrame where
  ident : BitVec 29
  extended : Bool
  fd : Bool
  dlc : BitVec 4
  data : List Byte
  deriving DecidableEq, Repr, Inhabited

/-- A packet of the recovery loader (R467): the COMMAND is the row's own. -/
structure RecoveryPacket where
  seq : Byte
  zero : Byte
  payload : List Byte
  crc : BitVec 32
  deriving DecidableEq, Repr, Inhabited

/-- What starts a bough reset: a write to bough_reset, or the hub foreman's own decision (R395, R398). -/
inductive ResetSource where
  | write (r : Requester) (value : Word)
  | hubForeman
  deriving DecidableEq, Repr, Inhabited

/-- Groups of counters with a clear object (R120, R214, R373). -/
inductive CounterGroup where
  | branch (b : BoughId) (r : BranchPos)
  | sort (b : BoughId)
  | work (b : BoughId)
  | slice (k : Fin 8)
  deriving DecidableEq, Repr, Inhabited

/-- A claimant of tiles: a leaf group, a vector unit or a hauler queue (R92, R200). -/
inductive Claimant where
  | leafGroup (b : BoughId) (r : BranchPos) (j : LeafPos)
  | vectorUnit (b : BoughId) (r : BranchPos)
  | branchQueue (b : BoughId) (r : BranchPos) (q : Fin 16)
  | boughQueue (b : BoughId) (q : Fin 32)
  deriving DecidableEq, Repr, Inhabited

/-- What the SEC-DED code of local memory finds in a word read: nothing, an error corrected, or one it cannot correct, in
the word of that number (R103, R108). -/
inductive WordError where
  | clean
  | corrected (word : Fin 65536)
  | uncorrectable (word : Fin 65536)
  deriving DecidableEq, Repr, Inhabited

/-- The ports at a branch's local memory (R105). -/
inductive BankPort where
  | feederA (l : LeafPos)
  | feederB (l : LeafPos)
  | scale (l : LeafPos)
  | drain (l : LeafPos)
  | vector
  | hauler
  | rotateOut
  | rotateIn
  | boughHub
  deriving DecidableEq, Repr, Inhabited

/-- A word request that a port presents to the banks in a handshake: the byte offset of the word in the branch's window (R103, R105). -/
structure PortRequest where
  port : BankPort
  offset : Fin 4194304
  deriving DecidableEq, Repr, Inhabited

/-- What the SEC-DED code of a slice word finds in a line that is read (R362). -/
inductive SliceError where
  | clean | corrected | uncorrectable
  deriving DecidableEq, Repr, Inhabited

/-- A hauler queue: 16 in each branch, 32 in each bough hub (R244). -/
inductive HaulQueue where
  | branch (b : BoughId) (r : BranchPos) (q : Fin 16)
  | bough (b : BoughId) (q : Fin 32)
  deriving DecidableEq, Repr, Inhabited

/-- Producers of handle queues (R262 SOURCE 2 to 6). -/
inductive Producer where
  | ipipe0 | ipipe1 | videoDecoder | jpegDecoder | samplePipe
  deriving DecidableEq, Repr, Inhabited

/-- A long or short packet as a camera receiver sees it (R297, R298): how many header bits are wrong, VC, DT, the
payload length in pixels where it is an image line, and whether the payload CRC holds. -/
structure CsiPacket where
  headerErrors : Nat
  vc : BitVec 4
  dt : BitVec 6
  crcOk : Bool
  pixels : List (BitVec 16)
  deriving DecidableEq, Repr, Inhabited

/-- Outcomes of an I²C transfer (R314 CODE). -/
inductive I2cCode where
  | ok | nackAddr | nackData | busStuck
  deriving DecidableEq, Repr, Inhabited

/-- Who makes a request for memory (R476). -/
inductive MemRequester where
  /-- A descriptor, hauler or ring of a job of a claim. -/
  | job (claim : ClaimId)
  /-- The loader, in the claim of its record. -/
  | loader (claim : ClaimId)
  /-- An image pipeline, in the claim of its queue. -/
  | media (claim : ClaimId)
  /-- A codec or the sample pipeline, in the claim its configuration names. -/
  | codec (claim : ClaimId)
  /-- A host core, or a PCIe device in root-port mode. -/
  | host
  | pcieDevice
  /-- A request of another member, admitted into a local claim under R531. -/
  | peer (claim : ClaimId)
  deriving DecidableEq, Repr, Inhabited

/-- Kinds of memory access (R479). -/
inductive AccessKind where
  | read | fetch
  | write (bytes : List Byte)
  deriving DecidableEq, Repr, Inhabited

/-- Where a request enters the trunk (R356), with its number among the inputs of that port (R374): a branch or the hub of a bough (6), the
host cluster, a media engine (0 and 1 the image pipelines, 2 the video decoder, 3 the JPEG decoder, 4 the sample pipeline, 5 the encoder,
which R262 gives no SOURCE: log entry 58), a Uteel link or the PCIe port (4). -/
inductive Entry where
  | bough (b : BoughId) (i : Fin 7)
  | host
  | media (e : Fin 6)
  | external (i : Fin 5)
  deriving DecidableEq, Repr, Inhabited

/-- One memory request on its way to a cache slice or a seam front: within one line or burst. -/
structure MemRequest where
  who : MemRequester
  entry : Entry
  addr : Nat
  len : Nat
  kind : AccessKind
  deriving DecidableEq, Repr, Inhabited

/-- The symbols that arrive in error in each of the four codewords of a burst (R341): a symbol is one byte lane of one beat, and symbol
10t + l of a codeword is lane l of its beat t, of which lanes 8 and 9 are the check die's. -/
abbrev BurstErrors := Vector (List (Fin 20)) 4

/-- Causes by which the seam foreman takes a seam out of service (R348). -/
inductive SeamOutCause where
  | phyLock | readCentring | modeReadback | rowErrors
  deriving DecidableEq, Repr, Inhabited

/-- One rail's telemetry of a power period (R500, R501): voltage in mV and current in mA, or a failed read. -/
inductive RailReading where
  | failed
  | off
  | read (mv : Nat) (ma : Nat)
  deriving DecidableEq, Repr, Inhabited

/-- A transaction of a Uteel link (R521) with the members and the claim its header carries. -/
structure LinkTxn where
  source : Fin 16
  dest : Fin 16
  claim : ClaimId
  vc1 : Bool
  /-- Number by which an answer finds its request. -/
  tag : Nat
  addr : Nat
  len : Nat
  data : List Byte
  deriving DecidableEq, Repr, Inhabited

/-- The answer a READ_CPL or WRITE_ACK carries (R534). -/
inductive PeerAnswer where
  | ok | access | unmapped | uncorrectable | lost | fenced
  deriving DecidableEq, Repr, Inhabited

/-- A received flit (R520): whether its CRC and its GCM tag hold, its sequence fields, and the lane parities found wrong. -/
structure Flit where
  crcOk : Bool
  tagOk : Bool
  seq : BitVec 16
  ack : BitVec 16
  kind : BitVec 4
  creditClass : Fin 4
  credits : BitVec 12
  laneErrors : BitVec 8
  deriving DecidableEq, Repr, Inhabited

/-- How the training and securing of a link ends (R526). -/
inductive LinkOutcome where
  | up (peerMember : Fin 16) (peerProtocol : Nat) (peerSerial : Word)
  | trainingFails
  | authFails
  deriving DecidableEq, Repr, Inhabited

/-- An inbound PCIe TLP (R540, R542). -/
inductive PcieTlp where
  | barAccess (bar : Nat) (offset : Nat) (width : Nat) (write : Option Word)
  | memRead (port : Fin 2) (addr : Nat) (len : Nat)
  | memWrite (port : Fin 2) (addr : Nat) (data : List Byte)
  | uncorrectableError
  deriving DecidableEq, Repr, Inhabited

/-- What resets the PCIe function without resetting the T9 (R541). -/
inductive PcieResetKind where
  | hotReset | flr | d3hot | linkLoss
  deriving DecidableEq, Repr, Inhabited

/-- Functions that report ready by themselves and have no row of their own (R36). -/
inductive ReadyFunction where
  | can | crypto | workHub | hostCores | sysCache | earlyWindow | sample | decoder | encoder
  | camGroup (g : Fin 4) | imagePipe (p : Fin 2)
  deriving DecidableEq, Repr, Inhabited

end Sys2Proof
end

