-- ==== Sys2Proof/Syntax.lean ====
section
/-! DEFINITION. The commands: one constructor per row of spec/opcode_table.json, in the table's order. -/
namespace Sys2Proof

/-- A command of the T9: an operation of a port, a write of an object with a behaviour of its own, or an event by
which an engine of the part completes a step. Each docstring gives the row's mnemonic and rule. -/
inductive Instr where
  /-- PORST_N_FALL (R561): PORST_N falls and stays low for `widthNs` ns. -/
  | porstNFall (widthNs : Nat)
  /-- PORST_N_RISE (R560): PORST_N rises with PCIE_MODE and TEST_EN at these levels. -/
  | porstNRise (pcieMode : Fin 4) (testEn : Bool)
  /-- FOREMAN_IMAGE_LOAD (R454): the loader finishes with the image of type t + 1; `readOk` is false where the flash read fails. -/
  | foremanImageLoad (t : ImageSlot) (readOk : Bool)
  /-- HOST_PAYLOAD_LOAD (R455). -/
  | hostPayloadLoad (readOk : Bool)
  /-- FOREMAN_TRAP (R465). -/
  | foremanTrap (f : ForemanId) (cause : Word)
  /-- FOREMAN_RESTART (R463): the value written to foreman_restart. -/
  | foremanRestart (r : Requester) (v : Word)
  /-- FW_UPDATE_START (R461): the value written to fw_update_start. -/
  | fwUpdateStart (r : Requester) (v : Word)
  /-- FW_UPDATE_DONE (R461): `flashOk` is false where erase, program or read-back fails. -/
  | fwUpdateDone (flashOk : Bool)
  /-- FIRMWARE_CONFIRM (R459): the value written to firmware_confirm. -/
  | firmwareConfirm (r : Requester) (v : Word)
  /-- TRIAL_EXPIRY (R459). -/
  | trialExpiry (t : ImageSlot)
  /-- HOST_L2_UNLOCK (R454): the value written to host_l2_lock. -/
  | hostL2Unlock (r : Requester) (v : Word)
  /-- FLASH_LOG_COPY (R472): the oldest record that waits for its copy. -/
  | flashLogCopy
  /-- FLASH_LOG_ERASE (R472). -/
  | flashLogErase (r : Requester) (v : Word)
  /-- RECOVERY_HELLO (R468). -/
  | recoveryHello (p : RecoveryPacket)
  /-- RECOVERY_BEGIN (R468). -/
  | recoveryBegin (p : RecoveryPacket)
  /-- RECOVERY_DATA (R468). -/
  | recoveryData (p : RecoveryPacket)
  /-- RECOVERY_FINISH (R468). -/
  | recoveryFinish (p : RecoveryPacket)
  /-- RECOVERY_REBOOT (R468). -/
  | recoveryReboot (p : RecoveryPacket)
  /-- RECOVERY_PACKET_GAP (R467). -/
  | recoveryPacketGap
  /-- READ (R415): the bytes the host drives before the data cycles. -/
  | read (frame : List Byte)
  /-- WRITE (R417): the bytes the host drives. -/
  | write (frame : List Byte)
  /-- BLOCK_OPEN (R419). -/
  | blockOpen (r : Requester) (a : BlockArgs)
  /-- BLOCK_COMMIT (R419). -/
  | blockCommit (r : Requester) (a : BlockArgs)
  /-- BLOCK_DATA_READ (R419): the four address bytes and the number of bytes taken. -/
  | blockDataRead (r : Requester) (addr : BitVec 32) (n : Nat)
  /-- BLOCK_DATA_WRITE (R419): the four address bytes and the bytes. -/
  | blockDataWrite (r : Requester) (addr : BitVec 32) (data : List Byte)
  /-- PORT_RESET (R420): the bytes the host drives. -/
  | portReset (frame : List Byte)
  /-- POSTED_WRITE_APPLY (R417). -/
  | postedWriteApply
  /-- BLOCK_TRANSFER_DONE (R421). -/
  | blockTransferDone (r : Requester)
  /-- CAN_REQUEST (R426). -/
  | canRequest (k : Fin 2) (f : CanFrame)
  /-- CAN_BUS_OFF (R424): the controller goes bus-off, or (`recovered`) has recovered. -/
  | canBusOff (k : Fin 2) (recovered : Bool)
  /-- ALERT_CAUSE_CLEAR (R429). -/
  | alertCauseClear (r : Requester) (v : Word)
  /-- DICTIONARY_WRITE (R410). -/
  | dictionaryWrite (r : Requester) (a : DictAccess)
  /-- IF_DECLARE (R437): requester r writes if_declare of requester number p. -/
  | ifDeclare (r : Requester) (p : Fin 5) (v : Word)
  /-- T5_ACCEPT (R438). -/
  | t5Accept (r : Requester) (p : Fin 5) (v : Word)
  /-- READINESS_EXPECTED_WRITE (R432). -/
  | readinessExpectedWrite (r : Requester) (v : Word)
  /-- QUIESCE (R433). -/
  | quiesce (r : Requester)
  /-- RESUME (R433). -/
  | resume (r : Requester)
  /-- SLEEP (R433). -/
  | sleep (r : Requester)
  /-- WAKE (R433). -/
  | wake (r : Requester)
  /-- BOUGH_DOWN (R433). -/
  | boughDown (r : Requester) (mask : BitVec 4)
  /-- BOUGH_UP (R433). -/
  | boughUp (r : Requester) (mask : BitVec 4)
  /-- HALT (R433). -/
  | halt (r : Requester)
  /-- BOUGH_RESET (R398). -/
  | boughReset (b : BoughId) (src : ResetSource)
  /-- BOUGH_DRAIN_LIMIT (R398). -/
  | boughDrainLimit (b : BoughId)
  /-- BOUGH_DRAIN_END (R398). -/
  | boughDrainEnd (b : BoughId)
  /-- BOUGH_RESET_DONE (R398). -/
  | boughResetDone (b : BoughId)
  /-- DOORBELL (R379). -/
  | doorbell (r : Requester) (q : QueueId) (v : BitVec 32)
  /-- COMP_READ_WRITE (R377). -/
  | compReadWrite (r : Requester) (q : QueueId) (v : BitVec 32)
  /-- WQ_ENABLE (R376). -/
  | wqEnable (r : Requester) (q : QueueId)
  /-- WQ_DISABLE (R376). -/
  | wqDisable (r : Requester) (q : QueueId)
  /-- WQ_CANCEL (R389). -/
  | wqCancel (r : Requester) (q : QueueId) (seq : BitVec 32)
  /-- WQ_CANCEL_ALL (R389): the SEQ field as written. -/
  | wqCancelAll (r : Requester) (q : QueueId) (seq : BitVec 32)
  /-- CANCEL_BUNDLE (R389). -/
  | cancelBundle (r : Requester) (v : Word)
  /-- JOB_DEADLINE (R390). -/
  | jobDeadline (q : QueueId) (seq : BitVec 32)
  /-- JOB_HANDLE_TAKE (R266): the oldest job that waits to take from queue (b, q). -/
  | jobHandleTake (b : BoughId) (q : HqPos)
  /-- JOB_BUFFER_RESERVE (R266): the oldest job that waits to reserve of queue (b, q). -/
  | jobBufferReserve (b : BoughId) (q : HqPos)
  /-- COMPLETION_RECORD_WRITE (R388). -/
  | completionRecordWrite (q : QueueId)
  /-- COMPLETION_RECORD_RETRY (R388). -/
  | completionRecordRetry (q : QueueId)
  /-- DESCRIPTOR_START (R137): the first startable descriptor that finds capacity. -/
  | descriptorStart
  /-- BRANCH_JOIN (R137). -/
  | branchJoin (b : BoughId) (r : BranchPos)
  /-- COUNTER_SEEK (R199). -/
  | counterSeek (b : BoughId) (c : BitVec 8)
  /-- WORK_CLAIM (R200). -/
  | workClaim (u : Claimant)
  /-- LEAF_STEP (R97): `e` is what the local memory's code finds in the words the step reads (R108), with the word requests that
  reach the branch's banks (R106). -/
  | leafStep (b : BoughId) (r : BranchPos) (l : LeafPos) (e : WordError × List PortRequest)
  /-- DRAIN_WRITEOUT_DONE (R90): the leaf, with what the code finds in the bias words read (R108). -/
  | drainWriteoutDone (b : BoughId) (r : BranchPos) (l : LeafPos × WordError)
  /-- TILE_FINISH (R204): `e` is what the local memory's code finds in the words a vector unit's tile reads (R108). -/
  | tileFinish (u : Claimant) (e : WordError)
  /-- DESCRIPTOR_COMPLETE (R24): descriptor `id` of job (q, seq), or instance `inst` of the INDIRECT `id`. -/
  | descriptorComplete (q : QueueId) (seq : BitVec 32) (id : Nat) (inst : Option Nat)
  /-- EVENT_COUNTER_WRITE (R145). -/
  | eventCounterWrite (r : Requester) (b : BoughId) (c : BitVec 10) (v : Word)
  /-- SORT_UNIT_START (R119). -/
  | sortUnitStart (b : BoughId)
  /-- SORT_UNIT_DONE (R118): the bough, with a branch and what the code finds in its words that the operation reads (R108). -/
  | sortUnitDone (b : BoughId × BranchPos × WordError)
  /-- ROTATE_PASS (R260): the bough, with a branch and what the code finds in its words that the pass reads (R108). -/
  | rotatePass (b : BoughId × BranchPos × WordError)
  /-- COUNTER_GROUP_CLEAR (R121). -/
  | counterGroupClear (r : Requester) (g : CounterGroup) (v : Word)
  /-- TRANSFER_ISSUE (R246): the queue, with what the code finds in the local words the transfer reads (R108). -/
  | transferIssue (h : HaulQueue × WordError)
  /-- TRANSFER_COMPLETE (R246): the i-th of the queue's outstanding transfers, with the word requests that reach the banks of
  the branch whose hauler it is (R106). -/
  | transferComplete (h : HaulQueue) (i : Nat × List PortRequest)
  /-- HQ_BIND (R263). -/
  | hqBind (r : Requester) (b : BoughId) (q : HqPos)
  /-- HQ_UNBIND (R270). -/
  | hqUnbind (r : Requester) (b : BoughId) (q : HqPos)
  /-- HQ_POST (R265). -/
  | hqPost (r : Requester) (b : BoughId) (q : HqPos) (v : Word)
  /-- PRODUCER_BUFFER_TAKE (R264). -/
  | producerBufferTake (src : Producer) (b : BoughId) (q : HqPos)
  /-- LOAD_REQUEST (R182). -/
  | loadRequest (r : Requester) (v : Word)
  /-- LOAD_COMPLETE (R182). -/
  | loadComplete
  /-- UNLOAD (R187). -/
  | unload (r : Requester) (v : Word)
  /-- COUNTER_BLOCK_BIND (R189): ec_block_claims (`work` false) or wc_block_claims of bough b. -/
  | counterBlockBind (r : Requester) (b : BoughId) (work : Bool) (v : Word)
  /-- SP_START (R288). -/
  | spStart (r : Requester)
  /-- SP_STOP (R289). -/
  | spStop (r : Requester)
  /-- PACK_SAMPLE (R280). -/
  | packSample
  /-- BATCH_POST (R285). -/
  | batchPost
  /-- CSI_ENABLE (R300): the csi_config value written. -/
  | csiEnable (r : Requester) (p : CamId) (v : Word)
  /-- CSI_DISABLE (R300): the csi_config value written. -/
  | csiDisable (r : Requester) (p : CamId) (v : Word)
  /-- CSI_PACKET (R298). -/
  | csiPacket (p : CamId) (k : CsiPacket)
  /-- FRAME_START (R308). -/
  | frameStart (p : CamId)
  /-- CSI_LINE (R302): the line's raw pixel codes. -/
  | csiLine (p : CamId) (pixels : List (BitVec 16))
  /-- IPIPE_LINE (R304). -/
  | ipipeLine (q : Fin 2)
  /-- FRAME_END (R299). -/
  | frameEnd (p : CamId)
  /-- I2C_XFER (R314): the 36 bytes written. -/
  | i2cXfer (r : Requester) (i : Fin 8) (data : List Byte)
  /-- I2C_DONE (R313): the outcome, the bytes transferred and the read data. -/
  | i2cDone (i : Fin 8) (code : I2cCode) (count : Byte) (data : List Byte)
  /-- STRETCH_TIMEOUT (R313). -/
  | stretchTimeout (i : Fin 8) (count : Byte)
  /-- FSYNC_EDGE (R315). -/
  | fsyncEdge (f : Fin 16)
  /-- FSYNC_PULSE_END (R315). -/
  | fsyncPulseEnd (f : Fin 16)
  /-- ENC_ENABLE (R319): the enc_config value written. -/
  | encEnable (r : Requester) (s : Fin 16) (v : Word)
  /-- ENC_DISABLE (R319): the enc_config value written. -/
  | encDisable (r : Requester) (s : Fin 16) (v : Word)
  /-- ENC_ACCESS_UNIT (R318). -/
  | encAccessUnit (s : Fin 16)
  /-- ENC_BS_READ_WRITE (R319). -/
  | encBsReadWrite (r : Requester) (s : Fin 16) (v : Word)
  /-- DEC_TAIL_WRITE (R320). -/
  | decTailWrite (r : Requester) (v : Word)
  /-- DEC_COMMAND (R320). -/
  | decCommand
  /-- DEC_PICTURE_POST (R320). -/
  | decPicturePost
  /-- SEAM_REQUEST (R327): the requests `q` arrive in one handshake, in the order that the arbiter gives them, and the front decides. -/
  | seamRequest (s : SeamId) (q : List MemRequest)
  /-- SEAM_COMMAND_ISSUE (R330). -/
  | seamCommandIssue (s : SeamId)
  /-- SEAM_READ_DATA (R342): `e` is what arrives in error (R341). -/
  | seamReadData (s : SeamId) (e : BurstErrors)
  /-- SWEEP_DEBT_TICK (R337). -/
  | sweepDebtTick (s : SeamId) (k : BankId)
  /-- DRAM_TEMP_POLL (R336): whether any die reports the 2x refresh range. -/
  | dramTempPoll (s : SeamId) (twice : Bool)
  /-- ROW_OPEN_TIMEOUT (R332). -/
  | rowOpenTimeout (s : SeamId) (k : BankId)
  /-- SCRUB_PROMOTE (R344). -/
  | scrubPromote (s : SeamId)
  /-- REF_TICK (R340). -/
  | refTick (s : SeamId)
  /-- REF_WINDOW_END (R340). -/
  | refWindowEnd (s : SeamId)
  /-- SEAM_TRAIN_DONE (R346): one training attempt, or the reinitialisation, ends well or not. -/
  | seamTrainDone (s : SeamId) (ok : Bool)
  /-- SEAM_OUT (R348). -/
  | seamOut (s : SeamId) (cause : SeamOutCause)
  /-- DRAM_GROUP_KEEP (R349). -/
  | dramGroupKeep (r : Requester) (b : BoughId)
  /-- DRAM_GROUP_DROP (R349). -/
  | dramGroupDrop (r : Requester) (b : BoughId)
  /-- DRAM_GROUP_ON (R350). -/
  | dramGroupOn (r : Requester) (b : BoughId)
  /-- DRAM_GROUP_CHANGE_DONE (R352). -/
  | dramGroupChangeDone (b : BoughId)
  /-- DRAM_EN_HOLD_END (R562). -/
  | dramEnHoldEnd (b : BoughId)
  /-- SLICE_ACCEPT (R479): the requests arrive in one handshake and the trunk's points decide (R367, R368: which of them comes first is
  their order); with them, what each slice's code finds in the words it reads (R362). -/
  | sliceAccept (q : List MemRequest × Vector SliceError 8)
  /-- STARVE_FLAGS_CLEAR (R370). -/
  | starveFlagsClear (r : Requester) (v : Word)
  /-- CACHE_EARLY_WAYS_WRITE (R366). -/
  | cacheEarlyWaysWrite (r : Requester) (v : Word)
  /-- DOMAIN_OFF_WRITE (R515): domain_off_lo, or domain_off_hi. -/
  | domainOffWrite (r : Requester) (hi : Bool) (v : Word)
  /-- POWER_PERIOD (R504): the telemetry of rails 0 to 16. -/
  | powerPeriod (m : Vector RailReading 17)
  /-- PACE_UPDATE (R28): the measured pace of each leaf, leaf l of branch r of bough b standing at 24 b + 4 r + l, in Msteps/s, and the
  host pace. -/
  | paceUpdate (m : Vector (BitVec 32) 96) (host : BitVec 32)
  /-- VOLTAGE_STEP_ACK (R502). -/
  | voltageStepAck
  /-- VR_ALERT (R507). -/
  | vrAlert (rail : Fin 17)
  /-- VR_ALERT_RELEASE (R507). -/
  | vrAlertRelease
  /-- THERMAL_SENSOR_READ (R512): the 64 readings in 0.1 °C. -/
  | thermalSensorRead (t : Vector (BitVec 16) 64)
  /-- CLAIM_OPEN (R475). -/
  | claimOpen (r : Requester) (c : ClaimId)
  /-- OPEN_CONFIDENTIAL (R490). -/
  | openConfidential (r : Requester) (c : ClaimId)
  /-- RELEASE (R485). -/
  | release (r : Requester) (c : ClaimId)
  /-- CLAIM_RELEASE_DONE (R485). -/
  | claimReleaseDone (c : ClaimId)
  /-- ASSIGN (R481): run of segments, new claim and PERM. -/
  | assign (r : Requester) (first : BitVec 16) (countM1 : BitVec 16) (claim : ClaimId) (perm : BitVec 3)
  /-- CLEAR (R481). -/
  | clear (r : Requester) (first : BitVec 16) (countM1 : BitVec 16)
  /-- REVIVE (R481). -/
  | revive (r : Requester) (first : BitVec 16) (countM1 : BitVec 16)
  /-- SEGMENT_CHANGE (R481). -/
  | segmentChange
  /-- REPORT (R490). -/
  | report (r : Requester) (c : ClaimId)
  /-- REPORT_READY (R492). -/
  | reportReady (c : ClaimId)
  /-- UNWRAP (R493). -/
  | unwrap (r : Requester) (c : ClaimId)
  /-- LMS_TREE_READY (R492). -/
  | lmsTreeReady
  /-- IMPORT (R489). -/
  | importData (r : Requester)
  /-- EXPORT (R489). -/
  | exportData (r : Requester)
  /-- CRYPT_DONE (R489). -/
  | cryptDone
  /-- OWNER_KEY_PROGRAM (R494): the 49 bytes written. -/
  | ownerKeyProgram (r : Requester) (data : List Byte)
  /-- DRBG_RESEED (R487). -/
  | drbgReseed
  /-- ENTROPY_HEALTH_FAIL (R487). -/
  | entropyHealthFail
  /-- LINK_ENABLE (R526). -/
  | linkEnable (r : Requester) (k : LinkId) (dateline : Bool)
  /-- LINK_UP (R526). -/
  | linkUp (k : LinkId) (o : LinkOutcome)
  /-- LINK_DISABLE (R535). -/
  | linkDisable (r : Requester) (k : LinkId) (dateline : Bool)
  /-- LINK_FENCE (R535). -/
  | linkFence (r : Requester) (k : LinkId)
  /-- MEMBER_FENCE (R535). -/
  | memberFence (r : Requester) (v : Word)
  /-- FLIT_RECEIVE (R523). -/
  | flitReceive (k : LinkId) (f : Flit)
  /-- LINK_RETRAIN_DONE (R523). -/
  | linkRetrainDone (k : LinkId) (ok : Bool)
  /-- LANE_REPAIRED (R525). -/
  | laneRepaired (k : LinkId) (lane : Fin 8)
  /-- LINK_REKEY (R527). -/
  | linkRekey (k : LinkId) (ok : Bool)
  /-- READ_REQ (R521). -/
  | readReq (k : LinkId) (t : LinkTxn)
  /-- WRITE_TRANSACTION (R532). -/
  | writeTransaction (k : LinkId) (t : LinkTxn)
  /-- READ_CPL (R534). -/
  | readCpl (k : LinkId) (t : LinkTxn) (a : PeerAnswer)
  /-- WRITE_ACK (R534). -/
  | writeAck (k : LinkId) (t : LinkTxn) (a : PeerAnswer)
  /-- PAIR (R531): the exchange with member m about claim c ends; the peer's claim is SEALED or not, with its pairing tag. -/
  | pair (m : Fin 16) (c : ClaimId) (peerSealed : Bool) (peerTag : List Byte)
  /-- PEER_CLAIMS_WRITE (R531). -/
  | peerClaimsWrite (r : Requester) (m : Fin 16) (v : Word)
  /-- TIME_EXCHANGE (R533): the measured offset of the source against this part, in ns. -/
  | timeExchange (offset : Int)
  /-- PCIE_INBOUND_REQUEST (R542). -/
  | pcieInboundRequest (t : PcieTlp)
  /-- PCIE_COMPLETION_TIMEOUT (R543): the outbound request with this tag. -/
  | pcieCompletionTimeout (tag : Nat)
  /-- PCIE_LINK_RESET (R541). -/
  | pcieLinkReset (k : PcieResetKind)
  /-- PCIE_LINK_UP (R541): the negotiated widths and speeds of port 0 and, in two-port mode, port 1. -/
  | pcieLinkUp (port : Fin 2) (width : BitVec 4) (speed : BitVec 4)
  /-- FUNCTION_REPORTS_READY (R36). -/
  | functionReportsReady (f : ReadyFunction)
  /-- LOCAL_MEMORY_ZEROED (R433). -/
  | localMemoryZeroed (b : BoughId)
  /-- CLAIM_IN_SESSION (R490). -/
  | claimInSession (c : ClaimId)
  /-- CLAIM_SEALED (R493). -/
  | claimSealed (c : ClaimId)
  /-- HS_BURST (R300): a burst begins or ends. -/
  | hsBurst (p : CamId) (begins : Bool)
  /-- SKEW_CALIBRATION (R296). -/
  | skewCalibration (p : CamId)
  deriving DecidableEq, Repr, Inhabited

end Sys2Proof
end

