-- ==== Sys2Proof/Machine/Data.lean ====
section
/-! DEFINITION. Plain containers and bit helpers: tables indexed by unit, sparse maps in one canonical form, the memory,
little-endian bytes, and the two CRCs of the spec. -/
namespace Sys2Proof.Machine

/-- A table with one entry per unit. -/
abbrev Tab (n : Nat) (α : Type) := Vector α n

/-- Replace the entry of unit i by f of it. -/
def upd {n : Nat} {α : Type} (t : Vector α n) (i : Fin n) (f : α → α) : Vector α n := t.set i (f t[i])

/-- A sparse map by number: keys strictly rising, no entry equal to the default. -/
abbrev SMap (α : Type) := List (Nat × α)

/-- The value at k, or the default d. -/
def SMap.get {α : Type} (d : α) : SMap α → Nat → α
  | [], _ => d
  | (j, v) :: m, k => if j = k then v else SMap.get d m k

/-- Put v at k in a rising list of keys; an equal key is replaced. -/
def SMap.insert {α : Type} (m : SMap α) (k : Nat) (v : α) : SMap α :=
  match m with
  | [] => [(k, v)]
  | (j, w) :: m' =>
    if k < j then (k, v) :: (j, w) :: m'
    else if j = k then (k, v) :: m'
    else (j, w) :: SMap.insert m' k v

/-- Remove the entry at k. -/
def SMap.erase {α : Type} (m : SMap α) (k : Nat) : SMap α := m.filter fun c => c.1 != k

/-- Write v at k; writing the default removes the entry, so equal maps are equal data. -/
def SMap.set {α : Type} [DecidableEq α] (d : α) (m : SMap α) (k : Nat) (v : α) : SMap α :=
  if v = d then SMap.erase m k else SMap.insert m k v

/-- Keys strictly rising from `lo` on, and no entry at the default. -/
def SMap.okFrom {α : Type} [DecidableEq α] (d : α) : Nat → SMap α → Bool
  | _, [] => true
  | lo, (k, v) :: m => decide (lo ≤ k) && decide (v ≠ d) && SMap.okFrom d (k + 1) m

/-- The canonical form of a sparse map. -/
def SMap.ok {α : Type} [DecidableEq α] (d : α) (m : SMap α) : Bool := SMap.okFrom d 0 m

/-- Memory by device address (R29): DRAM, branch local memory, host L2 and the early window. -/
abbrev Memory := List Host.Cell

/-- What an address that nothing has written reads as: zero (log entry 2, DESIGN CHOICE). -/
def Memory.unlisted : Byte := 0

/-- Read one byte. -/
def Memory.read (m : Memory) (a : Nat) : Byte := SMap.get Memory.unlisted m a

/-- Write one byte, keeping the canonical form. -/
def Memory.write (m : Memory) (a : Nat) (b : Byte) : Memory := SMap.set Memory.unlisted m a b

/-- Memory is in canonical form: addresses strictly rising, nothing listed that equals an unlisted byte. -/
def Memory.wf (m : Memory) : Bool := SMap.ok Memory.unlisted m

/-- Read n bytes from a upwards. -/
def Memory.readBytes (m : Memory) (a n : Nat) : List Byte := (List.range n).map fun i => m.read (a + i)

/-- Write the bytes from a upwards. -/
def Memory.writeBytes (m : Memory) (a : Nat) (bs : List Byte) : Memory :=
  match bs with
  | [] => m
  | b :: rest => Memory.writeBytes (m.write a b) (a + 1) rest

/-- Forget every byte from lo up to but not including hi: they read as unlisted again. -/
def Memory.clear (m : Memory) (lo hi : Nat) : Memory := m.filter fun c => c.1 < lo || hi ≤ c.1

/-- A little-endian number from bytes (R16). -/
def leNat : List Byte → Nat
  | [] => 0
  | b :: bs => b.toNat + 256 * leNat bs

/-- A big-endian number from bytes. -/
def beNat (bs : List Byte) : Nat := bs.foldl (fun a b => a * 256 + b.toNat) 0

/-- n little-endian bytes of a number (R16). -/
def leBytes : Nat → Nat → List Byte
  | 0, _ => []
  | n + 1, v => BitVec.ofNat 8 v :: leBytes n (v / 256)

/-- n big-endian bytes of a number. -/
def beBytes (n v : Nat) : List Byte := (leBytes n v).reverse

/-- Bits [msb:lsb] of a word (R15). -/
def bits {w : Nat} (v : BitVec w) (msb lsb : Nat) : Nat := (v.toNat / 2 ^ lsb) % 2 ^ (msb + 1 - lsb)

/-- Bit i of a number as a number. -/
def bitN (b : Bool) (i : Nat) : Nat := if b then 2 ^ i else 0

/-- The bit field [msb:lsb] of a number. -/
def nbits (v msb lsb : Nat) : Nat := (v / 2 ^ lsb) % 2 ^ (msb + 1 - lsb)

/-- Set bit i of a word to b. -/
def setBit {w : Nat} (v : BitVec w) (i : Nat) (b : Bool) : BitVec w :=
  if b then v ||| BitVec.ofNat w (2 ^ i) else v &&& ~~~(BitVec.ofNat w (2 ^ i))

/-- The n bytes of bs from offset o; a byte past the end reads zero. -/
def slice (bs : List Byte) (o n : Nat) : List Byte :=
  let r := (bs.drop o).take n
  r ++ List.replicate (n - r.length) 0

/-- A field of n little-endian bytes at offset o. -/
def leAt (bs : List Byte) (o n : Nat) : Nat := leNat (slice bs o n)

/-- One byte into CRC-16/CCITT: polynomial 0x1021, no reflection (R414). -/
def crc16Byte (c : BitVec 16) (b : Byte) : BitVec 16 :=
  (List.range 8).foldl
    (fun r _ => if r.msb then (r <<< 1) ^^^ 0x1021#16 else r <<< 1)
    (c ^^^ (b.zeroExtend 16 <<< 8))

/-- CRC-16/CCITT of bytes: initial value 0xFFFF, no final XOR (R414). -/
def crc16 (bs : List Byte) : BitVec 16 := bs.foldl crc16Byte 0xFFFF#16

/-- One byte into CRC-32C: Castagnoli polynomial, reflected (R277). -/
def crc32cByte (c : BitVec 32) (b : Byte) : BitVec 32 :=
  (List.range 8).foldl
    (fun r _ => if r.getLsbD 0 then (r >>> 1) ^^^ 0x82F63B78#32 else r >>> 1)
    (c ^^^ b.zeroExtend 32)

/-- CRC-32C of bytes: initial and final value 0xFFFF_FFFF (R277). -/
def crc32c (bs : List Byte) : BitVec 32 := ~~~(bs.foldl crc32cByte 0xFFFFFFFF#32)

/-- The members of a list of numbers below n whose bit is set. -/
def bitList (n v : Nat) : List Nat := (List.range n).filter fun i => v.testBit i

/-- The first list member that a test accepts, with its position. -/
def findIdxOpt {α : Type} (p : α → Bool) (l : List α) : Option Nat :=
  let i := l.findIdx p
  if i < l.length then some i else none

end Sys2Proof.Machine
end

