-- ==== Sys2Proof/Machine/Hash.lean ====
section
/-! DEFINITION. SHA-256 and SHA-384, which the spec names for image digests, measurements and the sample order (R279, R445, R456). The
two differ in their word width, rounds and shift amounts alone; their constants are the fractional bits of roots of primes and are
worked out here from the primes. -/
namespace Sys2Proof.Machine
open Sys2Proof

/-- The floor of the k-th root of n below r + 2^b, bit by bit. -/
def rootBelow (k n : Nat) : Nat → Nat → Nat
  | 0, r => r
  | b + 1, r => rootBelow k n b (if (r + 2 ^ b) ^ k ≤ n then r + 2 ^ b else r)

/-- Numbers below the bound that no smaller one from 2 on divides. -/
def primesBelow (bound : Nat) : List Nat :=
  (List.range bound).filter fun n => 2 ≤ n && ((List.range n).drop 2).all fun d => n % d ≠ 0

/-- The first w bits after the point of the k-th root of a number below 2^16. -/
def rootFraction (k w n : Nat) : BitVec w := BitVec.ofNat w (rootBelow k (n * 2 ^ (k * w)) (w + 16) 0)

/-- One member of the family: rounds, and the amounts of its four mixing functions: three rotations each for the round, two rotations
and a shift each for the schedule. -/
structure ShaForm where
  rounds : Nat
  big0 : Nat × Nat × Nat
  big1 : Nat × Nat × Nat
  small0 : Nat × Nat × Nat
  small1 : Nat × Nat × Nat
  deriving DecidableEq, Repr

def sha256Form : ShaForm := ⟨64, (2, 13, 22), (6, 11, 25), (7, 18, 3), (17, 19, 10)⟩
def sha384Form : ShaForm := ⟨80, (28, 34, 39), (14, 18, 41), (1, 8, 7), (19, 61, 6)⟩

/-- Three rotations joined. -/
def mixBig {w : Nat} (p : Nat × Nat × Nat) (x : BitVec w) : BitVec w := x.rotateRight p.1 ^^^ (x.rotateRight p.2.1 ^^^ x.rotateRight p.2.2)

/-- Two rotations and a shift joined. -/
def mixSmall {w : Nat} (p : Nat × Nat × Nat) (x : BitVec w) : BitVec w := x.rotateRight p.1 ^^^ (x.rotateRight p.2.1 ^^^ x >>> p.2.2)

/-- Round constants: cube roots of the first primes. -/
def ShaForm.constants (f : ShaForm) (w : Nat) : List (BitVec w) := ((primesBelow 410).take f.rounds).map (rootFraction 3 w)

def sha256Constants : List (BitVec 32) := sha256Form.constants 32
def sha384Constants : List (BitVec 64) := sha384Form.constants 64

/-- Initial values: square roots of the first eight primes, and of the eight after them. -/
def sha256Start : List (BitVec 32) := ((primesBelow 20).take 8).map (rootFraction 2 32)
def sha384Start : List (BitVec 64) := ((primesBelow 54).drop 8).map (rootFraction 2 64)

/-- The next `n` words of the schedule, each from the 16 words before it, newest first. -/
def ShaForm.extend {w : Nat} (f : ShaForm) : Nat → List (BitVec w) → List (BitVec w)
  | 0, l => l
  | n + 1, l => f.extend n ((mixSmall f.small1 (l.getD 1 0) + l.getD 6 0 + mixSmall f.small0 (l.getD 14 0) + l.getD 15 0) :: l)

/-- The eight working values. -/
structure ShaRegs (w : Nat) where
  a : BitVec w
  b : BitVec w
  c : BitVec w
  d : BitVec w
  e : BitVec w
  f : BitVec w
  g : BitVec w
  h : BitVec w
  deriving DecidableEq, Repr

def ShaRegs.ofList {w : Nat} (l : List (BitVec w)) : ShaRegs w :=
  ⟨l.getD 0 0, l.getD 1 0, l.getD 2 0, l.getD 3 0, l.getD 4 0, l.getD 5 0, l.getD 6 0, l.getD 7 0⟩

def ShaRegs.toList {w : Nat} (v : ShaRegs w) : List (BitVec w) := [v.a, v.b, v.c, v.d, v.e, v.f, v.g, v.h]

/-- One round with the sum of its word and constant. -/
def ShaForm.round {w : Nat} (f : ShaForm) (v : ShaRegs w) (wk : BitVec w) : ShaRegs w :=
  let choice := v.g ^^^ (v.e &&& (v.f ^^^ v.g))
  let majority := (v.a &&& (v.b ||| v.c)) ||| (v.b &&& v.c)
  let add := v.h + mixBig f.big1 v.e + choice + wk
  ⟨add + mixBig f.big0 v.a + majority, v.a, v.b, v.c, v.d + add, v.e, v.f, v.g⟩

/-- One block of 16 words into the hash value. -/
def ShaForm.block {w : Nat} (f : ShaForm) (ks h ws : List (BitVec w)) : List (BitVec w) :=
  let words := (f.extend (f.rounds - 16) ws.reverse).reverse
  List.zipWith (· + ·) h ((List.zipWith (· + ·) words ks).foldl f.round (.ofList h)).toList

/-- A message padded to whole blocks of 16 words of w bits: a 1 bit, zeros, and the bit length in two words. -/
def shaPad (w : Nat) (m : List Byte) : List Byte :=
  let tail := w / 4
  let used := (m.length + 1 + tail) % (2 * w)
  m ++ 0x80 :: List.replicate (if used = 0 then 0 else 2 * w - used) 0 ++ beBytes tail (m.length * 8)

/-- The n words of w bits that the bytes hold, big-endian. -/
def beWords (w : Nat) (n : Nat) (bs : List Byte) : List (BitVec w) :=
  (List.range n).map fun i => BitVec.ofNat w (beNat ((bs.drop (i * (w / 8))).take (w / 8)))

/-- n blocks of a padded message into the hash value. -/
def ShaForm.blocks {w : Nat} (f : ShaForm) (ks : List (BitVec w)) : Nat → List (BitVec w) → List Byte → List (BitVec w)
  | 0, h, _ => h
  | n + 1, h, bs => f.blocks ks n (f.block ks h (beWords w 16 bs)) (bs.drop (2 * w))

/-- The bytes of a hash value. -/
def shaBytes {w : Nat} (h : List (BitVec w)) : List Byte := (h.map fun x => beBytes (w / 8) x.toNat).flatten

/-- SHA-256: 32 bytes. -/
def sha256 (m : List Byte) : List Byte :=
  let p := shaPad 32 m
  shaBytes (sha256Form.blocks sha256Constants (p.length / 64) sha256Start p)

/-- SHA-384: 48 bytes. -/
def sha384 (m : List Byte) : List Byte :=
  let p := shaPad 64 m
  (shaBytes (sha384Form.blocks sha384Constants (p.length / 128) sha384Start p)).take 48

end Sys2Proof.Machine
end

