-- ==== Sys2Proof/Config.lean ====
section
/-! DEFINITION. The constants an implementation fixes and the spec leaves open, and the free values: each is an opaque
constant, so no proof can rest on its value. The log entries that name them stand in notes/assumptions. -/
namespace Sys2Proof.Config

/-- A free byte, the n-th drawn: the contents of a place the spec leaves unspecified (log entry 3). -/
opaque freeByte : Nat → Byte
/-- A free 64-bit value, the n-th drawn: a duration, an order or a measured value the spec does not state (log entry 3). -/
opaque freeWord : Nat → BitVec 64
/-- A free choice between two outcomes that the spec both allows, the n-th drawn (log entry 3). -/
opaque freeChoice : Nat → Bool
/-- A free order of the addends of a sum: the key by which the n-th sum takes the i-th addend (R57, log entry 3). -/
opaque sumKey : Nat → Nat → Nat

/-- The elementary functions of the vector unit that are not correctly rounded, by code of R162 (0x20 for the exponential of
SOFTMAX and ATTENTION, 0x21 for the reciprocal square root of NORM), on FP32 operands that are no special case: R111 bounds
their error, R112 states the special cases (log entry 8). -/
opaque vuFn : Nat → BitVec 32 → BitVec 32

/-- The zero point of a quantised tensor in POOL, SPACE_TO_DEPTH, DEPTH_TO_SPACE and HAUL, whose blocks have no field for it, so it is
free, by the descriptor's bits (R63, R229, log entry 9). -/
opaque poolZp : Nat → Byte

/-- Severity of the error log codes for which the spec states none (R355, R362, R34; log entry 7). -/
opaque severity : Nat → Fin 6
/-- Low byte of the code of a record whose code the spec does not name, by engine (R34, R108, R291; log entry 7). -/
opaque recordCode : Nat → Byte

/-- silicon_step, serial_number and the boot ROM version: fixed at manufacture, no value stated (R440, R474). -/
opaque siliconStep : BitVec 16
opaque serialNumber : BitVec 64
opaque bootRomVersion : BitVec 64
/-- The digest of each Maltum key slot that the boot ROM holds (R446). -/
opaque romKeyDigest : Nat → List Byte
/-- The identity certificate of the part (R490): 6,142 bytes. -/
opaque identityCert : Nat → Byte
/-- pcie_ids: vendor and device identity of the function (R544). -/
opaque pcieIds : BitVec 32

/-- Whether an ECDSA P-384 signature verifies: public key, digest, signature (R445; FIPS 186-5 is outside the spec). -/
opaque ecdsaVerifies : List Byte → List Byte → List Byte → Bool
/-- Whether an HSS signature verifies: public key, message, signature (R445; RFC 8554 is outside the spec). -/
opaque hssVerifies : List Byte → List Byte → List Byte → Bool
/-- An ECDSA signature by the part's key over a digest; the n-th drawn (R492). -/
opaque ecdsaSign : Nat → List Byte → List Byte
/-- An LMS signature by leaf n of the part's tree over a digest (R492). -/
opaque lmsSign : Nat → List Byte → List Byte
/-- Output of the DRBG: the n-th draw, as many bytes as asked (R487). -/
opaque drbg : Nat → Nat → List Byte
/-- The serial number of a member that is no neighbour on a link (R531). -/
opaque memberSerial : Nat → BitVec 64
/-- Lines of a data type that a port's part of the line store holds, less one (R302 gives its bytes only; log entry 23). -/
opaque lineStoreLines : Nat → Fin 16
/-- The median of eight pixels: which value between the fourth and the fifth is not stated (R304 stage 3; log entry 23). -/
opaque median8 : Nat → Nat → Nat
/-- The edge-directed demosaic: Bayer order, position and the 5 × 5 window give RGB (R304 stage 5; log entry 23). -/
opaque demosaic : Nat → Nat → List Nat → Nat × Nat × Nat
/-- The 5 × 5 edge-preserving filter of a strength (R304 stage 7; log entry 23). -/
opaque edgeFilter : Nat → List (Nat × Nat × Nat) → Nat × Nat × Nat
/-- How an 8-bit RGB888 component stands in 16 bits at stage 8 (R297, R304; log entry 23). -/
opaque rgb16 : Nat → BitVec 16
/-- Chroma of a pixel of a YUV422 line at full resolution: the line's chroma samples and the pixel's column (R297, R306; log entry 23). -/
opaque chroma444 : List Nat → Nat → Byte

/-- What a decoder finds in a bitstream (R317, R320; the codecs' standards are outside the spec): for the operation, the references the
stream holds, whether it skips, FLUSH, and the bitstream, the pictures in output order, each with its width, height, output format,
the bytes of its decoded picture buffer and its image bytes; and the offset of the first failure (log entry 24). -/
opaque decoded : Nat → Nat → Bool → Bool → List Byte → List (Nat × Nat × Nat × Nat × List Byte) × Option Nat
/-- Where a bitstream first uses a feature that R317 refuses, if it does: interlaced or MBAFF H.264, H.265 range extensions, progressive,
arithmetic-coded or 12-bit JPEG (log entry 24). -/
opaque unsupported : Nat → List Byte → Option Nat
/-- The offset of the parameter set or frame header of the n-th picture (R321; log entry 24). -/
opaque headerOffset : List Byte → Nat → Nat
/-- The access unit that the encoder makes, the n-th drawn (R318; log entry 24). -/
opaque accessUnit : Nat → Bool → List Byte

/-- Whether a CAN controller that is on the bus is error passive at a tick: the error counters of ISO 11898-1 are outside the spec (R428). -/
opaque canPassive : Nat → Nat → Bool

/-- Whether 97 bytes are a point of P-384 in uncompressed form (R493). -/
opaque pointOnCurve : List Byte → Bool
/-- The public point of a P-384 secret, and the shared secret of a secret and a public point (R490, R493). -/
opaque ecdhPublic : List Byte → List Byte
opaque ecdhShared : List Byte → List Byte → List Byte
/-- HKDF-SHA-384: secret, salt, info, length (R493). -/
opaque hkdf : List Byte → List Byte → List Byte → Nat → List Byte
/-- AES-256-GCM: key, nonce, additional data, plain text give cipher text and tag (R488, R493). -/
opaque gcmSeal : List Byte → List Byte → List Byte → List Byte → List Byte × List Byte
/-- AES-256-GCM opening: key, nonce, additional data, cipher text, tag give the plain text where the tag holds. -/
opaque gcmOpen : List Byte → List Byte → List Byte → List Byte → List Byte → Option (List Byte)

end Sys2Proof.Config
end

