-- ==== Sys2Proof/Machine/TypesCtl.lean ====
section
/-! DEFINITION. The state of the control plane: ports of the dictionary, crown, alerts, boot chain, foremen, error log. -/
namespace Sys2Proof.Machine

/-- The crown states, in the order of their values (R431). -/
inductive CrownState where
  | powerOn | early | bringup | operational | degraded | quiescing | sleep | recovery | halted
  deriving DecidableEq, Repr, Inhabited

/-- The value crown_state reads (R431). -/
def CrownState.code : CrownState → Nat
  | .powerOn => 0 | .early => 1 | .bringup => 2 | .operational => 3 | .degraded => 4
  | .quiescing => 5 | .sleep => 6 | .recovery => 7 | .halted => 8

/-- A posted frame of the Burlyn port (R417): a write, an open or a commit. -/
inductive Posted where
  | write (idx : BitVec 16) (sub : BitVec 8) (sel : BitVec 8) (value : Word)
  | block (commit : Bool) (a : BlockArgs)
  deriving DecidableEq, Repr, Inhabited

/-- STATE of block_status (R419). -/
inductive BlockState where
  | idle | busy | ready | refused
  deriving DecidableEq, Repr, Inhabited

def BlockState.code : BlockState → Nat
  | .idle => 0 | .busy => 1 | .ready => 2 | .refused => 3

/-- A requester's block operation (R419): its state, the CRC and the code it reports, the buffer, the operation in
progress, and the two registers of a host-window engine (R423). -/
structure Block where
  state : BlockState := .idle
  crc : BitVec 32 := 0
  code : BitVec 16 := 0
  buffer : SMap Byte := []
  op : Option (Bool × BlockArgs) := none
  regObject : BitVec 32 := 0
  regRange : BitVec 64 := 0
  deriving DecidableEq, Repr, Inhabited

/-- What the dictionary keeps for one requester (R408, R418, R436). -/
structure Port where
  declared : BitVec 32 := 0
  accepted : BitVec 32 := 0
  t5 : BitVec 16 := 0
  done : Byte := 0
  refused : Byte := 0
  lastWasRead : Bool := false
  lastObj : BitVec 24 := 0
  lastCode : BitVec 16 := 0
  frameErrors : BitVec 64 := 0
  blk : Block := {}
  /-- Posted frames, oldest first (R417). -/
  posted : List Posted := []
  /-- The bytes the T9 drove last: a READ's data, code and CRC, a block data read, a CAN response or a load's value. -/
  out : List Byte := []
  /-- The previous CAN request and its stored response (R426). -/
  prev : Option (List Byte × List Byte) := none
  deriving DecidableEq, Repr, Inhabited

/-- The state of a CAN FD controller beside its port (R424, R428): the settings in force on the bus and the response or
alert frames it has sent, newest first. -/
structure CanCtl where
  busOff : Bool := false
  /-- Its bus-off has taken CAN_READY away (R36). -/
  tookReady : Bool := false
  alertFrame : List Byte := []
  deriving DecidableEq, Repr, Inhabited

/-- A boot-table entry (R452). -/
structure BootEntry where
  tried : Bool := false
  trial : Bool := false
  active : Bool := false
  deriving DecidableEq, Repr, Inhabited

/-- STATE of foreman_status (R469). -/
inductive ForemanState where
  | stopped | loading | running | fatal
  deriving DecidableEq, Repr, Inhabited

def ForemanState.code : ForemanState → Nat
  | .stopped => 0 | .loading => 1 | .running => 2 | .fatal => 3

/-- A foreman (R441, R469). -/
structure Foreman where
  state : ForemanState := .stopped
  slot : Bool := false
  trial : Bool := false
  version : BitVec 32 := 0
  /-- Times of its traps, newest first (R465). -/
  traps : List (BitVec 64) := []
  /-- Ranges of its partition locked as FOREMAN_CODE, and those writable as FOREMAN_DATA (R454). -/
  code : List (Nat × Nat) := []
  data : List (Nat × Nat) := []
  deriving DecidableEq, Repr, Inhabited

/-- Why an image is being loaded: a crown start, a write to foreman_restart, or a trap. -/
inductive LoadWhy where
  | crownStart | restart | trap
  deriving DecidableEq, Repr, Inhabited

/-- An image load in progress (R454, R458): the slot chosen, whether it starts on trial, and why. -/
structure ImageLoad where
  slot : Bool
  trial : Bool
  why : LoadWhy
  /-- The other slot has failed already (R460). -/
  fellBack : Bool := false
  deriving DecidableEq, Repr, Inhabited

/-- A measurement-log entry (R456). -/
structure Measure where
  digest : List Byte
  fwVersion : BitVec 32
  secVersion : Byte
  keyIndex : BitVec 4
  trial : Bool
  slot : Bool
  imageType : Byte
  time : BitVec 64
  deriving DecidableEq, Repr, Inhabited

/-- STATE of fw_update_status (R469). -/
inductive UpdState where
  | idle | busy | done | refused
  deriving DecidableEq, Repr, Inhabited

def UpdState.code : UpdState → Nat
  | .idle => 0 | .busy => 1 | .done => 2 | .refused => 3

/-- The recovery loader (R466 to R468): what caused RECOVERY, the last SEQ with its stored response, and the image in
reception (type, slot, size, bytes received). -/
structure Recovery where
  causeType : Byte := 0
  causeCode : Byte := 0
  last : Option (Byte × List Byte) := none
  begun : Option (Nat × Bool × Nat × Nat) := none
  response : List Byte := []
  deriving DecidableEq, Repr, Inhabited

/-- The boot chain and the firmware state (R441 to R469) but for the fuses and the flash. -/
structure Boot where
  foremen : Tab 5 Foreman := Vector.replicate 5 {}
  loads : Tab 8 (Option ImageLoad) := Vector.replicate 8 none
  /-- LOADED of image_info: running, or loaded for HOST_PAYLOAD. -/
  loaded : Tab 8 Bool := Vector.replicate 8 false
  trialEnds : Tab 8 (Option (BitVec 64)) := Vector.replicate 8 none
  measures : List Measure := []
  /-- Foreman memory: byte o of foreman f's partition at f × 0x2_0000 + o (R441). -/
  partitions : SMap Byte := []
  /-- Ranges of host L2 locked since HOST_BOOT (R454), and host_l2_lock. -/
  l2Locks : List (Nat × Nat) := []
  l2Lock : Bool := false
  /-- Segments that HOST_PAYLOAD's load locked (R455). -/
  payloadLocks : List Nat := []
  /-- HOST_PAYLOAD waits for the boughs its sections touch (R453 step 6). -/
  payloadWaits : Bool := false
  updState : UpdState := .idle
  updType : Byte := 0
  updCode : Byte := 0
  /-- Segments the update's image locks (R461). -/
  updLocks : List Nat := []
  recovery : Recovery := {}
  deriving DecidableEq, Repr, Inhabited

/-- An error log record (R470). -/
structure LogRec where
  seq : BitVec 32
  time : BitVec 64
  code : BitVec 16
  severity : BitVec 4
  kind : BitVec 3
  unit : BitVec 9
  detail0 : BitVec 64
  detail1 : BitVec 64
  deriving DecidableEq, Repr, Inhabited

/-- The error log (R470, R472): the ring's records, oldest first; those that wait for the hub foreman; those that wait for
their flash copy; the next SEQ. -/
structure ErrorLog where
  ring : List LogRec := []
  nextSeq : BitVec 32 := 0
  waiting : List LogRec := []
  toFlash : List LogRec := []
  deriving DecidableEq, Repr, Inhabited

/-- A sPPR repair record in fuses (R347, R495). -/
structure Repair where
  die : Nat
  bank : Nat
  row : Nat
  deriving DecidableEq, Repr, Inhabited

/-- What survives every reset: fuses and the boot flash (R449 to R452, R494, R495, R511). -/
structure NonVolatile where
  /-- Security-version counters, 0 to 64 (R450). -/
  secCounter : Tab 8 Nat := Vector.replicate 8 0
  /-- Revocation fuses (R449). -/
  revoked : BitVec 16 := 0
  /-- Owner key digests of slots 12 to 15 (R494). -/
  ownerDigest : Tab 4 (Option (List Byte)) := Vector.replicate 4 none
  /-- The boot flash; a byte not listed reads 0xFF (erased). -/
  flash : SMap Byte := []
  /-- Next record place of the flash summary, 0 to 4,095 (R472). -/
  flashNext : Nat := 0
  /-- Steps of the WEAR fuses blown (R511). -/
  wearSteps : Nat := 0
  /-- DEBUG_LOCK (R495, R496). -/
  debugLocked : Bool := false
  /-- Repair records of each seam, up to 8 (R347, R495). -/
  repairs : Tab 16 (List Repair) := Vector.replicate 16 []
  /-- Top leaves of the device HSS key used (R492, R495). -/
  lmsUsed : Nat := 0
  deriving DecidableEq, Repr, Inhabited

end Sys2Proof.Machine
end

