-- ==== Sys2Proof/Machine/TypesSec.lean ====
section
/-! DEFINITION. The state of the security block (claims, segment table, keys, attestation) and of the power and thermal
block. -/
namespace Sys2Proof.Machine

/-- States of a claim, in the order of claim_state's values (R475). -/
inductive ClaimState where
  | closed | opened | session | sealed | releasing
  deriving DecidableEq, Repr, Inhabited

def ClaimState.code : ClaimState → Nat
  | .closed => 0 | .opened => 1 | .session => 2 | .sealed => 3 | .releasing => 4

/-- Confidential and open in the sense of R475: SESSION, SEALED or RELEASING. -/
def ClaimState.confidential : ClaimState → Bool
  | .session | .sealed | .releasing => true
  | _ => false

/-- Open in R475's table. -/
def ClaimState.isOpen : ClaimState → Bool
  | .opened | .session | .sealed => true
  | _ => false

/-- STATE of session_status (R493), also of crypt_status. -/
inductive SessState where
  | idle | busy | ready | failed
  deriving DecidableEq, Repr, Inhabited

def SessState.code : SessState → Nat
  | .idle => 0 | .busy => 1 | .ready => 2 | .failed => 3

/-- What a claim's session waits for. -/
inductive SessWait where
  | none | makeKeys | report | unwrap
  deriving DecidableEq, Repr, Inhabited

/-- One claim (R475, R490 to R493, R497). -/
structure Claim where
  state : ClaimState := .closed
  /-- PCIE_OUT of claim_flags. -/
  pcieOut : Bool := false
  nonce : List Byte := List.replicate 32 0
  sessState : SessState := .idle
  sessCode : Nat := 0
  /-- The command in progress: the making of the session keys, a REPORT or an UNWRAP. -/
  wait : SessWait := .none
  report : List Byte := []
  /-- Length of the report's part E that both signatures cover. -/
  reportE : Nat := 0
  /-- No report has been made since the last load or unload in the claim (R490). -/
  stale : Bool := true
  wrap : List Byte := List.replicate 145 0
  /-- Key store slots of the claim (R487): session secret, model key, export key. -/
  sessionSecret : Option (List Byte) := none
  /-- SESSION_KEY: the session's public key, 97 bytes (R491). -/
  sessionPublic : List Byte := []
  modelKey : Option (List Byte) := none
  exportKey : Option (List Byte) := none
  /-- Number of NONCE_PREFIX values used under the export key (R488). -/
  exports : Nat := 0
  deriving DecidableEq, Repr, Inhabited

/-- An entry of the segment table (R478) but for ABSENT, which the grade gives. -/
structure Seg where
  locks : Nat := 0
  scrubbed : Bool := false
  busy : Bool := false
  lost : Bool := true
  claim : ClaimId := 0
  perm : BitVec 3 := 7
  deriving DecidableEq, Repr, Inhabited

/-- OP of seg_command (R481). -/
inductive SegOp where
  | assign (claim : ClaimId) (perm : BitVec 3)
  | clear
  | revive
  deriving DecidableEq, Repr, Inhabited

/-- A segment command in progress: the operation, the next segment and the last. -/
structure SegRun where
  op : SegOp
  next : Nat
  last : Nat
  deriving DecidableEq, Repr, Inhabited

/-- seg_status (R497). -/
inductive SegStatus where
  | idle | busy | done | refused
  deriving DecidableEq, Repr, Inhabited

def SegStatus.code : SegStatus → Nat
  | .idle => 0 | .busy => 1 | .done => 2 | .refused => 3

/-- An import or export in progress (R489). -/
structure CryptRun where
  exporting : Bool
  claim : ClaimId
  src : Nat
  dst : Nat
  len : Nat
  /-- Segments set BUSY. -/
  segs : List Nat
  /-- A bough reset struck it (R486). -/
  lost : Bool
  deriving DecidableEq, Repr, Inhabited

/-- The security block. -/
structure Security where
  claims : Tab 16 Claim := (Vector.replicate 16 {}).set 0 { state := .opened }
  segs : SMap Seg := []
  segRun : Option SegRun := none
  segStatus : SegStatus := .idle
  crypt : Option CryptRun := none
  cryptState : SessState := .idle
  cryptCode : Nat := 0
  cryptDone : Nat := 0
  /-- The bottom HSS tree of this boot is ready; the top leaf that signed it; reports signed in this boot (R492). -/
  treeReady : Bool := false
  topLeaf : Option Nat := none
  reports : Nat := 0
  /-- Requests since the DRBG's last reseed, and reseeds made (R487). -/
  drbgRequests : Nat := 0
  reseeds : Nat := 0
  /-- The next draw of the DRBG. -/
  draws : Nat := 0
  deriving DecidableEq, Repr, Inhabited

/-- The power and thermal block (R498 to R518). Voltages in mV, powers in µW, the bucket in units of 10⁻¹⁰ J. -/
structure Power where
  coreNow : Nat := 750
  hostNow : Nat := 750
  sramNow : Nat := 750
  thermalCeil : Nat := 900
  currentCeil : Nat := 900
  share : Nat := 900
  /-- A VDD_CORE setpoint sent and not yet acknowledged on AVSBus (R502). -/
  stepTo : Option Nat := none
  bucket : Nat := 0
  bucketEmpty : Bool := false
  /-- Activate rate k/16 of the memory class, and the Uteel links narrowed to 4 lanes (R505). -/
  memLevel : Nat := 16
  total : Nat := 0
  links : Nat := 0
  memory : Nat := 0
  compute : Nat := 0
  /-- Successive failed reads per rail, and successive periods above the cap at lowest steps. -/
  fails : Tab 17 Nat := Vector.replicate 17 0
  overPeriods : Nat := 0
  telemetryLost : Bool := false
  capOver : Bool := false
  alertFloor : Bool := false
  thermalFloor : Bool := false
  thermalThrottle : Bool := false
  /-- VR_ALERT_N inputs low, and the rails whose STATUS_WORD is still to be read (R507). -/
  vrAlert : BitVec 17 := 0
  vrFell : BitVec 17 := 0
  /-- Wear count in ticks above 0.85 V (R511). -/
  wearTicks : Nat := 0
  wearSpent : Bool := false
  temps : Tab 64 (BitVec 16) := Vector.replicate 64 0
  thermtrip : Bool := false
  /-- The domain_off requests (R515), domain d at bit d. -/
  domainOff : BitVec 104 := 0
  /-- When the last POWER_PERIOD, PACE_UPDATE and THERMAL_SENSOR_READ ran, and when an alert last fell (R28, R500, R507, R512). -/
  lastPeriod : Option (BitVec 64) := none
  paceAt : Option (BitVec 64) := none
  sensorsAt : Option (BitVec 64) := none
  alertAt : BitVec 64 := 0
  deriving DecidableEq, Repr, Inhabited

end Sys2Proof.Machine
end

