-- ==== Sys2Proof/Machine/TypesMem.lean ====
section
/-! DEFINITION. The state of the seams, the DRAM groups, the system cache and the trunk's arbiters. -/
namespace Sys2Proof.Machine

/-- STATE of seam_status (R353). -/
inductive SeamState where
  | off | training | ready | refWindow | selfRefresh | failed
  deriving DecidableEq, Repr, Inhabited

def SeamState.code : SeamState → Nat
  | .off => 0 | .training => 1 | .ready => 2 | .refWindow => 3 | .selfRefresh => 4 | .failed => 5

/-- In service: READY or REF_WINDOW (R351). -/
def SeamState.inService : SeamState → Bool
  | .ready | .refWindow => true
  | _ => false

/-- A request held by a seam (R327): its place in the acceptance order, its burst L[32:6], the first of its bytes in the burst, the bytes
it writes or a read returns as they stood at acceptance (R328), whether it is a merge whose read is to come (R334) or under way, or a
patrol scrub read (R344). -/
structure SeamReq where
  stamp : Nat
  write : Bool
  burst : Nat
  panic : Bool
  who : MemRequester
  data : List Byte
  off : Nat := 0
  merge : Bool := false
  reading : Bool := false
  scrub : Bool := false
  /-- The burst was poisoned when the front accepted the request, or an older read has found it uncorrectable since (R343). -/
  poisoned : Bool := false
  /-- The first write of the whole burst that the front accepted after this read (R328, R343). -/
  replaced : Option Nat := none
  /-- The unwritten burst of a full initialisation: the result is unspecified (R345). -/
  raw : Bool := false
  deriving DecidableEq, Repr, Inhabited

/-- A request that waits at the seam front (R327), with the panic mark its requester gave it (R333). -/
structure FrontReq where
  stamp : Nat
  req : MemRequest
  panic : Bool
  deriving DecidableEq, Repr, Inhabited

/-- One bank of a seam (R323, R326, R329, R332, R337): times in clock cycles of 0.625 ns. -/
structure Bank where
  queue : List SeamReq := []
  inOrder : Bool := false
  openRow : Option Nat := none
  /-- When the open row was opened, in ns. -/
  openedAt : Nat := 0
  actAt : Option Nat := none
  preAt : Option Nat := none
  rdAt : Option Nat := none
  wrAt : Option Nat := none
  debt : Int := 0
  pointer : Nat := 0
  /-- When the debt next rises (R337), in units of 2^-17 ns, in which every row interval is whole; the cycle of its last change. -/
  nextRise : Nat := 0
  changedAt : Nat := 0
  /-- The open row is the pointer row of a sweep, and whether that sweep is forced. -/
  sweeping : Bool := false
  forcing : Bool := false
  deriving DecidableEq, Repr, Inhabited

/-- DDR4 commands a seam issues. -/
inductive DdrCmd where
  | act (bank row : Nat)
  | pre (bank : Nat)
  | rd (bank column : Nat)
  | wr (bank column : Nat)
  | ref
  deriving DecidableEq, Repr, Inhabited

/-- How a read met its end (R342, R343, R351). -/
inductive MemFail where
  | unmapped | access | lost | fenced | uncorrectable
  deriving DecidableEq, Repr, Inhabited

/-- A request's answer as its requester meets it. -/
inductive MemAnswer where
  | data (bytes : List Byte)
  | acked
  | fails (f : MemFail)
  deriving DecidableEq, Repr, Inhabited

/-- One seam (R323 to R355). -/
structure Seam where
  state : SeamState := .off
  tries : Nat := 0
  hot : Bool := false
  /-- Sweep passes that each bank has ended since a reading last reported the 2x range (R336). -/
  hotWraps : Tab 8 Nat := Vector.replicate 8 0
  /-- When the dies' temperature readouts were last read (R336). -/
  polledAt : Option (BitVec 64) := none
  banks : Tab 8 Bank := Vector.replicate 8 {}
  front : List FrontReq := []
  nextStamp : Nat := 0
  inflight : List SeamReq := []
  lastActBank : Nat := 7
  /-- The last ACTs, newest first: cycle, bank, and whether it counts against the activate rate of R505. -/
  acts : List (Nat × Nat × Bool) := []
  lastCol : Option (Nat × Nat) := none
  /-- Last write data beat of each bank group (R326 tWTR). -/
  wrEnds : Tab 2 (Option Nat) := Vector.replicate 2 none
  busWrites : Bool := false
  /-- No command before this cycle: tRFC, tXS (R326, R340). -/
  blockedUntil : Nat := 0
  /-- No READ before this cycle: tXS_DLL (R326). -/
  dllAt : Nat := 0
  lastCmd : Option (Nat × DdrCmd) := none
  /-- Poisoned bursts (R343). -/
  poisoned : List Nat := []
  /-- Rows with a correctable error in a scrub pass, and rows with uncorrectable errors with their times (R347, R348). -/
  ceRows : List (Nat × Nat) := []
  ueRows : List (Nat × BitVec 64) := []
  scrubNext : Nat := 0
  scrubPass : Nat := 0
  scrubPromoted : Bool := false
  /-- When the scrub pass began, and the period in hours that it keeps (R344, R354). -/
  scrubStart : Nat := 0
  scrubHours : Nat := 24
  /-- Bursts that the seam itself is to write back and whose bank queues have had no place (R342, R343). -/
  backs : List Nat := []
  lastCeLog : Option (BitVec 64) := none
  /-- The burst contents a full initialisation or a repair left unspecified (R345): every burst while `raw`, but for segments
  cleared since and bursts written since; and the rows repaired. Rows are numbered bank × 2^17 + row. -/
  raw : Bool := true
  cleared : List Nat := []
  written : List Nat := []
  rawRows : List Nat := []
  /-- Rows condemned while the seam foreman does not run (R464): die, bank and row. -/
  condemned : List (Nat × Nat × Nat) := []
  /-- Whether the training in progress is full, and whether the REF window follows it (R346, R350). -/
  trainFull : Bool := true
  refStart : BitVec 64 := 0
  /-- When the next REF of the REF window is due, in ns (R340). -/
  refNext : Nat := 0
  /-- Banks whose new pass of the REF window is complete. -/
  passDone : Tab 8 Bool := Vector.replicate 8 false
  /-- Repair records applied at the last initialisation (R347). -/
  applied : Nat := 0
  /-- Trained values are saved in foreman memory (R346). -/
  saved : Bool := false
  /-- A seam-out event waits for a foreman (R348, R402, R464). -/
  outPending : Bool := false
  /-- The answers of the last command that gave any, each with the number of its request. -/
  answers : List (Nat × MemAnswer) := []
  deriving DecidableEq, Repr, Inhabited

/-- Modes of a DRAM group (R349). -/
inductive GroupMode where
  | on | keep | drop
  deriving DecidableEq, Repr, Inhabited

def GroupMode.code : GroupMode → Nat
  | .on => 0 | .keep => 1 | .drop => 2

/-- A DRAM group (R349, R350, R562). -/
structure Group where
  mode : GroupMode := .on
  /-- The mode before the change in progress. -/
  changing : Option GroupMode := none
  enable : Bool := false
  enHold : Bool := false
  /-- When DRAM_EN fell (R562). -/
  enFell : BitVec 64 := 0
  deriving DecidableEq, Repr, Inhabited

/-- A line of the system cache (R359): its first address, whether it is dirty and then what the seam holds under it, whether host cores
hold a copy (R361), and which of its bursts the seam holds poisoned, or has not written since a full initialisation, under a dirty line
(R343, R345). -/
structure Line where
  addr : Nat
  dirty : Bool
  under : List Byte
  host : Bool
  poison : List Nat := []
  unwritten : List Nat := []
  deriving DecidableEq, Repr, Inhabited

/-- A slice of the system cache (R359): lines by set × 16 + way, and the tree bits of each set. -/
structure Slice where
  lines : SMap (Option Line) := []
  plru : SMap (BitVec 15) := []
  /-- What the last handshake answered, with the numbers of the requests. -/
  answers : List (Nat × MemAnswer) := []
  deriving DecidableEq, Repr, Inhabited

/-- A request that waits at a port or a slice of the trunk (R367): its number, the input it came by, and its panic mark. -/
structure TrunkReq where
  stamp : Nat
  input : Nat
  req : MemRequest
  panic : Bool
  deriving DecidableEq, Repr, Inhabited

end Sys2Proof.Machine
end

