-- ==== Sys2Proof/Machine/TypesIo.lean ====
section
/-! DEFINITION. The state of handle queues, camera ports, image pipelines, codecs, the sample pipeline, Uteel links, the
grove and the PCIe port. -/
namespace Sys2Proof.Machine

/-- A handle queue (R262 to R264): the pool it is bound to and the state of every buffer. Every buffer index stands in
exactly one of the four lists; free and queued are oldest first. -/
structure HandleQueue where
  bound : Bool := false
  claim : ClaimId := 0
  base : Nat := 0
  stride : Nat := 0
  count : Nat := 0
  free : List Nat := []
  queued : List (BitVec 64) := []
  filling : List Nat := []
  held : List Nat := []
  /-- Producers that wait for a FREE buffer, oldest first, each with the number of jobs accepted before it asked (R265, R268). -/
  asks : List (Producer × Nat) := []
  deriving DecidableEq, Repr, Inhabited

/-- A frame in progress on a camera port (R299, R303, R308). -/
structure Frame where
  fsTime : BitVec 64
  count : BitVec 32
  buffer : Nat
  params : List Byte
  eccFixed : Bool
  /-- Lines in the line store, oldest first, and lines the pipeline has processed, in order. -/
  stored : List (List (BitVec 16))
  lines : List (List (BitVec 16))
  /-- Input slot of the logging copy taken for the frame, if any (R318). -/
  logSlot : Option Nat
  deriving DecidableEq, Repr, Inhabited

/-- A camera port (R298 to R300). -/
structure CameraPort where
  hsActive : Bool := false
  deskewDone : Bool := false
  /-- A frame start has been accepted since the port was enabled (R298); the header of one was corrected. -/
  started : Bool := false
  fixedPending : Bool := false
  frame : Option Frame := none
  deriving DecidableEq, Repr, Inhabited

/-- An image pipeline's write buffer (R309 to R311) and the order of lines waiting for it: ports, oldest line first. -/
structure ImagePipe where
  fill : Nat := 0
  panic : Bool := false
  order : List CamId := []
  deriving DecidableEq, Repr, Inhabited

/-- STATE of i2c_result (R314). -/
inductive I2cState where
  | idle | busy | done | failed
  deriving DecidableEq, Repr, Inhabited

def I2cState.code : I2cState → Nat
  | .idle => 0 | .busy => 1 | .done => 2 | .failed => 3

/-- An I²C controller (R313, R314). -/
structure I2c where
  state : I2cState := .idle
  code : Byte := 0
  count : Byte := 0
  /-- When the transfer began. -/
  began : BitVec 64 := 0
  xfer : List Byte := List.replicate 36 0
  data : List Byte := List.replicate 32 0
  deriving DecidableEq, Repr, Inhabited

/-- The values of a frame-sync output's objects as a write left them, with the tick of its acknowledgement (R316). -/
structure FsWrite where
  time : BitVec 64
  period : Nat
  phase : Nat
  width : Nat
  epoch : Nat
  deriving DecidableEq, Repr, Inhabited

/-- A frame-sync output (R315, R316): the values in force and the pulse in progress. -/
structure Fsync where
  level : Bool := false
  period : Nat := 0
  phase : Nat := 0
  width : Nat := 1
  epoch : Nat := 0
  /-- When the pulse train was enabled: its edges lie after it. -/
  since : BitVec 64 := 0
  pulseEnd : Option (BitVec 64) := none
  /-- Writes that wait for the output's next boundary, oldest first. -/
  writes : List FsWrite := []
  deriving DecidableEq, Repr, Inhabited

/-- A logging copy that waits to be coded (R318). -/
structure LogCopy where
  slot : Nat
  fsTime : BitVec 64
  count : BitVec 32
  arrived : BitVec 64
  deriving DecidableEq, Repr, Inhabited

/-- An encoder stream (R318, R319). -/
structure EncStream where
  slotSize : Nat := 0
  width : Nat := 0
  height : Nat := 0
  waiting : List LogCopy := []
  /-- Pictures coded since the last IDR, and whether the next one is IDR. -/
  sinceIdr : Nat := 0
  forceIdr : Bool := true
  coded : Nat := 0
  deriving DecidableEq, Repr, Inhabited

/-- A decoded picture that waits for a buffer: width, height, output format and its bytes from offset 2,048. -/
structure Picture where
  width : Nat
  height : Nat
  fmt : Nat
  bytes : List Byte
  deriving DecidableEq, Repr, Inhabited

/-- The decoder command in progress (R320): its record's address, what is still to be posted and how it ends. -/
structure DecRun where
  addr : Nat
  op : Nat
  stream : Nat
  bough : BoughId
  queue : HqPos
  pictures : List Picture
  /-- The buffer taken for the next picture (R264). -/
  buffer : Option Nat
  posted : Nat
  status : Nat
  errOffset : Nat
  fencedPost : Bool
  deriving DecidableEq, Repr, Inhabited

/-- The video and JPEG decoders (R317 to R321). -/
structure Decoder where
  run : Option DecRun := none
  /-- Pictures posted per stream (TAG), whether it skips to its next IRAP or IDR picture, and a number that names the references
  it holds, 0 for none. -/
  pictures : Tab 16 (BitVec 28) := Vector.replicate 16 0
  skipping : Tab 16 Bool := Vector.replicate 16 true
  history : Tab 16 Nat := Vector.replicate 16 0
  deriving DecidableEq, Repr, Inhabited

/-- STATE of sp_status (R287). -/
inductive SpState where
  | stopped | running | stopping | waiting
  deriving DecidableEq, Repr, Inhabited

def SpState.code : SpState → Nat
  | .stopped => 0 | .running => 1 | .stopping => 2 | .waiting => 3

/-- A segment placed in a batch (R280, R281, R284). -/
structure SpSeg where
  row : Nat
  start : Nat
  tokens : List (BitVec 32)
  span : Nat
  image : Option Nat
  imageTaken : Bool
  reason : Nat
  sample : Nat
  deriving DecidableEq, Repr, Inhabited

/-- The sample pipeline's run (R279 to R291). -/
structure SamplePipe where
  state : SpState := .stopped
  stopReason : Nat := 0
  epoch : BitVec 32 := 0
  /-- Position of the next sample to be placed, and of the batch's first sample. -/
  pos : Nat := 0
  firstPos : Nat := 0
  batch : Nat := 0
  row : Nat := 0
  fill : Nat := 0
  imagesTaken : Nat := 0
  /-- Segments of the batch in build, in order of placement. -/
  segs : List SpSeg := []
  buffer : Option Nat := none
  /-- The batch in build is closed and waits to be posted. -/
  closed : Bool := false
  stopAsked : Bool := false
  deriving DecidableEq, Repr, Inhabited

/-- STATE of link_status (R536). -/
inductive LinkState where
  | off | training | securing | up | fenced | down
  deriving DecidableEq, Repr, Inhabited

def LinkState.code : LinkState → Nat
  | .off => 0 | .training => 1 | .securing => 2 | .up => 3 | .fenced => 4 | .down => 5

/-- A Uteel link (R519 to R527, R536). -/
structure Link where
  state : LinkState := .off
  enable : Bool := false
  fence : Bool := false
  dateline : Bool := false
  downReason : Nat := 0
  peerMember : Nat := 0
  protocol : Nat := 0
  peerSerial : BitVec 64 := 0
  /-- Narrowed by the power cap, or because two lanes failed (R505, R525). -/
  narrow : Bool := false
  spareFor : Nat := 15
  failedLanes : List Nat := []
  laneErrors : Tab 8 (List (BitVec 64)) := Vector.replicate 8 []
  /-- Next SEQ expected, next SEQ sent, and the flits sent and not covered by ACK (R523). -/
  rxSeq : BitVec 16 := 0
  txSeq : BitVec 16 := 0
  unacked : List (BitVec 16) := []
  naks : Nat := 0
  retrainsInRow : Nat := 0
  retraining : Bool := false
  /-- NAKs received in a row for one SEQ, and that SEQ (R523). -/
  naksIn : Nat := 0
  nakFor : BitVec 16 := 0
  /-- When the keys in force took effect: a link sends one flit every 8 ns (R519, R527). -/
  keyAt : BitVec 64 := 0
  keys : Option (List Byte × List Byte) := none
  keyGeneration : Nat := 0
  /-- Credits per buffer, in 64-byte units, 16 KiB each (R522): VC × 2 + class, responses being class 1 (log entry 21). -/
  credits : Tab 4 Nat := Vector.replicate 4 256
  deriving DecidableEq, Repr, Inhabited

/-- Kinds of transaction (R521). -/
inductive TxnKind where
  | readReq | write | readCpl | writeAck | pair | time
  deriving DecidableEq, Repr, Inhabited

/-- A transaction this part sent: the link, kind and contents, with the outcome an answer carries (R534). -/
structure SentTxn where
  link : LinkId
  kind : TxnKind
  txn : LinkTxn
  answer : PeerAnswer
  deriving DecidableEq, Repr, Inhabited

/-- A request of this part that waits for a peer's or a PCIe answer (R534, R535, R543). -/
structure Outstanding where
  tag : Nat
  /-- The tag of the first transaction of the transfer it is part of (R521). -/
  first : Nat
  link : Option LinkId
  member : Nat
  claim : ClaimId
  isWrite : Bool
  addr : Nat
  len : Nat
  /-- The answer, once it has arrived. -/
  answer : Option (PeerAnswer × List Byte)
  /-- When it was sent. -/
  sentAt : BitVec 64
  deriving DecidableEq, Repr, Inhabited

/-- A peer_claims write that waits for PAIR exchanges (R531): the member, the value and the claims still to be paired. -/
structure PairWait where
  member : Fin 16
  requester : Requester
  value : BitVec 16
  left : List ClaimId
  deriving DecidableEq, Repr, Inhabited

/-- The grove: routing, outstanding requests, pairing and time (R529 to R535). -/
structure Grove where
  sent : Option SentTxn := none
  /-- Transactions that wait for credits or for the replay buffer, oldest first (R522, R523). -/
  waiting : List SentTxn := []
  outstanding : List Outstanding := []
  nextTag : Nat := 0
  pairs : List PairWait := []
  timeLocked : Bool := false
  timeOffset : BitVec 16 := 0
  stepped : Bool := false
  /-- Rate correction in force, in ppm: -200, 0 or 200. -/
  rate : Int := 0
  /-- When TIME was last exchanged (R533). -/
  timeAt : Option (BitVec 64) := none
  deriving DecidableEq, Repr, Inhabited

/-- An MSI-X table entry (R540). -/
structure Msix where
  addr : BitVec 64 := 0
  data : BitVec 32 := 0
  masked : Bool := true
  deriving DecidableEq, Repr, Inhabited

/-- How an inbound TLP or a load through a BAR was answered. -/
inductive TlpAnswer where
  | none | success (data : List Byte) | unsupported | completerAbort
  deriving DecidableEq, Repr, Inhabited

/-- The PCIe port (R539 to R544). -/
structure Pcie where
  strap : Nat := 0
  up : Tab 2 Bool := Vector.replicate 2 false
  width : Tab 2 (BitVec 4) := Vector.replicate 2 0
  speed : Tab 2 (BitVec 4) := Vector.replicate 2 0
  msix : Tab 65 Msix := Vector.replicate 65 {}
  pendingBits : BitVec 65 := 0
  /-- The vector of the last MSI-X message sent, and messages sent. -/
  lastVector : Option Nat := none
  messages : Nat := 0
  answer : TlpAnswer := .none
  /-- Message-signalled interrupts delivered to the host cluster: the last write's address and data (R542). -/
  hostMsi : Option (Nat × List Byte) := none
  /-- The last write sent to the outbound row, by its device address. -/
  lastWrite : Option (Nat × List Byte) := none
  deriving DecidableEq, Repr, Inhabited

end Sys2Proof.Machine
end

