-- ==== Sys2Proof/Machine/TypesEng.lean ====
section
/-! DEFINITION. The state of the work hub, the bough hubs and the branches: queues, the journal, bundles, descriptors in
progress, work and event counters, haulers, rings and leaves. -/
namespace Sys2Proof.Machine

/-- States of a bough (R395); READY stands for RUNNING too, which reads while a descriptor runs in the bough. -/
inductive BoughState where
  | absent | down | training | ready | fencing | fenced | resetting
  deriving DecidableEq, Repr, Inhabited

/-- READY or RUNNING (R22, R23): it is RUNNING while a descriptor runs there. -/
def BoughState.up : BoughState → Bool
  | .ready => true
  | _ => false

/-- Fenced or resetting (R269): from the fence until the bough reports ready. -/
def BoughState.inReset : BoughState → Bool
  | .fencing | .fenced | .resetting => true
  | _ => false

/-- A work queue's indices and status (R375 to R377). -/
structure WorkQueue where
  enabled : Bool := false
  acceptIndex : BitVec 32 := 0
  compWrite : BitVec 32 := 0
  compRead : BitVec 32 := 0
  refusal : Nat := 0
  refusedAt : BitVec 32 := 0
  recordBlocked : Bool := false
  /-- When the write of the record that waits was last refused (R388). -/
  triedAt : BitVec 64 := 0
  deriving DecidableEq, Repr, Inhabited

/-- How a job's status was decided (R386, R387). -/
structure Decision where
  status : Nat
  time : BitVec 64
  failDesc : Nat := 0xFFFFFF
  failBough : Nat := 15
  deriving DecidableEq, Repr, Inhabited

/-- A descriptor of a job by its number in the graph, or the j-th instance that INDIRECT `id` issued (R167). -/
structure DKey where
  id : Nat
  inst : Option Nat := none
  deriving DecidableEq, Repr, Inhabited

/-- Where a descriptor of a job stands (R140, R24): waiting; startable since a stamp with its run-time count latched; running;
done. -/
inductive DPhase where
  | waiting
  | startable (stamp : Nat) (count : Nat)
  | running
  | done
  deriving DecidableEq, Repr, Inhabited

/-- A descriptor of a job: its event wait is latched once met (R141); for an instance, the handle it was issued for (R167). -/
structure JDesc where
  key : DKey
  phase : DPhase := .waiting
  waitMet : Bool := false
  handle : Nat := 0
  deriving DecidableEq, Repr, Inhabited

/-- A job in the journal (R378, R383, R384). -/
structure Job where
  queue : QueueId
  seq : BitVec 32
  claim : ClaimId
  handle : Fin 64
  entry : Nat
  argAddr : Nat
  userTag : BitVec 64
  deadline : Option Nat
  replayable : Bool
  take : Option (BoughId × HqPos)
  post : Option (BoughId × HqPos)
  /-- Place in the order of acceptance over all queues. -/
  order : Nat
  bucket : Nat
  taken : Option (BitVec 64) := none
  reserved : Option Nat := none
  decision : Option Decision := none
  flags : BitVec 8 := 0
  replays : Nat := 0
  touched : BitVec 4 := 0
  pendingReset : BitVec 4 := 0
  /-- A descriptor has started in the present run. -/
  started : Bool := false
  descs : List JDesc := []
  deriving DecidableEq, Repr, Inhabited

/-- A number as an element holds it: a finite value is ± m × 2^e; a zero keeps its sign (R47). -/
inductive Val where
  | nan
  | inf (neg : Bool)
  | fin (neg : Bool) (m : Nat) (e : Int)
  deriving DecidableEq, Repr

/-- A tensor as a descriptor latches it at its start (R125, R152): sizes and extents of the five dimensions, 1 beyond `ndim`. -/
structure Tensor where
  base : Nat
  rel : Bool
  ndim : Nat
  fmt : Nat
  layout : Nat
  bufSize : Nat
  dims : List Nat
  strides : List Nat
  ext : List Nat
  deriving DecidableEq, Repr, Inhabited

/-- A write of one element: its bit address (byte address × 8 + bit), its width and its code. -/
structure Put where
  bit : Nat
  width : Nat
  code : Nat
  deriving DecidableEq, Repr, Inhabited

/-- A transfer still to be issued (R245): the bytes read, in device addresses, what they give (elements of the source by linear
index, with their bit addresses), and the elements written. -/
structure Move where
  /-- Source run, if the transfer reads memory. -/
  src : Option (Nat × Nat)
  /-- Elements read: linear index in the source tensor, bit address. -/
  elems : List (Nat × Nat)
  /-- Elements written: for an output, with codes; for a mover, bit address of the destination by source element, in order. -/
  puts : List Put
  /-- A zero-compressed block: element indices of the block in order, and how many of them lie in extent (R232). -/
  block : Option (List Nat)
  deriving DecidableEq, Repr, Inhabited

/-- A chunk of a stream ring (R252): its tile and number, for an operand of a leaf product its pass and the units it spans, the
transfers not issued, how many are outstanding, and the elements that have arrived, by linear index. -/
structure Chunk where
  tile : Nat
  idx : Nat
  pass : Nat := 0
  lo : Nat := 0
  hi : Nat := 0
  todo : List Move
  out : Nat
  data : SMap (Option Nat)
  deriving DecidableEq, Repr, Inhabited

/-- What a queue's tile reads ahead of its transfers: the indices of GATHER and SCATTER (R163), or the elements of a zero-compressed
block that it writes whole (R234). -/
inductive StageKind where
  | indices | elements
  deriving DecidableEq, Repr, Inhabited

/-- A claimant's sub-ring of a stream ring (R249 to R254): the operand slot it serves (4 for the side list), the ring's number and
queue, the slots it has and the chunks that occupy them, oldest first; for an input, the next chunk to be known. -/
structure SubRing where
  slot : Nat
  ring : Nat
  queue : Fin 16
  out : Bool
  slots : Nat
  slotBytes : Nat
  base : Nat
  shift : Nat
  chunks : List Chunk := []
  nextTile : Option Nat := none
  nextIdx : Nat := 0
  /-- The last tile whose chunks are all known: tiles are cut in rising order within an iteration. -/
  cut : Option Nat := none
  /-- Elements of the running tile that a vector unit or ATTENTION has read; for a leaf product, those of the slice in progress that
  the feeder holds of a chunk it has released. -/
  kept : SMap (Option Nat) := []
  /-- Units of the pass `takenPass` below `taken` have been read by the feeder. -/
  takenPass : Nat := 0
  taken : Nat := 0
  /-- For a side list: the group in progress and the escapes of it already cut, by column (R75). -/
  escGroup : Option Nat := none
  escs : List Nat := []
  deriving DecidableEq, Repr, Inhabited

/-- A claimant of a running descriptor (R200 to R202): its reserved tile, the tile it runs, the tiles stepped whose writeout has
not ended, whether it has met the sentinel, its rings, the transfers its tile still has to issue and what it reads ahead of them
where it is a queue, the output already given to its rings, the codes kept until a zero-compressed block is whole, and the existing
output that ACC_OUT loads through its ring (R159). -/
structure RunUnit where
  who : Claimant
  held : Option Nat := none
  running : Option Nat := none
  finishing : List Nat := []
  sentinel : Bool := false
  rings : List SubRing := []
  todo : List Move := []
  stage : Option (StageKind × Chunk) := none
  indices : SMap (Option Nat) := []
  emitted : Bool := false
  zcKept : SMap (Option Nat) := []
  loads : List Chunk := []
  deriving DecidableEq, Repr, Inhabited

/-- The share of a bough in a running descriptor (R199): its run of tiles, whether the counter has sought its start, and the claims
that wait for it, oldest first (R203). -/
structure Share where
  bough : BoughId
  lo : Nat
  hi : Nat
  seeked : Bool := false
  done : Nat := 0
  claims : List Claimant := []
  deriving DecidableEq, Repr, Inhabited

/-- A 32-bit word that an operation of a hub reads: it has come, or a transaction of that tag brings it. -/
inductive Pull where
  | got (w : Nat)
  | waits (tag : Nat)
  deriving DecidableEq, Repr, Inhabited

/-- A running descriptor (R136 to R139, R146, R199): what it latched at its start and how far it has come. -/
structure Run where
  id : Nat
  queue : QueueId
  seq : BitVec 32
  claim : ClaimId
  handle : Fin 64
  key : DKey
  /-- The descriptor's 1,024 bits. -/
  desc : Nat
  level : Nat
  branch : Option BranchPos
  leaf : Option LeafPos
  /-- Boughs it was posted to (R22), and those that still take part. -/
  posted : List BoughId
  tens : List (Option Tensor)
  /-- The argument word its parameter block names, where it does (R161 STEP_ARG, R272 QPOS_ARG). -/
  arg : Nat := 0
  count : Nat
  iter : Nat := 0
  tx : Nat := 0
  ty : Nat := 0
  shares : List Share := []
  joined : List (BoughId × BranchPos) := []
  units : List RunUnit := []
  /-- The job has stopped: tiles started finish, nothing more is claimed (R144, R206). -/
  stopped : Bool := false
  /-- Passes left per bough of a ROTATE (R260). -/
  passes : List (BoughId × Nat) := []
  /-- Words that an INDIRECT or a sort operation has asked for, in order, and the writes whose acknowledgements are outstanding. -/
  pulls : List Pull := []
  acks : List Nat := []
  /-- Every share and write is done: it completes at its next DESCRIPTOR_COMPLETE (R24). -/
  ready : Bool := false
  deriving DecidableEq, Repr, Inhabited

/-- Where an outstanding transfer stands: its bytes have come; the header of a block is read, or what follows it (R235); the bytes
are read; the old bytes that a write merges with are read (R163, R210); the writes wait for their acknowledgement (R534). -/
inductive XferPhase where
  | landed | header | body | read | olds | ack
  deriving DecidableEq, Repr, Inhabited

/-- An outstanding transfer (R246): whose it is, the chunk it fills or drains, the bytes it has read, the elements it brings, the
elements it writes, the transactions that answer it, and its failure. -/
structure Xfer where
  queue : HaulQueue
  run : Nat
  who : Claimant
  slot : Nat
  tile : Nat
  idx : Nat
  brings : List (Nat × Nat) := []
  puts : List Put := []
  phase : XferPhase := .landed
  tags : List Nat := []
  got : List Byte := []
  fail : Option Nat := none
  move : Move
  deriving DecidableEq, Repr, Inhabited

/-- A drain's accumulator set in use (R85): the tile and the position of it, the FP32 accumulators, the exact integer sums of
the group in progress and the S32 sums of the groups before it, the exact products of a floating group that wait to be summed, the
escapes of that group met so far in each column (R75), the rows of ATTENTION that see no position (R273), and whether it has been
given to the output ring. -/
structure LeafSet where
  tile : Nat
  pos : Nat
  acc : List (BitVec 32)
  isum : List Int := []
  sum : List Int := []
  terms : List (List Val) := []
  escs : List Nat := []
  blank : List Nat := []
  sent : Bool := false
  deriving DecidableEq, Repr, Inhabited

/-- A leaf (R82 to R101): the steps of its tile taken, the extra steps owed for escapes, the set it fills and the sets that wait
for writeout, oldest first, and whether it has stepped in the present pace window (R28). -/
structure Leaf where
  step : Nat := 0
  owed : Nat := 0
  fill : Option LeafSet := none
  drain : List LeafSet := []
  active : Bool := false
  deriving DecidableEq, Repr, Inhabited

/-- A word request that waits at a bank (R106): its arrival stamp, the port, the bank and the word in it (R103), and the decisions
it has lost. -/
structure BankWait where
  stamp : Nat
  port : BankPort
  bank : Nat
  word : Nat
  lost : Nat := 0
  deriving DecidableEq, Repr, Inhabited

/-- A branch (R13): its leaves, the poisoned words of its local memory (R108), the requests that wait at its banks (R106), and the
running values in its vector unit's latches (R114). -/
structure Branch where
  leaves : Tab 4 Leaf := Vector.replicate 4 {}
  poisoned : List Nat := []
  waits : List BankWait := []
  nextStamp : Nat := 0
  latches : List (BitVec 32) := []
  deriving DecidableEq, Repr, Inhabited

/-- A work counter as its objects read (R213): the figures of the descriptor that holds it or held it last. -/
structure WorkCtr where
  next : Nat := 0
  stop : Nat := 0
  done : Nat := 0
  busy : Bool := false
  iter : Nat := 0
  handle : Nat := 0
  desc : Nat := 0
  deriving DecidableEq, Repr, Inhabited

/-- An entry of a bucket (R176), with what the loader records of it (R399): the boughs whose DRAM its descriptors' read ranges
touch, and whether it holds OPT_STEP. -/
structure EntryRec where
  first : Nat
  last : Nat
  argWords : Nat
  reads : BitVec 4
  optStep : Bool
  deriving DecidableEq, Repr, Inhabited

/-- A bucket's placed sections (R174): entries, descriptors (1,024 bits) and relocated tensor-table entries (512 bits). -/
structure BucketProg where
  entries : List EntryRec
  graph : List Nat
  tensors : List Nat
  deriving DecidableEq, Repr, Inhabited

/-- A loaded bundle (R182): its claim, the segments it locks, its measurement and time, whether it is lost (R188), its shape
variables and bounds (R190), its buckets, and the counter blocks it uses (R189). -/
structure Bundle where
  handle : Fin 64
  claim : ClaimId
  segs : List Nat
  digest : List Byte
  time : BitVec 64
  lost : Bool := false
  varWords : List Nat
  bounds : List (List Nat)
  buckets : List BucketProg
  ecBlocks : List (BoughId × Nat)
  wcBlocks : List (BoughId × Nat)
  deriving DecidableEq, Repr, Inhabited

/-- The load in progress (R182): the record's address and fields, the segments locked so far, the code already decided, and
whether a bough reset has struck a segment it reads or writes (R188). -/
structure LoadRun where
  record : Nat
  claim : ClaimId
  image : Nat
  /-- Bytes of the image and of the placement area, from the header read at step 1. -/
  size : Nat
  placeSize : Nat
  place : Nat
  regionTable : Nat
  regionCount : Nat
  /-- The region table, read at step 1. -/
  addrs : List Nat := []
  locks : List Nat
  /-- The verifier code decided at the request; 0 where the load goes on. -/
  code : Nat
  hit : Bool := false
  deriving DecidableEq, Repr, Inhabited

/-- The work hub (R180 to R192, R375 to R393): queues, the journal in the order of acceptance, the descriptors that run, the
transfers outstanding in issue order, the hauler queues that wait for their hauler's total in the order in which they met it (R246), the
loader and the bundles. -/
structure WorkHub where
  queues : Tab 64 WorkQueue := Vector.replicate 64 {}
  jobs : List Job := []
  nextOrder : Nat := 0
  nextStamp : Nat := 0
  /-- The epoch drawn at the crown start; journal_epoch reads it from WORK_HUB_READY on (R404). -/
  epoch : BitVec 64 := 0
  runs : List Run := []
  nextRun : Nat := 0
  xfers : List Xfer := []
  haulWaits : List HaulQueue := []
  bundles : List Bundle := []
  load : Option LoadRun := none
  /-- STATE of load_status, its HANDLE, and load_detail (R181). -/
  loadState : Nat := 0
  loadHandle : Nat := 0xFF
  loadDetail : BitVec 64 := 0
  deriving DecidableEq, Repr, Inhabited

/-- A bough (R395, R398): its state, the reset in progress, its handle queues, event and work counters, its branches, and its
sort unit's waiting and running descriptors, by run (R119). -/
structure Bough where
  state : BoughState := .down
  /-- The seams train in full at this reset (R348). -/
  fullTrain : Bool := false
  /-- The drain limit has passed: requests outstanding are answered FENCED (R398). -/
  limitPassed : Bool := false
  /-- The tick at which the drain limit passes: fence_drain_limit as it stood at the fence (R398, R405). -/
  drainAt : BitVec 64 := 0
  /-- Local memory has been zeroed since the bough last left service (R109). -/
  zeroed : Bool := false
  hqs : Tab 32 HandleQueue := Vector.replicate 32 {}
  /-- Event counters by number (R143). -/
  events : SMap (BitVec 32) := []
  counters : SMap WorkCtr := []
  branches : Tab 6 Branch := Vector.replicate 6 {}
  sortWait : List Nat := []
  sortBusy : Option Nat := none
  deriving DecidableEq, Repr, Inhabited

end Sys2Proof.Machine
end

