-- ==== Sys2Proof/Machine/State.lean ====
section
/-! DEFINITION. The state of the T9: everything the spec gives the part, as plain data, with the queue of waiting
commands; the reasons a step can stop; the state after reset. -/
namespace Sys2Proof.Machine

/-- Faults. The spec gives no event that stops the part itself: a failure it describes is a refusal code, a job status, a
log record or a crown state, all of them next states. No meaning raises a fault (safe). -/
inductive Fault where
  deriving DecidableEq, Repr

/-- Refusals. -/
inductive Refusal where
  /-- The command has no meaning yet: raised by Dispatch alone, by name (safe: the run stops). -/
  | notModelled (mnemonic : String)
  deriving DecidableEq, Repr

/-- The machine. -/
structure State where
  /-- The commands that wait, first in first out (the model's own: how commands reach the block). -/
  pending : List Instr := []
  /-- Number of free values drawn so far (the model's own, log entry 3). -/
  free : Nat := 0
  /-- The grade fuse (R1). -/
  grade : Grade := .a128
  /-- The timebase (R7). -/
  now : BitVec 64 := 0
  /-- PORST_N is low, and the straps sampled at its release (R560). -/
  porstLow : Bool := true
  testEn : Bool := false
  /-- Device memory by address (R29). -/
  mem : Memory := []
  /-- Dictionary objects that are plain registers or counters, by index × 256 + subindex; a number not listed holds the
  default of its row in the object tables (R406). -/
  objs : SMap (BitVec 64) := []
  ports : Tab 5 Port := #v[{ accepted := 0x03000000 }, { accepted := 0x03000000 }, { accepted := 0x03000000 }, {}, {}]
  can : Tab 2 CanCtl := Vector.replicate 2 {}
  crown : CrownState := .powerOn
  crownTime : BitVec 64 := 0
  readiness : BitVec 64 := 0
  readyFailed : BitVec 64 := 0
  /-- Functions whose bit of readiness_expected software has cleared (R432, R435). -/
  notExpected : BitVec 64 := 0
  alertCause : BitVec 64 := 0
  boot : Boot := {}
  nv : NonVolatile := {}
  log : ErrorLog := {}
  sec : Security := {}
  power : Power := {}
  seams : Tab 16 Seam := Vector.replicate 16 {}
  groups : Tab 4 Group := Vector.replicate 4 {}
  slices : Tab 8 Slice := Vector.replicate 8 {}
  /-- Requests that wait at the ports and slices of the trunk, oldest first, by point number (R367, R374), and the requests so far. -/
  trunk : SMap (List TrunkReq) := []
  trunkStamp : Nat := 0
  /-- Wait counters of the arbiters, by point × 256 + input (R369). -/
  waits : SMap Nat := []
  boughs : Tab 4 Bough := Vector.replicate 4 {}
  hub : WorkHub := {}
  cameras : Tab 16 CameraPort := Vector.replicate 16 {}
  pipes : Tab 2 ImagePipe := Vector.replicate 2 {}
  i2c : Tab 8 I2c := Vector.replicate 8 {}
  fsync : Tab 16 Fsync := Vector.replicate 16 {}
  encoders : Tab 16 EncStream := Vector.replicate 16 {}
  decoder : Decoder := {}
  sample : SamplePipe := {}
  linkUnits : Tab 4 Link := Vector.replicate 4 {}
  grove : Grove := {}
  pcie : Pcie := {}
  deriving DecidableEq, Repr

/-- The machine right after reset: PORST_N low, every field at its default. -/
def State.reset : State := {}

end Sys2Proof.Machine
end

