-- ==== Sys2Proof/Machine/Objects.lean ====
section
/-! DEFINITION. The object dictionary as the object tables of the spec give it: every object's index, type, access, ports,
default and the crown states in which it may be written (R406 to R411, R435 to R440, and each chapter's own table). -/
namespace Sys2Proof.Machine
open Sys2Proof

/-- Types of objects (R407). -/
inductive ObTy where
  | bool | u8 | u16 | u32 | u64 | s16 | s32
  | bytes (n : Nat) | text (n : Nat) | domain (n : Nat)
  deriving DecidableEq, Repr

/-- Bytes of a value of the type (R407). -/
def ObTy.size : ObTy → Nat
  | .bool | .u8 => 1 | .u16 | .s16 => 2 | .u32 | .s32 => 4 | .u64 => 8
  | .bytes n | .text n | .domain n => n

/-- Short objects are reached by READ and WRITE, block objects by the block commands (R407). -/
def ObTy.short : ObTy → Bool
  | .bytes n | .text n => n ≤ 8
  | .domain _ => false
  | _ => true

/-- Access rights (R19). -/
inductive Access where
  | const | ro | rw | w1c | wo
  deriving DecidableEq, Repr

/-- The objects, by name. -/
inductive Ob where
  | vendorName | partName | orderCode | grade | archCode | siliconStep
  | serialNumber | presentBranches | presentLinks | presentCameras | burlynVersion | abiVersion
  | bundleFormat | uteelProtocol | ifOffer | t5Offer | ifDeclare | ifAccepted
  | portStatus | frameErrors | blockStatus | t5Accept | canBaseId | canBitrate
  | canStatus | canBusOffEvents | crownState | readiness | readinessAlertMask | readinessFailed
  | readinessExpected | crownCommand | crownStateTime | alertCause | alertEnable | wqSubBase
  | wqCompBase | wqShape | wqEnable | wqStatus | wqAccepted | wqRecorded
  | wqCancel | wqOldest | journalEpoch | journalInFlight | fenceDrainLimit | replayLimit
  | cancelBundle | jobsReplayed | lateArrivals | boughCanary | queueCanary | loadRequest
  | loadStatus | loadDetail | unload | bundlesLoaded | boughState | boughReset
  | boughResets | eventCounter | ecBlockClaims | wcBlockClaims | wcNext | wcEnd
  | wcDone | wcOwner | wcClaims | wcSentinels | wcPointsSkipped | wcCountersClear
  | hqPoolBase | hqPoolShape | hqBind | hqStatus | hqPost | hqPosts
  | hqDrops | branchHaulerLimit | boughHaulerLimit | seamStatus | seamCe | seamUe
  | seamPoisonReads | seamLastError | seamMaxDebt | seamForcedSweeps | seamInOrderEvents | seamPanicRequests
  | seamRmw | dramGroupMode | dramGroupBusy | sweepDebtLimit | scrubPeriod | starveWarn
  | starveLimit | starveFlags | starveAlertMask | starveLast | forcedWins | cacheEarlyWays
  | sliceHits | sliceMisses | sliceWritebacks | sliceCe | sliceUe | sliceCountersClear
  | csiConfig | csiStatus | csiFrames | csiFramesDropped | csiPacketsDiscarded | csiEccCorrected
  | ipipePortConfig | pyramidRatiosLo | pyramidRatiosHi | ipipeParamAddr | i2cSpeed | i2cXfer
  | i2cResult | fsyncPeriod | fsyncPhase | fsyncWidth | fsyncEpoch | ipipePanic
  | ipipeStatus | ipipeOverruns | ipipePanicEvents | encConfig | encPicRing | encBsBase
  | encBsSize | encBsWrite | encBsRead | encSkipped | encDiscarded | decRingBase
  | decRingShape | decTail | decHead | decWorkBase | decWorkSize | spStoreBase
  | spStoreSize | spIndexBase | spSampleCount | spSeed | spEpoch | spStartPos
  | spShape | spImgStride | spPadToken | spTarget | spControl | spStatus
  | spNextPos | spBatches | spDropped | coreVTarget | coreVNow | hostVTarget
  | sramVNow | coreILimit | capSustained | capPriority | classLinks | classMemory
  | classCompute | bucketEnable | bucketLevel | capStatus | powerNow | powerLinks
  | powerMemory | powerCompute | boughPace | crownPace | hostPace | tempMax
  | throttleTemp | tempSensors | domainOnLo | domainOnHi | domainOffLo | domainOffHi
  | wearSeconds | vrAlertState | vrCmdsDropped | groveMember | groveRoute | groveMemberFence
  | groveSignalBase | groveTimeSource | groveTimeStatus | linkControl | linkStatus | linkPeerSerial
  | linkFlits | linkReplays | linkRetrains | peerClaims | pcieMode | pcieStatus
  | pcieIds | pcieErrors | confidentialOpen | debugState | lmsLeavesUsed | identityCert
  | ownerKeyProgram | claimState | claimCommand | claimFlags | segmentTable | segCommand
  | segStatus | sessionNonce | sessionCommand | sessionStatus | attestReport | sessionWrap
  | cryptSrc | cryptDst | cryptLen | cryptClaim | cryptStart | cryptStatus
  | fwUpdateAddr | fwUpdateSize | fwUpdateStart | fwUpdateStatus | foremanRestart | firmwareConfirm
  | trialTime | keyRevoked | hostL2Lock | foremanStatus | foremanVersion | foremanRestarts
  | measurementLog | measurementCount | imageInfo | errorLog | logNextSeq | logOverwritten
  | flashLog | flashLogErase | leafSteps | leafFrozenFeed | leafFrozenDrain | leafFrozenEscape
  | leafFrozenGang | bankConflicts | branchCountersClear | sortOps | sortBusySteps | sortCountersClear
  deriving DecidableEq, Repr

/-- A row of an object table: object (a, b, k) lies at index base + a × s1 + b × s2, subindex sub + k. Ports: bit 0 B, bit 1 C,
bit 2 H. States: bit n for the crown state of value n. -/
structure ObjRow where
  base : Nat
  n1 : Nat
  s1 : Nat
  n2 : Nat
  s2 : Nat
  sub : Nat
  subs : Nat
  ty : ObTy
  acc : Access
  ports : Nat
  dflt : Nat
  states : Nat
  deriving DecidableEq, Repr

/-- The row of each object. -/
def Ob.row : Ob → ObjRow
  | .vendorName => ⟨0x1000, 1, 1, 1, 1, 1, 1, .text 8, .const, 7, 0, 0⟩
  | .partName => ⟨0x1000, 1, 1, 1, 1, 2, 1, .text 16, .const, 7, 0, 0⟩
  | .orderCode => ⟨0x1000, 1, 1, 1, 1, 3, 1, .text 16, .const, 7, 0, 0⟩
  | .grade => ⟨0x1000, 1, 1, 1, 1, 4, 1, .u8, .const, 7, 0, 0⟩
  | .archCode => ⟨0x1000, 1, 1, 1, 1, 5, 1, .u16, .const, 7, 0x0009, 0⟩
  | .siliconStep => ⟨0x1000, 1, 1, 1, 1, 6, 1, .u16, .const, 7, 0, 0⟩
  | .serialNumber => ⟨0x1000, 1, 1, 1, 1, 7, 1, .u64, .const, 7, 0, 0⟩
  | .presentBranches => ⟨0x1000, 1, 1, 1, 1, 8, 1, .u32, .const, 7, 0, 0⟩
  | .presentLinks => ⟨0x1000, 1, 1, 1, 1, 9, 1, .u8, .const, 7, 0, 0⟩
  | .presentCameras => ⟨0x1000, 1, 1, 1, 1, 10, 1, .u16, .const, 7, 0, 0⟩
  | .burlynVersion => ⟨0x1000, 1, 1, 1, 1, 11, 1, .u16, .const, 7, 0x0300, 0⟩
  | .abiVersion => ⟨0x1000, 1, 1, 1, 1, 12, 1, .u16, .const, 7, 0x0300, 0⟩
  | .bundleFormat => ⟨0x1000, 1, 1, 1, 1, 13, 1, .u16, .const, 7, 0x0400, 0⟩
  | .uteelProtocol => ⟨0x1000, 1, 1, 1, 1, 14, 1, .u8, .const, 7, 2, 0⟩
  | .ifOffer => ⟨0x1100, 1, 1, 1, 1, 1, 1, .u64, .const, 7, 0x0000030003000202, 0⟩
  | .t5Offer => ⟨0x1100, 1, 1, 1, 1, 2, 1, .u16, .const, 7, 0x007F, 0⟩
  | .ifDeclare => ⟨0x1110, 5, 1, 1, 1, 1, 1, .u32, .rw, 7, 0, 0x1e⟩
  | .ifAccepted => ⟨0x1110, 5, 1, 1, 1, 2, 1, .u32, .ro, 7, 0, 0⟩
  | .portStatus => ⟨0x1110, 5, 1, 1, 1, 3, 1, .u64, .ro, 7, 0, 0⟩
  | .frameErrors => ⟨0x1110, 5, 1, 1, 1, 4, 1, .u64, .ro, 7, 0, 0⟩
  | .blockStatus => ⟨0x1110, 5, 1, 1, 1, 5, 1, .u64, .ro, 7, 0, 0⟩
  | .t5Accept => ⟨0x1110, 5, 1, 1, 1, 6, 1, .u16, .rw, 7, 0, 0x1e⟩
  | .canBaseId => ⟨0x1120, 2, 1, 1, 1, 1, 1, .u32, .rw, 5, 0x1B00000, 0x1c⟩
  | .canBitrate => ⟨0x1120, 2, 1, 1, 1, 2, 1, .u16, .rw, 5, 0x0102, 0x1c⟩
  | .canStatus => ⟨0x1120, 2, 1, 1, 1, 3, 1, .u8, .ro, 7, 0, 0⟩
  | .canBusOffEvents => ⟨0x1120, 2, 1, 1, 1, 4, 1, .u64, .ro, 7, 0, 0⟩
  | .crownState => ⟨0x1200, 1, 1, 1, 1, 1, 1, .u8, .ro, 7, 0, 0⟩
  | .readiness => ⟨0x1200, 1, 1, 1, 1, 2, 1, .u64, .ro, 7, 0, 0⟩
  | .readinessAlertMask => ⟨0x1200, 1, 1, 1, 1, 3, 1, .u64, .rw, 5, 0, 0xff⟩
  | .readinessFailed => ⟨0x1200, 1, 1, 1, 1, 4, 1, .u64, .ro, 7, 0, 0⟩
  | .readinessExpected => ⟨0x1200, 1, 1, 1, 1, 5, 1, .u64, .rw, 5, 0, 0x1c⟩
  | .crownCommand => ⟨0x1200, 1, 1, 1, 1, 6, 1, .u32, .wo, 7, 0, 0x1fe⟩
  | .crownStateTime => ⟨0x1200, 1, 1, 1, 1, 7, 1, .u64, .ro, 7, 0, 0⟩
  | .alertCause => ⟨0x1210, 1, 1, 1, 1, 1, 1, .u64, .w1c, 7, 0, 0x1fe⟩
  | .alertEnable => ⟨0x1210, 1, 1, 1, 1, 2, 1, .u64, .rw, 5, 0x0000000000000006, 0xfe⟩
  | .wqSubBase => ⟨0x2000, 64, 16, 1, 1, 1, 1, .u64, .rw, 5, 0, 0x1c⟩
  | .wqCompBase => ⟨0x2000, 64, 16, 1, 1, 2, 1, .u64, .rw, 5, 0, 0x1c⟩
  | .wqShape => ⟨0x2000, 64, 16, 1, 1, 3, 1, .u32, .rw, 5, 0, 0x1c⟩
  | .wqEnable => ⟨0x2000, 64, 16, 1, 1, 4, 1, .bool, .rw, 5, 0, 0x3c⟩
  | .wqStatus => ⟨0x2000, 64, 16, 1, 1, 5, 1, .u64, .ro, 7, 0, 0⟩
  | .wqAccepted => ⟨0x2000, 64, 16, 1, 1, 6, 1, .u64, .ro, 7, 0, 0⟩
  | .wqRecorded => ⟨0x2000, 64, 16, 1, 1, 7, 1, .u64, .ro, 7, 0, 0⟩
  | .wqCancel => ⟨0x2000, 64, 16, 1, 1, 8, 1, .u64, .wo, 7, 0, 0x38⟩
  | .wqOldest => ⟨0x2000, 64, 16, 1, 1, 9, 1, .u64, .ro, 7, 0, 0⟩
  | .journalEpoch => ⟨0x2400, 1, 1, 1, 1, 1, 1, .u64, .ro, 7, 0, 0⟩
  | .journalInFlight => ⟨0x2400, 1, 1, 1, 1, 2, 1, .u16, .ro, 7, 0, 0⟩
  | .fenceDrainLimit => ⟨0x2400, 1, 1, 1, 1, 3, 1, .u32, .rw, 5, 50000, 0x1c⟩
  | .replayLimit => ⟨0x2400, 1, 1, 1, 1, 4, 1, .u8, .rw, 5, 2, 0x1c⟩
  | .cancelBundle => ⟨0x2400, 1, 1, 1, 1, 5, 1, .u8, .wo, 7, 0, 0x38⟩
  | .jobsReplayed => ⟨0x2400, 1, 1, 1, 1, 6, 1, .u64, .ro, 7, 0, 0⟩
  | .lateArrivals => ⟨0x2400, 1, 1, 1, 1, 7, 1, .u64, .ro, 7, 0, 0⟩
  | .boughCanary => ⟨0x2410, 1, 1, 1, 1, 1, 4, .u64, .ro, 7, 0, 0⟩
  | .queueCanary => ⟨0x2411, 1, 1, 1, 1, 1, 64, .u64, .ro, 7, 0, 0⟩
  | .loadRequest => ⟨0x2480, 1, 1, 1, 1, 1, 1, .u64, .wo, 4, 0, 0x18⟩
  | .loadStatus => ⟨0x2480, 1, 1, 1, 1, 2, 1, .u64, .ro, 7, 0x000000000000FF00, 0⟩
  | .loadDetail => ⟨0x2480, 1, 1, 1, 1, 3, 1, .u64, .ro, 7, 0, 0⟩
  | .unload => ⟨0x2480, 1, 1, 1, 1, 4, 1, .u8, .wo, 5, 0, 0x38⟩
  | .bundlesLoaded => ⟨0x2480, 1, 1, 1, 1, 5, 1, .u64, .ro, 7, 0, 0⟩
  | .boughState => ⟨0x3000, 4, 1, 1, 1, 1, 1, .u8, .ro, 7, 1, 0⟩
  | .boughReset => ⟨0x3000, 4, 1, 1, 1, 2, 1, .u8, .wo, 7, 0, 0x18⟩
  | .boughResets => ⟨0x3000, 4, 1, 1, 1, 3, 1, .u64, .ro, 7, 0, 0⟩
  | .eventCounter => ⟨0x3100, 4, 4, 4, 1, 0, 256, .u32, .rw, 5, 0, 0x18⟩
  | .ecBlockClaims => ⟨0x3180, 4, 1, 1, 1, 1, 1, .u64, .rw, 5, 0, 0x1c⟩
  | .wcBlockClaims => ⟨0x3180, 4, 1, 1, 1, 2, 1, .u64, .rw, 5, 0, 0x1c⟩
  | .wcNext => ⟨0x3200, 4, 4, 1, 1, 0, 256, .u32, .ro, 7, 0, 0⟩
  | .wcEnd => ⟨0x3201, 4, 4, 1, 1, 0, 256, .u32, .ro, 7, 0, 0⟩
  | .wcDone => ⟨0x3202, 4, 4, 1, 1, 0, 256, .u32, .ro, 7, 0, 0⟩
  | .wcOwner => ⟨0x3203, 4, 4, 1, 1, 0, 256, .u64, .ro, 7, 0, 0⟩
  | .wcClaims => ⟨0x3210, 4, 1, 1, 1, 1, 1, .u64, .ro, 7, 0, 0⟩
  | .wcSentinels => ⟨0x3210, 4, 1, 1, 1, 2, 1, .u64, .ro, 7, 0, 0⟩
  | .wcPointsSkipped => ⟨0x3210, 4, 1, 1, 1, 3, 1, .u64, .ro, 7, 0, 0⟩
  | .wcCountersClear => ⟨0x3210, 4, 1, 1, 1, 4, 1, .bool, .wo, 5, 0, 0x18⟩
  | .hqPoolBase => ⟨0x3300, 4, 32, 32, 1, 1, 1, .u64, .rw, 5, 0, 0x1c⟩
  | .hqPoolShape => ⟨0x3300, 4, 32, 32, 1, 2, 1, .u64, .rw, 5, 0, 0x1c⟩
  | .hqBind => ⟨0x3300, 4, 32, 32, 1, 3, 1, .bool, .rw, 5, 0, 0x1c⟩
  | .hqStatus => ⟨0x3300, 4, 32, 32, 1, 4, 1, .u64, .ro, 7, 0, 0⟩
  | .hqPost => ⟨0x3300, 4, 32, 32, 1, 5, 1, .u64, .wo, 4, 0, 0x18⟩
  | .hqPosts => ⟨0x3300, 4, 32, 32, 1, 6, 1, .u64, .ro, 7, 0, 0⟩
  | .hqDrops => ⟨0x3300, 4, 32, 32, 1, 7, 1, .u64, .ro, 7, 0, 0⟩
  | .branchHaulerLimit => ⟨0x3380, 4, 8, 6, 1, 1, 16, .u8, .rw, 5, 8, 0x1c⟩
  | .boughHaulerLimit => ⟨0x33A0, 4, 1, 1, 1, 1, 32, .u8, .rw, 5, 8, 0x1c⟩
  | .seamStatus => ⟨0x3400, 16, 1, 1, 1, 1, 1, .u32, .ro, 7, 0, 0⟩
  | .seamCe => ⟨0x3400, 16, 1, 1, 1, 2, 1, .u64, .ro, 7, 0, 0⟩
  | .seamUe => ⟨0x3400, 16, 1, 1, 1, 3, 1, .u64, .ro, 7, 0, 0⟩
  | .seamPoisonReads => ⟨0x3400, 16, 1, 1, 1, 4, 1, .u64, .ro, 7, 0, 0⟩
  | .seamLastError => ⟨0x3400, 16, 1, 1, 1, 5, 1, .u64, .ro, 7, 0, 0⟩
  | .seamMaxDebt => ⟨0x3400, 16, 1, 1, 1, 6, 1, .u16, .ro, 7, 0, 0⟩
  | .seamForcedSweeps => ⟨0x3400, 16, 1, 1, 1, 7, 1, .u64, .ro, 7, 0, 0⟩
  | .seamInOrderEvents => ⟨0x3400, 16, 1, 1, 1, 8, 1, .u64, .ro, 7, 0, 0⟩
  | .seamPanicRequests => ⟨0x3400, 16, 1, 1, 1, 9, 1, .u64, .ro, 7, 0, 0⟩
  | .seamRmw => ⟨0x3400, 16, 1, 1, 1, 10, 1, .u64, .ro, 7, 0, 0⟩
  | .dramGroupMode => ⟨0x3420, 4, 1, 1, 1, 1, 1, .u8, .rw, 5, 0, 0x7c⟩
  | .dramGroupBusy => ⟨0x3420, 4, 1, 1, 1, 2, 1, .bool, .ro, 7, 0, 0⟩
  | .sweepDebtLimit => ⟨0x3430, 1, 1, 1, 1, 1, 1, .u16, .rw, 5, 32, 0x1c⟩
  | .scrubPeriod => ⟨0x3430, 1, 1, 1, 1, 2, 1, .u8, .rw, 5, 24, 0x1c⟩
  | .starveWarn => ⟨0x3800, 1, 1, 1, 1, 1, 1, .u16, .rw, 5, 1024, 0x1c⟩
  | .starveLimit => ⟨0x3800, 1, 1, 1, 1, 2, 1, .u16, .rw, 5, 4096, 0x1c⟩
  | .starveFlags => ⟨0x3800, 1, 1, 1, 1, 3, 1, .u64, .w1c, 5, 0, 0xff⟩
  | .starveAlertMask => ⟨0x3800, 1, 1, 1, 1, 4, 1, .u64, .rw, 5, 0, 0xff⟩
  | .starveLast => ⟨0x3800, 1, 1, 1, 1, 5, 1, .u64, .ro, 7, 0, 0⟩
  | .forcedWins => ⟨0x3800, 1, 1, 1, 1, 6, 1, .u64, .ro, 7, 0, 0⟩
  | .cacheEarlyWays => ⟨0x3810, 1, 1, 1, 1, 1, 1, .u8, .rw, 5, 8, 0x1e⟩
  | .sliceHits => ⟨0x3820, 8, 1, 1, 1, 1, 1, .u64, .ro, 7, 0, 0⟩
  | .sliceMisses => ⟨0x3820, 8, 1, 1, 1, 2, 1, .u64, .ro, 7, 0, 0⟩
  | .sliceWritebacks => ⟨0x3820, 8, 1, 1, 1, 3, 1, .u64, .ro, 7, 0, 0⟩
  | .sliceCe => ⟨0x3820, 8, 1, 1, 1, 4, 1, .u64, .ro, 7, 0, 0⟩
  | .sliceUe => ⟨0x3820, 8, 1, 1, 1, 5, 1, .u64, .ro, 7, 0, 0⟩
  | .sliceCountersClear => ⟨0x3820, 8, 1, 1, 1, 6, 1, .bool, .wo, 5, 0, 0x18⟩
  | .csiConfig => ⟨0x4000, 16, 1, 1, 1, 1, 1, .u64, .rw, 5, 0, 0x1c⟩
  | .csiStatus => ⟨0x4000, 16, 1, 1, 1, 2, 1, .u8, .ro, 7, 0, 0⟩
  | .csiFrames => ⟨0x4000, 16, 1, 1, 1, 3, 1, .u64, .ro, 7, 0, 0⟩
  | .csiFramesDropped => ⟨0x4000, 16, 1, 1, 1, 4, 1, .u64, .ro, 7, 0, 0⟩
  | .csiPacketsDiscarded => ⟨0x4000, 16, 1, 1, 1, 5, 1, .u64, .ro, 7, 0, 0⟩
  | .csiEccCorrected => ⟨0x4000, 16, 1, 1, 1, 6, 1, .u64, .ro, 7, 0, 0⟩
  | .ipipePortConfig => ⟨0x4010, 16, 1, 1, 1, 1, 1, .u64, .rw, 5, 0, 0x1c⟩
  | .pyramidRatiosLo => ⟨0x4010, 16, 1, 1, 1, 2, 1, .u64, .rw, 5, 0, 0x1c⟩
  | .pyramidRatiosHi => ⟨0x4010, 16, 1, 1, 1, 3, 1, .u64, .rw, 5, 0, 0x1c⟩
  | .ipipeParamAddr => ⟨0x4010, 16, 1, 1, 1, 4, 1, .u64, .rw, 5, 0, 0x1c⟩
  | .i2cSpeed => ⟨0x4020, 8, 1, 1, 1, 1, 1, .u8, .rw, 5, 1, 0x1c⟩
  | .i2cXfer => ⟨0x4020, 8, 1, 1, 1, 2, 1, .bytes 36, .wo, 5, 0, 0x1c⟩
  | .i2cResult => ⟨0x4020, 8, 1, 1, 1, 3, 1, .bytes 36, .ro, 7, 0, 0⟩
  | .fsyncPeriod => ⟨0x4030, 16, 1, 1, 1, 1, 1, .u32, .rw, 5, 0, 0x1c⟩
  | .fsyncPhase => ⟨0x4030, 16, 1, 1, 1, 2, 1, .u32, .rw, 5, 0, 0x1c⟩
  | .fsyncWidth => ⟨0x4030, 16, 1, 1, 1, 3, 1, .u32, .rw, 5, 1, 0x1c⟩
  | .fsyncEpoch => ⟨0x4040, 1, 1, 1, 1, 1, 1, .u64, .rw, 5, 0, 0x1c⟩
  | .ipipePanic => ⟨0x4050, 2, 1, 1, 1, 1, 1, .u16, .rw, 5, 0x0C04, 0x1c⟩
  | .ipipeStatus => ⟨0x4050, 2, 1, 1, 1, 2, 1, .u8, .ro, 7, 0, 0⟩
  | .ipipeOverruns => ⟨0x4050, 2, 1, 1, 1, 3, 1, .u64, .ro, 7, 0, 0⟩
  | .ipipePanicEvents => ⟨0x4050, 2, 1, 1, 1, 4, 1, .u64, .ro, 7, 0, 0⟩
  | .encConfig => ⟨0x4100, 16, 1, 1, 1, 1, 1, .u64, .rw, 5, 0, 0x18⟩
  | .encPicRing => ⟨0x4100, 16, 1, 1, 1, 2, 1, .u64, .rw, 5, 0, 0x18⟩
  | .encBsBase => ⟨0x4100, 16, 1, 1, 1, 3, 1, .u64, .rw, 5, 0, 0x18⟩
  | .encBsSize => ⟨0x4100, 16, 1, 1, 1, 4, 1, .u64, .rw, 5, 0, 0x18⟩
  | .encBsWrite => ⟨0x4100, 16, 1, 1, 1, 5, 1, .u64, .ro, 7, 0, 0⟩
  | .encBsRead => ⟨0x4100, 16, 1, 1, 1, 6, 1, .u64, .rw, 5, 0, 0x18⟩
  | .encSkipped => ⟨0x4100, 16, 1, 1, 1, 7, 1, .u64, .ro, 7, 0, 0⟩
  | .encDiscarded => ⟨0x4100, 16, 1, 1, 1, 8, 1, .u64, .ro, 7, 0, 0⟩
  | .decRingBase => ⟨0x4120, 1, 1, 1, 1, 1, 1, .u64, .rw, 4, 0, 0x18⟩
  | .decRingShape => ⟨0x4120, 1, 1, 1, 1, 2, 1, .u32, .rw, 4, 0, 0x18⟩
  | .decTail => ⟨0x4120, 1, 1, 1, 1, 3, 1, .u32, .rw, 4, 0, 0x18⟩
  | .decHead => ⟨0x4120, 1, 1, 1, 1, 4, 1, .u32, .ro, 7, 0, 0⟩
  | .decWorkBase => ⟨0x4130, 16, 1, 1, 1, 1, 1, .u64, .rw, 4, 0, 0x18⟩
  | .decWorkSize => ⟨0x4130, 16, 1, 1, 1, 2, 1, .u64, .rw, 4, 0, 0x18⟩
  | .spStoreBase => ⟨0x4200, 1, 1, 1, 1, 1, 1, .u64, .rw, 5, 0, 0x18⟩
  | .spStoreSize => ⟨0x4200, 1, 1, 1, 1, 2, 1, .u64, .rw, 5, 0, 0x18⟩
  | .spIndexBase => ⟨0x4200, 1, 1, 1, 1, 3, 1, .u64, .rw, 5, 0, 0x18⟩
  | .spSampleCount => ⟨0x4200, 1, 1, 1, 1, 4, 1, .u64, .rw, 5, 1, 0x18⟩
  | .spSeed => ⟨0x4200, 1, 1, 1, 1, 5, 1, .u64, .rw, 5, 0, 0x18⟩
  | .spEpoch => ⟨0x4200, 1, 1, 1, 1, 6, 1, .u32, .rw, 5, 0, 0x18⟩
  | .spStartPos => ⟨0x4200, 1, 1, 1, 1, 7, 1, .u64, .rw, 5, 0, 0x18⟩
  | .spShape => ⟨0x4200, 1, 1, 1, 1, 8, 1, .u64, .rw, 5, 0, 0x18⟩
  | .spImgStride => ⟨0x4200, 1, 1, 1, 1, 9, 1, .u32, .rw, 5, 0, 0x18⟩
  | .spPadToken => ⟨0x4200, 1, 1, 1, 1, 10, 1, .s32, .rw, 5, 0, 0x18⟩
  | .spTarget => ⟨0x4200, 1, 1, 1, 1, 11, 1, .u32, .rw, 5, 0, 0x18⟩
  | .spControl => ⟨0x4200, 1, 1, 1, 1, 12, 1, .u8, .wo, 7, 0, 0x38⟩
  | .spStatus => ⟨0x4200, 1, 1, 1, 1, 13, 1, .u64, .ro, 7, 0, 0⟩
  | .spNextPos => ⟨0x4200, 1, 1, 1, 1, 14, 1, .u64, .ro, 7, 0, 0⟩
  | .spBatches => ⟨0x4200, 1, 1, 1, 1, 15, 1, .u64, .ro, 7, 0, 0⟩
  | .spDropped => ⟨0x4200, 1, 1, 1, 1, 16, 1, .u64, .ro, 7, 0, 0⟩
  | .coreVTarget => ⟨0x5000, 1, 1, 1, 1, 1, 1, .u16, .rw, 5, 750, 0x3c⟩
  | .coreVNow => ⟨0x5000, 1, 1, 1, 1, 2, 1, .u16, .ro, 7, 0, 0⟩
  | .hostVTarget => ⟨0x5000, 1, 1, 1, 1, 3, 1, .u16, .rw, 5, 750, 0x3c⟩
  | .sramVNow => ⟨0x5000, 1, 1, 1, 1, 4, 1, .u16, .ro, 7, 0, 0⟩
  | .coreILimit => ⟨0x5000, 1, 1, 1, 1, 5, 1, .u16, .rw, 5, 290, 0x1c⟩
  | .capSustained => ⟨0x5010, 1, 1, 1, 1, 1, 1, .u16, .rw, 7, 150, 0x3c⟩
  | .capPriority => ⟨0x5010, 1, 1, 1, 1, 2, 1, .u8, .rw, 5, 0, 0x3c⟩
  | .classLinks => ⟨0x5010, 1, 1, 1, 1, 3, 1, .u32, .rw, 5, 0x00140004, 0x3c⟩
  | .classMemory => ⟨0x5010, 1, 1, 1, 1, 4, 1, .u32, .rw, 5, 0x003C0010, 0x3c⟩
  | .classCompute => ⟨0x5010, 1, 1, 1, 1, 5, 1, .u32, .rw, 5, 0x00FA000C, 0x3c⟩
  | .bucketEnable => ⟨0x5010, 1, 1, 1, 1, 6, 1, .bool, .rw, 5, 1, 0x3c⟩
  | .bucketLevel => ⟨0x5010, 1, 1, 1, 1, 7, 1, .u32, .ro, 7, 0, 0⟩
  | .capStatus => ⟨0x5010, 1, 1, 1, 1, 8, 1, .u32, .ro, 7, 0, 0⟩
  | .powerNow => ⟨0x5010, 1, 1, 1, 1, 9, 1, .u32, .ro, 7, 0, 0⟩
  | .powerLinks => ⟨0x5010, 1, 1, 1, 1, 10, 1, .u32, .ro, 7, 0, 0⟩
  | .powerMemory => ⟨0x5010, 1, 1, 1, 1, 11, 1, .u32, .ro, 7, 0, 0⟩
  | .powerCompute => ⟨0x5010, 1, 1, 1, 1, 12, 1, .u32, .ro, 7, 0, 0⟩
  | .boughPace => ⟨0x5020, 1, 1, 1, 1, 1, 4, .u32, .ro, 7, 0, 0⟩
  | .crownPace => ⟨0x5020, 1, 1, 1, 1, 5, 1, .u32, .ro, 7, 0, 0⟩
  | .hostPace => ⟨0x5020, 1, 1, 1, 1, 6, 1, .u32, .ro, 7, 0, 0⟩
  | .tempMax => ⟨0x5030, 1, 1, 1, 1, 1, 1, .s16, .ro, 7, 0, 0⟩
  | .throttleTemp => ⟨0x5030, 1, 1, 1, 1, 2, 1, .s16, .rw, 5, 1000, 0x1c⟩
  | .tempSensors => ⟨0x5030, 1, 1, 1, 1, 3, 1, .bytes 128, .ro, 7, 0, 0⟩
  | .domainOnLo => ⟨0x5040, 1, 1, 1, 1, 1, 1, .u64, .ro, 7, 0, 0⟩
  | .domainOnHi => ⟨0x5040, 1, 1, 1, 1, 2, 1, .u64, .ro, 7, 0, 0⟩
  | .domainOffLo => ⟨0x5040, 1, 1, 1, 1, 3, 1, .u64, .rw, 5, 0, 0x3c⟩
  | .domainOffHi => ⟨0x5040, 1, 1, 1, 1, 4, 1, .u64, .rw, 5, 0, 0x3c⟩
  | .wearSeconds => ⟨0x5050, 1, 1, 1, 1, 1, 1, .u32, .ro, 7, 0, 0⟩
  | .vrAlertState => ⟨0x5060, 1, 1, 1, 1, 1, 1, .u32, .ro, 7, 0, 0⟩
  | .vrCmdsDropped => ⟨0x5060, 1, 1, 1, 1, 2, 1, .u64, .ro, 7, 0, 0⟩
  | .groveMember => ⟨0x5800, 1, 1, 1, 1, 1, 1, .u8, .rw, 5, 0, 0x1c⟩
  | .groveRoute => ⟨0x5800, 1, 1, 1, 1, 2, 1, .u64, .rw, 5, 0xFFFFFFFFFFFFFFFF, 0x3c⟩
  | .groveMemberFence => ⟨0x5800, 1, 1, 1, 1, 3, 1, .u16, .rw, 7, 0, 0x3c⟩
  | .groveSignalBase => ⟨0x5800, 1, 1, 1, 1, 4, 1, .u64, .rw, 5, 0, 0x1c⟩
  | .groveTimeSource => ⟨0x5800, 1, 1, 1, 1, 5, 1, .u8, .rw, 5, 0xF, 0x1c⟩
  | .groveTimeStatus => ⟨0x5800, 1, 1, 1, 1, 6, 1, .u32, .ro, 7, 0, 0⟩
  | .linkControl => ⟨0x5810, 4, 1, 1, 1, 1, 1, .u32, .rw, 7, 0, 0x3c⟩
  | .linkStatus => ⟨0x5810, 4, 1, 1, 1, 2, 1, .u64, .ro, 7, 0, 0⟩
  | .linkPeerSerial => ⟨0x5810, 4, 1, 1, 1, 3, 1, .u64, .ro, 7, 0, 0⟩
  | .linkFlits => ⟨0x5810, 4, 1, 1, 1, 4, 1, .u64, .ro, 7, 0, 0⟩
  | .linkReplays => ⟨0x5810, 4, 1, 1, 1, 5, 1, .u64, .ro, 7, 0, 0⟩
  | .linkRetrains => ⟨0x5810, 4, 1, 1, 1, 6, 1, .u64, .ro, 7, 0, 0⟩
  | .peerClaims => ⟨0x5820, 16, 1, 1, 1, 1, 1, .u16, .rw, 5, 0, 0x18⟩
  | .pcieMode => ⟨0x5840, 1, 1, 1, 1, 1, 1, .u8, .const, 7, 0, 0⟩
  | .pcieStatus => ⟨0x5840, 1, 1, 1, 1, 2, 1, .u32, .ro, 7, 0, 0⟩
  | .pcieIds => ⟨0x5840, 1, 1, 1, 1, 3, 1, .u32, .const, 7, 0, 0⟩
  | .pcieErrors => ⟨0x5840, 1, 1, 1, 1, 4, 1, .u64, .ro, 7, 0, 0⟩
  | .confidentialOpen => ⟨0x6000, 1, 1, 1, 1, 1, 1, .u16, .ro, 7, 0, 0⟩
  | .debugState => ⟨0x6000, 1, 1, 1, 1, 2, 1, .u8, .ro, 7, 0, 0⟩
  | .lmsLeavesUsed => ⟨0x6000, 1, 1, 1, 1, 3, 1, .u32, .ro, 7, 0, 0⟩
  | .identityCert => ⟨0x6000, 1, 1, 1, 1, 4, 1, .domain 6142, .const, 7, 0, 0⟩
  | .ownerKeyProgram => ⟨0x6000, 1, 1, 1, 1, 5, 1, .bytes 49, .wo, 5, 0, 0x18⟩
  | .claimState => ⟨0x6010, 16, 1, 1, 1, 1, 1, .u8, .ro, 7, 0, 0⟩
  | .claimCommand => ⟨0x6010, 16, 1, 1, 1, 2, 1, .u8, .wo, 5, 0, 0x38⟩
  | .claimFlags => ⟨0x6010, 16, 1, 1, 1, 3, 1, .u8, .rw, 5, 0, 0x18⟩
  | .segmentTable => ⟨0x6030, 1, 1, 1, 1, 0, 1, .domain 262144, .ro, 7, 0, 0⟩
  | .segCommand => ⟨0x6030, 1, 1, 1, 1, 1, 1, .u64, .wo, 5, 0, 0x3c⟩
  | .segStatus => ⟨0x6030, 1, 1, 1, 1, 2, 1, .u8, .ro, 7, 0, 0⟩
  | .sessionNonce => ⟨0x6040, 16, 1, 1, 1, 1, 1, .bytes 32, .wo, 7, 0, 0x18⟩
  | .sessionCommand => ⟨0x6040, 16, 1, 1, 1, 2, 1, .u8, .wo, 7, 0, 0x18⟩
  | .sessionStatus => ⟨0x6040, 16, 1, 1, 1, 3, 1, .u64, .ro, 7, 0, 0⟩
  | .attestReport => ⟨0x6040, 16, 1, 1, 1, 4, 1, .domain 16384, .ro, 7, 0, 0⟩
  | .sessionWrap => ⟨0x6040, 16, 1, 1, 1, 5, 1, .bytes 145, .wo, 7, 0, 0x18⟩
  | .cryptSrc => ⟨0x6060, 1, 1, 1, 1, 1, 1, .u64, .rw, 5, 0, 0x18⟩
  | .cryptDst => ⟨0x6060, 1, 1, 1, 1, 2, 1, .u64, .rw, 5, 0, 0x18⟩
  | .cryptLen => ⟨0x6060, 1, 1, 1, 1, 3, 1, .u64, .rw, 5, 0, 0x18⟩
  | .cryptClaim => ⟨0x6060, 1, 1, 1, 1, 4, 1, .u8, .rw, 5, 0, 0x18⟩
  | .cryptStart => ⟨0x6060, 1, 1, 1, 1, 5, 1, .u8, .wo, 5, 0, 0x18⟩
  | .cryptStatus => ⟨0x6060, 1, 1, 1, 1, 6, 1, .u64, .ro, 7, 0, 0⟩
  | .fwUpdateAddr => ⟨0x7000, 1, 1, 1, 1, 1, 1, .u64, .rw, 5, 0, 0x18⟩
  | .fwUpdateSize => ⟨0x7000, 1, 1, 1, 1, 2, 1, .u32, .rw, 5, 0, 0x18⟩
  | .fwUpdateStart => ⟨0x7000, 1, 1, 1, 1, 3, 1, .u8, .wo, 5, 0, 0x18⟩
  | .fwUpdateStatus => ⟨0x7000, 1, 1, 1, 1, 4, 1, .u64, .ro, 7, 0, 0⟩
  | .foremanRestart => ⟨0x7000, 1, 1, 1, 1, 5, 1, .u8, .wo, 5, 0, 0x38⟩
  | .firmwareConfirm => ⟨0x7000, 1, 1, 1, 1, 6, 1, .u8, .wo, 7, 0, 0x3c⟩
  | .trialTime => ⟨0x7000, 1, 1, 1, 1, 7, 1, .u32, .rw, 5, 300, 0x1c⟩
  | .keyRevoked => ⟨0x7000, 1, 1, 1, 1, 8, 1, .u16, .ro, 7, 0, 0⟩
  | .hostL2Lock => ⟨0x7000, 1, 1, 1, 1, 9, 1, .bool, .rw, 4, 0, 0x18⟩
  | .foremanStatus => ⟨0x7010, 5, 1, 1, 1, 1, 1, .u32, .ro, 7, 0, 0⟩
  | .foremanVersion => ⟨0x7010, 5, 1, 1, 1, 2, 1, .u32, .ro, 7, 0, 0⟩
  | .foremanRestarts => ⟨0x7010, 5, 1, 1, 1, 3, 1, .u64, .ro, 7, 0, 0⟩
  | .measurementLog => ⟨0x7020, 1, 1, 1, 1, 0, 1, .domain 8192, .ro, 7, 0, 0⟩
  | .measurementCount => ⟨0x7020, 1, 1, 1, 1, 1, 1, .u8, .ro, 7, 0, 0⟩
  | .imageInfo => ⟨0x7031, 8, 1, 1, 1, 1, 1, .u64, .ro, 7, 0, 0⟩
  | .errorLog => ⟨0x7800, 1, 1, 1, 1, 0, 1, .domain 16384, .ro, 7, 0, 0⟩
  | .logNextSeq => ⟨0x7800, 1, 1, 1, 1, 1, 1, .u32, .ro, 7, 0, 0⟩
  | .logOverwritten => ⟨0x7800, 1, 1, 1, 1, 2, 1, .u64, .ro, 7, 0, 0⟩
  | .flashLog => ⟨0x7801, 1, 1, 1, 1, 0, 1, .domain 131072, .ro, 7, 0, 0⟩
  | .flashLogErase => ⟨0x7801, 1, 1, 1, 1, 1, 1, .bool, .wo, 5, 0, 0x18⟩
  | .leafSteps => ⟨0x8020, 4, 8, 6, 1, 1, 1, .u64, .ro, 7, 0, 0⟩
  | .leafFrozenFeed => ⟨0x8020, 4, 8, 6, 1, 2, 1, .u64, .ro, 7, 0, 0⟩
  | .leafFrozenDrain => ⟨0x8020, 4, 8, 6, 1, 3, 1, .u64, .ro, 7, 0, 0⟩
  | .leafFrozenEscape => ⟨0x8020, 4, 8, 6, 1, 4, 1, .u64, .ro, 7, 0, 0⟩
  | .leafFrozenGang => ⟨0x8020, 4, 8, 6, 1, 5, 1, .u64, .ro, 7, 0, 0⟩
  | .bankConflicts => ⟨0x8020, 4, 8, 6, 1, 6, 1, .u64, .ro, 7, 0, 0⟩
  | .branchCountersClear => ⟨0x8020, 4, 8, 6, 1, 7, 1, .bool, .wo, 5, 0, 0x18⟩
  | .sortOps => ⟨0x8040, 4, 1, 1, 1, 1, 1, .u64, .ro, 7, 0, 0⟩
  | .sortBusySteps => ⟨0x8040, 4, 1, 1, 1, 2, 1, .u64, .ro, 7, 0, 0⟩
  | .sortCountersClear => ⟨0x8040, 4, 1, 1, 1, 3, 1, .bool, .wo, 5, 0, 0x18⟩

/-- Part 0 of the list of objects. -/
def obs0 : List Ob :=
  [.vendorName, .partName, .orderCode, .grade, .archCode, .siliconStep, .serialNumber,
   .presentBranches, .presentLinks, .presentCameras, .burlynVersion, .abiVersion, .bundleFormat, .uteelProtocol,
   .ifOffer, .t5Offer, .ifDeclare, .ifAccepted, .portStatus, .frameErrors, .blockStatus,
   .t5Accept, .canBaseId, .canBitrate, .canStatus, .canBusOffEvents, .crownState, .readiness,
   .readinessAlertMask, .readinessFailed, .readinessExpected, .crownCommand, .crownStateTime, .alertCause, .alertEnable,
   .wqSubBase, .wqCompBase, .wqShape, .wqEnable, .wqStatus]

/-- Part 1 of the list of objects. -/
def obs1 : List Ob :=
  [.wqAccepted, .wqRecorded, .wqCancel, .wqOldest, .journalEpoch, .journalInFlight, .fenceDrainLimit,
   .replayLimit, .cancelBundle, .jobsReplayed, .lateArrivals, .boughCanary, .queueCanary, .loadRequest,
   .loadStatus, .loadDetail, .unload, .bundlesLoaded, .boughState, .boughReset, .boughResets,
   .eventCounter, .ecBlockClaims, .wcBlockClaims, .wcNext, .wcEnd, .wcDone, .wcOwner,
   .wcClaims, .wcSentinels, .wcPointsSkipped, .wcCountersClear, .hqPoolBase, .hqPoolShape, .hqBind,
   .hqStatus, .hqPost, .hqPosts, .hqDrops, .branchHaulerLimit]

/-- Part 2 of the list of objects. -/
def obs2 : List Ob :=
  [.boughHaulerLimit, .seamStatus, .seamCe, .seamUe, .seamPoisonReads, .seamLastError, .seamMaxDebt,
   .seamForcedSweeps, .seamInOrderEvents, .seamPanicRequests, .seamRmw, .dramGroupMode, .dramGroupBusy, .sweepDebtLimit,
   .scrubPeriod, .starveWarn, .starveLimit, .starveFlags, .starveAlertMask, .starveLast, .forcedWins,
   .cacheEarlyWays, .sliceHits, .sliceMisses, .sliceWritebacks, .sliceCe, .sliceUe, .sliceCountersClear,
   .csiConfig, .csiStatus, .csiFrames, .csiFramesDropped, .csiPacketsDiscarded, .csiEccCorrected, .ipipePortConfig,
   .pyramidRatiosLo, .pyramidRatiosHi, .ipipeParamAddr, .i2cSpeed, .i2cXfer]

/-- Part 3 of the list of objects. -/
def obs3 : List Ob :=
  [.i2cResult, .fsyncPeriod, .fsyncPhase, .fsyncWidth, .fsyncEpoch, .ipipePanic, .ipipeStatus,
   .ipipeOverruns, .ipipePanicEvents, .encConfig, .encPicRing, .encBsBase, .encBsSize, .encBsWrite,
   .encBsRead, .encSkipped, .encDiscarded, .decRingBase, .decRingShape, .decTail, .decHead,
   .decWorkBase, .decWorkSize, .spStoreBase, .spStoreSize, .spIndexBase, .spSampleCount, .spSeed,
   .spEpoch, .spStartPos, .spShape, .spImgStride, .spPadToken, .spTarget, .spControl,
   .spStatus, .spNextPos, .spBatches, .spDropped, .coreVTarget]

/-- Part 4 of the list of objects. -/
def obs4 : List Ob :=
  [.coreVNow, .hostVTarget, .sramVNow, .coreILimit, .capSustained, .capPriority, .classLinks,
   .classMemory, .classCompute, .bucketEnable, .bucketLevel, .capStatus, .powerNow, .powerLinks,
   .powerMemory, .powerCompute, .boughPace, .crownPace, .hostPace, .tempMax, .throttleTemp,
   .tempSensors, .domainOnLo, .domainOnHi, .domainOffLo, .domainOffHi, .wearSeconds, .vrAlertState,
   .vrCmdsDropped, .groveMember, .groveRoute, .groveMemberFence, .groveSignalBase, .groveTimeSource, .groveTimeStatus,
   .linkControl, .linkStatus, .linkPeerSerial, .linkFlits, .linkReplays]

/-- Part 5 of the list of objects. -/
def obs5 : List Ob :=
  [.linkRetrains, .peerClaims, .pcieMode, .pcieStatus, .pcieIds, .pcieErrors, .confidentialOpen,
   .debugState, .lmsLeavesUsed, .identityCert, .ownerKeyProgram, .claimState, .claimCommand, .claimFlags,
   .segmentTable, .segCommand, .segStatus, .sessionNonce, .sessionCommand, .sessionStatus, .attestReport,
   .sessionWrap, .cryptSrc, .cryptDst, .cryptLen, .cryptClaim, .cryptStart, .cryptStatus,
   .fwUpdateAddr, .fwUpdateSize, .fwUpdateStart, .fwUpdateStatus, .foremanRestart, .firmwareConfirm, .trialTime,
   .keyRevoked, .hostL2Lock, .foremanStatus, .foremanVersion, .foremanRestarts]

/-- Part 6 of the list of objects. -/
def obs6 : List Ob :=
  [.measurementLog, .measurementCount, .imageInfo, .errorLog, .logNextSeq, .logOverwritten, .flashLog,
   .flashLogErase, .leafSteps, .leafFrozenFeed, .leafFrozenDrain, .leafFrozenEscape, .leafFrozenGang, .bankConflicts,
   .branchCountersClear, .sortOps, .sortBusySteps, .sortCountersClear]

/-- Every object. -/
def allObs : List Ob := obs0 ++ obs1 ++ obs2 ++ obs3 ++ obs4 ++ obs5 ++ obs6

/-- An object found at an index and subindex: which, and its place within its row. -/
structure Hit where
  ob : Ob
  a : Nat
  b : Nat
  k : Nat
  deriving DecidableEq, Repr

/-- Whether an index and subindex fall in a row, and where. -/
def ObjRow.place (r : ObjRow) (idx sub : Nat) : Option (Nat × Nat × Nat) :=
  if idx < r.base || sub < r.sub || r.sub + r.subs ≤ sub then none
  else
    let d := idx - r.base
    let a := d / r.s1
    let rest := d % r.s1
    let b := rest / r.s2
    if a < r.n1 && b < r.n2 && rest % r.s2 = 0 then some (a, b, sub - r.sub) else none

/-- The object at an index and subindex (R411): none where there is none. -/
def findObj (idx sub : Nat) : Option Hit :=
  allObs.findSome? fun o => (o.row.place idx sub).map fun p => ⟨o, p.1, p.2.1, p.2.2⟩

/-- Number of an object in `State.objs`: index × 256 + subindex. -/
def Ob.key (o : Ob) (a b k : Nat) : Nat :=
  (o.row.base + a * o.row.s1 + b * o.row.s2) * 256 + o.row.sub + k

/-- A plain register or counter of the dictionary. -/
def State.reg (s : State) (o : Ob) (a : Nat := 0) (b : Nat := 0) (k : Nat := 0) : BitVec 64 :=
  SMap.get (BitVec.ofNat 64 o.row.dflt) s.objs (o.key a b k)

/-- Its value as a number. -/
def State.regN (s : State) (o : Ob) (a : Nat := 0) (b : Nat := 0) (k : Nat := 0) : Nat := (s.reg o a b k).toNat

/-- Write a plain register or counter. -/
def State.setReg (s : State) (o : Ob) (v : BitVec 64) (a : Nat := 0) (b : Nat := 0) (k : Nat := 0) : State :=
  { s with objs := SMap.set (BitVec.ofNat 64 o.row.dflt) s.objs (o.key a b k) v }

/-- Count one event; counters are U64 and wrap at 2^64. -/
def State.bump (s : State) (o : Ob) (a : Nat := 0) (b : Nat := 0) (k : Nat := 0) : State :=
  s.setReg o (s.reg o a b k + 1) a b k

/-- Count n events. -/
def State.bumpBy (s : State) (o : Ob) (n : Nat) (a : Nat := 0) (b : Nat := 0) (k : Nat := 0) : State :=
  s.setReg o (s.reg o a b k + BitVec.ofNat 64 n) a b k

end Sys2Proof.Machine
end

