-- ==== Sys2Proof/Machine/Ops.lean ====
section
/-! DEFINITION. The named operations that every family of commands shares: free values, the grade's units, refusals, alerts,
the error log, readiness and the crown state, the segment table and accesses to memory, handle queues. -/
namespace Sys2Proof.Machine
open Sys2Proof

/-- A meaning's answer: the commands that wait are the step's business, so they stand as they stood. -/
def done (s t : State) : Host.Outcome State Fault Refusal := .next { t with pending := s.pending }

/-- Whether `period` ticks have passed since `last`, or nothing is recorded since reset. -/
def State.due (s : State) (last : Option (BitVec 64)) (period : Nat) : Bool := last.all fun t => period ≤ (s.now - t).toNat

/- Free values (log entry 3). -/

/-- Draw a free 64-bit value. -/
def State.drawWord (s : State) : BitVec 64 × State := (Config.freeWord s.free, { s with free := s.free + 1 })

/-- Draw a free choice. -/
def State.drawChoice (s : State) : Bool × State := (Config.freeChoice s.free, { s with free := s.free + 1 })

/-- Draw n free bytes. -/
def State.drawBytes (s : State) (n : Nat) : List Byte × State :=
  ((List.range n).map fun i => Config.freeByte (s.free + i), { s with free := s.free + n })

/- The grade (R1 to R4). -/

/-- order_code: the code of the part's grade, TT9-A128-E, TT9-B128-E or TT9-C64-E (R1, R545). -/
def orderCode (g : Grade) : List Byte :=
  ([0x54, 0x54, 0x39, 0x2D] : List Byte) ++
  (match g with
  | .a128 => ([0x41, 0x31, 0x32, 0x38, 0x2D, 0x45, 0] : List Byte)
  | .b128 => [0x42, 0x31, 0x32, 0x38, 0x2D, 0x45, 0]
  | .c64 => [0x43, 0x36, 0x34, 0x2D, 0x45, 0, 0]) ++ List.replicate 5 0

/-- Branches per bough (R1, R2). -/
def branchesOf : Grade → Nat
  | .a128 => 6 | .b128 => 5 | .c64 => 4

/-- Links of the grade (R1). -/
def linksOf : Grade → Nat
  | .c64 => 2 | _ => 4

/-- Camera ports of the grade (R1). -/
def camerasOf : Grade → Nat
  | .c64 => 8 | _ => 16

/-- Rows per bank of the grade's dies (R323). -/
def rowsOf : Grade → Nat
  | .c64 => 65536 | _ => 131072

/-- present_branches, present_links, present_cameras (R440). -/
def presentBranches : Grade → Nat
  | .a128 => 0xFFFFFF | .b128 => 0x7DF7DF | .c64 => 0x3CF3CF

def presentLinks (g : Grade) : Nat := 2 ^ linksOf g - 1

def presentCameras (g : Grade) : Nat := 2 ^ camerasOf g - 1

/-- The bits of the readiness map that name a function present in the grade (R36, R37): in TT9-C64 links 2 and 3 and camera
groups 2 and 3 are absent. -/
def presentReady : Grade → BitVec 64
  | .c64 => 0xFF9F3FFFFF#64
  | _ => 0xFFFFFFFFFF#64

/-- A segment absent in the grade: in TT9-C64 the upper 16 GiB of each bough (R32). -/
def segAbsent (g : Grade) (n : Nat) : Bool := g = .c64 && 8192 ≤ n % 16384

/-- Numbers of the readiness bits (R36). -/
def rSeam (s : Nat) : Nat := s
def rBough (b : Nat) : Nat := 16 + b
def rLink (k : Nat) : Nat := 20 + k
def rPcie : Nat := 24
def rIpipe (p : Nat) : Nat := 25 + p
def rCamGroup (g : Nat) : Nat := 27 + g
def rEncoder : Nat := 31
def rDecoder : Nat := 32
def rSample : Nat := 33
def rEarly : Nat := 34
def rCache : Nat := 35
def rHostCores : Nat := 36
def rWorkHub : Nat := 37
def rCrypto : Nat := 38
def rCan : Nat := 39

/-- Whether a function is ready. -/
def State.ready (s : State) (i : Nat) : Bool := s.readiness.getLsbD i

/-- Whether foreman f runs (R464). -/
def State.foremanRuns (s : State) (f : Fin 5) : Bool := s.boot.foremen[f].state = .running

/- ALERT_N (R427, R429, R540). -/

/-- The enable bits in force: READINESS and STARVE are const 1 (R429). -/
def State.alertEnable (s : State) : BitVec 64 := s.reg .alertEnable ||| 6

/-- ALERT_N is asserted: an enabled cause stands, and the crown is past POWER_ON (R429). -/
def State.alertAsserted (s : State) : Bool := s.crown ≠ .powerOn && s.alertCause &&& s.alertEnable ≠ 0

/-- Send MSI-X vector v in endpoint mode: a masked or pending vector sets its pending bit (R540). -/
def State.msixSend (s : State) (v : Fin 65) : State :=
  if s.pcie.strap ≠ 0 then s
  else
    let p := s.pcie
    if p.msix[v].masked || p.pendingBits.getLsbD v.val || !p.up[(0 : Fin 2)] then
      { s with pcie := { p with pendingBits := setBit p.pendingBits v.val true } }
    else { s with pcie := { p with lastVector := some v.val, messages := p.messages + 1 } }

/-- The alert frame of R427. -/
def alertFrame (cause now : BitVec 64) : List Byte :=
  0xA0 :: List.replicate 7 0 ++ leBytes 8 cause.toNat ++ leBytes 8 now.toNat ++ List.replicate 40 0

/-- What an assertion of ALERT_N does: each serving CAN controller sends one alert frame (R427), and vector 64 is sent (R540). -/
def State.alertAssert (s : State) : State :=
  let f := alertFrame s.alertCause s.now
  let s := if s.ready rCan then
      { s with can := s.can.map fun c => if c.busOff then c else { c with alertFrame := f } } else s
  s.msixSend 64

/-- Set a bit of alert_cause; ALERT_N is asserted where it was not and an enabled cause now stands (R429). -/
def State.alert (s : State) (i : Nat) : State :=
  let was := s.alertAsserted
  let s := { s with alertCause := setBit s.alertCause i true }
  if !was && s.alertAsserted then s.alertAssert else s

/-- Bits of alert_cause (R429). -/
def aState : Nat := 0
def aReadiness : Nat := 1
def aStarve : Nat := 2
def aRefused : Nat := 3
def aFrameError : Nat := 4
def aErrorLog : Nat := 5
def aThermal : Nat := 6
def aPower : Nat := 7
def aBoughReset : Nat := 8

/- The error log (R470 to R474). -/

/-- The bytes of a record (R470). -/
def LogRec.bytes (r : LogRec) : List Byte :=
  let w0 := r.unit.toNat + r.kind.toNat * 2 ^ 9 + r.severity.toNat * 2 ^ 12 + r.code.toNat * 2 ^ 16 + r.seq.toNat * 2 ^ 32
  leBytes 8 w0 ++ leBytes 8 r.time.toNat ++ leBytes 8 r.detail0.toNat ++ leBytes 8 r.detail1.toNat

/-- Records copied to the flash summary: severity ERROR or above, and BOOT (R472). -/
def LogRec.toFlash (r : LogRec) : Bool := 3 ≤ r.severity.toNat || r.code = 0x7000

/-- The hub foreman writes one record: it takes the next SEQ, the oldest of 512 is overwritten and counted (R470). -/
def State.logWrite (s : State) (r : LogRec) : State :=
  let r := { r with seq := s.log.nextSeq }
  let full := 512 ≤ s.log.ring.length
  let ring := (if full then s.log.ring.drop 1 else s.log.ring) ++ [r]
  let s := if full then s.bump .logOverwritten else s
  let s := { s with log := { s.log with ring := ring, nextSeq := s.log.nextSeq + 1,
                                        toFlash := if r.toFlash then s.log.toFlash ++ [r] else s.log.toFlash } }
  if 3 ≤ r.severity.toNat then s.alert aErrorLog else s

/-- An event for the log. While the hub foreman does not run, up to 64 records wait and further ones are counted in
log_overwritten (R464). -/
def State.logRec (s : State) (code severity kind unit : Nat) (d0 d1 : BitVec 64) : State :=
  let r : LogRec := ⟨0, s.now, BitVec.ofNat 16 code, BitVec.ofNat 4 severity, BitVec.ofNat 3 kind, BitVec.ofNat 9 unit, d0, d1⟩
  if s.foremanRuns 4 then s.logWrite r
  else if s.log.waiting.length < 64 then { s with log := { s.log with waiting := s.log.waiting ++ [r] } }
  else s.bump .logOverwritten

/-- The hub foreman writes the records that waited for it (R464). -/
def State.logFlush (s : State) : State :=
  s.log.waiting.foldl State.logWrite { s with log := { s.log with waiting := [] } }

/-- A record whose severity or details the spec does not state: they are free (log entry 7). -/
def State.logOpen (s : State) (code kind unit : Nat) (d0 : Option (BitVec 64) := none) : State :=
  let (f0, s) := s.drawWord
  let (f1, s) := s.drawWord
  s.logRec code (Config.severity code).val kind unit (d0.getD f0) f1

/-- The record an engine writes when it stops a buffer under R34: SOURCE number of R262 as its unit, the code within the
range of its subsystem (log entry 7). -/
def State.logEngine (s : State) (range src : Nat) (addr : Nat) : State :=
  s.logOpen (range + (Config.recordCode src).toNat) 7 src (some (BitVec.ofNat 64 addr))

/- The crown state (R431, R432). -/

/-- The crown changes state: the time is kept and STATE sets (R432, R435). -/
def State.setCrown (s : State) (c : CrownState) : State :=
  if s.crown = c then s else ({ s with crown := c, crownTime := s.now }).alert aState

/-- readiness_expected: a 1 for every present function that software has not cleared (R435). -/
def State.expected (s : State) : BitVec 64 := presentReady s.grade &&& ~~~s.notExpected

/-- The changes of state that readiness brings by itself (R432). -/
def State.settle (s : State) : State :=
  match s.crown with
  | .bringup =>
    if s.expected &&& ~~~(s.readiness ||| s.readyFailed) ≠ 0 then s
    else if s.readyFailed = 0 then s.setCrown .operational
    else s.setCrown .degraded
  | .operational => if s.readyFailed = 0 then s else s.setCrown .degraded
  | .degraded => if s.readyFailed = 0 then s.setCrown .operational else s
  | _ => s

/-- Put readiness and readiness_failed; a change of a bit whose mask bit is 1 sets READINESS (R38), and the crown settles. Bits
of absent functions stay 0 (R37). -/
def State.putReady (s : State) (r f : BitVec 64) : State :=
  let r := r &&& presentReady s.grade
  let f := f &&& presentReady s.grade
  let changed := (r ^^^ s.readiness) ||| (f ^^^ s.readyFailed)
  let s := { s with readiness := r, readyFailed := f }
  let s := if changed &&& s.reg .readinessAlertMask ≠ 0 then s.alert aReadiness else s
  s.settle

/-- Function i reports ready: its bit sets, and its failed bit clears (R36, R37). -/
def State.reportReady (s : State) (i : Nat) : State :=
  s.putReady (setBit s.readiness i true) (setBit s.readyFailed i false)

/-- Function i leaves service without failing (R36, R432). -/
def State.leaveService (s : State) (i : Nat) : State := s.putReady (setBit s.readiness i false) s.readyFailed

/-- Function i fails: it is out of service and its failed bit sets (R37). -/
def State.failService (s : State) (i : Nat) : State :=
  s.putReady (setBit s.readiness i false) (setBit s.readyFailed i true)

/-- The crown enters HALTED from any state but POWER_ON and HALTED (R432). -/
def State.halt (s : State) : State :=
  if s.crown = .powerOn || s.crown = .halted then s else s.setCrown .halted

/- Requesters and port_status (R408, R418). -/

/-- Requester number p (R408). -/
def reqNum : Requester → Fin 5
  | .burlyn => 0 | .can0 => 1 | .can1 => 2 | .host => 3 | .pcie => 4

/-- The bit of its port in an object's Ports column. -/
def reqPort : Requester → Nat
  | .burlyn => 0 | .can0 => 1 | .can1 => 1 | .host => 2 | .pcie => 2

/-- Change a requester's port. -/
def State.port (s : State) (r : Requester) : Port := s.ports[(reqNum r)]

def State.updPort (s : State) (r : Requester) (f : Port → Port) : State := { s with ports := upd s.ports (reqNum r) f }

/-- LAST_OBJ of an index and subindex. -/
def objNum (idx sub : Nat) : BitVec 24 := BitVec.ofNat 24 (idx * 256 + sub)

/-- An access is refused with a code: it has no effect but on port_status and ACCESS_REFUSED (R409, R418, R429). -/
def State.refuse (s : State) (r : Requester) (obj : BitVec 24) (isRead : Bool) (code : Nat) : State :=
  (s.updPort r fun p => { p with refused := p.refused + 1, lastWasRead := isRead, lastObj := obj,
                                 lastCode := BitVec.ofNat 16 code }).alert aRefused

/-- A write, open or commit has been applied (R418). -/
def State.countDone (s : State) (r : Requester) : State := s.updPort r fun p => { p with done := p.done + 1 }

/-- A frame of a requester is ignored and counted (R413, R414, R424). -/
def State.frameError (s : State) (r : Requester) : State :=
  (s.updPort r fun p => { p with frameErrors := p.frameErrors + 1 }).alert aFrameError

/-- Rank of a refusal code (R409). -/
def rankOf (code : Nat) : Nat :=
  if code = 0xA100 then 1 else if code = 0xA101 then 2 else if code = 0xA201 then 3 else if code = 0xA200 then 4
  else if code = 0xA202 then 5 else if code = 0xA301 then 6 else if code = 0xA300 then 7 else if code = 0xA400 then 8
  else if code = 0xA600 then 9 else 10

/-- The first code that applies, in the order of ranks (R409). -/
def firstCode : List Nat → Option Nat
  | [] => none
  | c :: cs =>
    match firstCode cs with
    | none => some c
    | some d => if rankOf c ≤ rankOf d then some c else some d

/-- A code where a condition holds. -/
def codeIf (c : Bool) (code : Nat) : List Nat := if c then [code] else []

/- Claims and the segment table (R475 to R480). -/

/-- A claim's state. -/
def State.claimState (s : State) (c : ClaimId) : ClaimState := s.sec.claims[c].state

/-- A confidential claim is open (R475). -/
def State.confidentialOpen (s : State) : Bool := s.sec.claims.toList.any fun c => c.state.confidential

/-- A counter that stands still while a confidential claim is open (R122). -/
def State.count (s : State) (n : Nat) (o : Ob) (a : Nat := 0) (b : Nat := 0) (k : Nat := 0) : State :=
  if s.confidentialOpen then s else s.bumpBy o n a b k

/-- A segment's entry. -/
def State.seg (s : State) (n : Nat) : Seg := SMap.get {} s.sec.segs n

/-- Change a segment's entry. -/
def State.updSeg (s : State) (n : Nat) (f : Seg → Seg) : State :=
  { s with sec := { s.sec with segs := SMap.set {} s.sec.segs n (f (s.seg n)) } }

/-- Change the entries of a list of segments. -/
def State.updSegs (s : State) (ns : List Nat) (f : Seg → Seg) : State := ns.foldl (fun t n => t.updSeg n f) s

/-- The entry's word (R478). -/
def Seg.word (e : Seg) (absent : Bool) : Nat :=
  (e.locks % 128) * 2 ^ 25 + bitN e.scrubbed 20 + bitN e.busy 19 + bitN absent 18 + bitN e.lost 17 + e.claim.val * 16 + e.perm.toNat

/-- The segments of a DRAM range. -/
def segsOf (a len : Nat) : List Nat :=
  if len = 0 then [] else (List.range ((a + len - 1) / 2 ^ 21 + 1 - a / 2 ^ 21)).map (a / 2 ^ 21 + ·)

/-- Take a write-lock on segments (R480). -/
def State.lockSegs (s : State) (ns : List Nat) : State := s.updSegs ns fun e => { e with locks := e.locks + 1 }

/-- Release a write-lock on segments (R480). -/
def State.unlockSegs (s : State) (ns : List Nat) : State := s.updSegs ns fun e => { e with locks := e.locks - 1 }

/-- Whether a requester reaches a claim's segments (R476). -/
def State.reaches (s : State) (who : MemRequester) (c : ClaimId) : Bool :=
  match who with
  | .job d | .loader d | .media d | .codec d | .peer d => c = d
  | .host | .pcieDevice => c = 0 || s.claimState c = .opened

/-- The claim a requester acts in (R476). -/
def whoClaim : MemRequester → ClaimId
  | .job c | .loader c | .media c | .codec c | .peer c => c
  | .host | .pcieDevice => 0

/-- What a request does, for the check of R479. -/
inductive Act where
  | read | write | fetch
  deriving DecidableEq, Repr

/-- The slice's check of a request against its segment's entry (R479). -/
def State.checkSeg (s : State) (who : MemRequester) (act : Act) (n : Nat) : Option MemFail :=
  let e := s.seg n
  if segAbsent s.grade n then some .unmapped
  else if !s.reaches who e.claim then some .access
  else if e.busy then some .access
  else if act = .write && (!e.perm.getLsbD 1 || 0 < e.locks) then some .access
  else if act = .read && !e.perm.getLsbD 0 then some .access
  else if act = .fetch && !e.perm.getLsbD 2 then some .access
  else if act = .read && e.lost then some .lost
  else none

/- Camera ports. -/

/-- A camera port is enabled (R300). -/
def State.camOn (s : State) (p : Nat) : Bool := (s.reg .csiConfig p).getLsbD 0

/-- The pipeline that serves a port: PIPE of csi_config (R300, R302). -/
def State.pipeOf (s : State) (p : Nat) : Fin 2 := if (s.reg .csiConfig p).getLsbD 1 then 1 else 0

/- The address map (R29 to R33). -/

/-- The rows of the address map. -/
inductive Region where
  | dram (a : Nat)
  | localMem (b : BoughId) (r : Nat) (off : Nat)
  | hostL2 (off : Nat)
  | early (off : Nat)
  | hostWindow (off : Nat)
  | queueWindow (off : Nat)
  | grove (member : Fin 16) (a : Nat)
  | pcie (a : Nat)
  | unmapped
  deriving DecidableEq, Repr

/-- This part's member number (R529). -/
def State.member (s : State) : Nat := s.regN .groveMember % 16

/-- The row an address falls in; the grove slot of this part's own member is its own DRAM (R29, R33). -/
def State.region (s : State) (a : Nat) : Region :=
  if a < 0x2000000000 then .dram a
  else if a < 0x4000000000 then .unmapped
  else if a < 0x4008000000 then
    let o := a - 0x4000000000
    let r := (o % 0x2000000) / 0x400000
    if r < branchesOf s.grade then .localMem (Fin.ofNat 4 (o / 0x2000000)) r (o % 0x400000) else .unmapped
  else if a < 0x4100000000 then .unmapped
  else if a < 0x4100400000 then .hostL2 (a - 0x4100000000)
  else if a < 0x4200000000 then .unmapped
  else if a < 0x4200000000 + s.regN .cacheEarlyWays * 0x180000 then .early (a - 0x4200000000)
  else if a < 0x6000000000 then .unmapped
  else if a < 0x6010000000 then .hostWindow (a - 0x6000000000)
  else if a < 0x6100000000 then .unmapped
  else if a < 0x6100400000 then .queueWindow (a - 0x6100000000)
  else if a < 0x10000000000 then .unmapped
  else if a < 0x30000000000 then
    let m := (a - 0x10000000000) / 0x2000000000
    let o := a % 0x2000000000
    if m = s.member then .dram o else .grove (Fin.ofNat 16 m) o
  else if a < 0x40000000000 then .unmapped
  else if a < 0x80000000000 then .pcie (a - 0x40000000000)
  else .unmapped

/-- Address of local memory of branch b.r (R29). -/
def localBase (b : BoughId) (r : Nat) : Nat := 0x4000000000 + b.val * 0x2000000 + r * 0x400000

/-- The bough, the seam and the seam offset L of a DRAM address (R30, R324). -/
def boughOf (a : Nat) : BoughId := Fin.ofNat 4 (a / 2 ^ 35)
def seamOf (a : Nat) : SeamId := Fin.ofNat 16 (4 * (a / 2 ^ 35) + a / 1024 % 4)
def seamOffset (a : Nat) : Nat := a % 2 ^ 35 / 4096 * 1024 + a % 1024

/-- The burst L[32:6] of a DRAM address. -/
def burstOf (a : Nat) : Nat := seamOffset a / 64

/-- Row, bank address and bank group of a burst (R324): bank number BG0 × 4 + BA. -/
def rowOfBurst (g : Nat) : Nat := g / 1024
def bankOfBurst (g : Nat) : BankId :=
  let l := g * 64
  let ba := (l / 2 ^ 14 % 4) ^^^ (l / 2 ^ 17 % 4)
  let bg := (l / 2 ^ 13 % 2) ^^^ (l / 2 ^ 16 % 2)
  Fin.ofNat 8 (bg * 4 + ba)

/-- The device address of a seam's burst: the converse of R324. -/
def addrOfBurst (sm : SeamId) (g : Nat) : Nat :=
  let l := g * 64
  sm.val / 4 * 2 ^ 35 + l / 1024 * 4096 + sm.val % 4 * 1024 + l % 1024

/-- A seam in service behind a bough port that is not fenced (R351, R363, R372). -/
def State.dramServed (s : State) (a : Nat) : Bool :=
  s.seams[seamOf a].state.inService && !s.boughs[boughOf a].state.inReset

/-- Where the check of a DRAM request stands, in order: the segment first, then the seam (R351, R479). -/
def State.checkDram (s : State) (who : MemRequester) (act : Act) (a : Nat) : Option MemFail :=
  match s.checkSeg who act (a / 2 ^ 21) with
  | some f => some f
  | none => if s.dramServed a then none else some .fenced

/-- Whether every segment of a DRAM range grants a claim what is asked, for the checks of rings, pools and configurations. -/
def State.rangeGrants (s : State) (c : ClaimId) (a len : Nat) (read write : Bool) : Bool :=
  a + len ≤ 2 ^ 37 &&
  (segsOf a len).all fun n =>
    let e := s.seg n
    !segAbsent s.grade n && e.claim = c && (!read || e.perm.getLsbD 0) && (!write || e.perm.getLsbD 1)

/-- Whether a range lies wholly in the early window, which serves claim 0 only (R366). -/
def State.rangeEarly (s : State) (a len : Nat) : Bool :=
  0x4200000000 ≤ a && a + len ≤ 0x4200000000 + s.regN .cacheEarlyWays * 0x180000

end Sys2Proof.Machine
end

