-- ==== Sys2Proof/Machine/MemOps.lean ====
section
/-! DEFINITION. Accesses to memory as the engines, the loader and the host make them: the segment check, poison, bursts a
full initialisation left unspecified, and lost segments (R34, R334, R343, R345, R479). -/
namespace Sys2Proof.Machine
open Sys2Proof

/-- Change a seam. -/
def State.updSeam (s : State) (sm : SeamId) (f : Seam → Seam) : State := { s with seams := upd s.seams sm f }

/-- The row number of a burst within its seam: bank × 2^17 + row. -/
def rowKey (g : Nat) : Nat := (bankOfBurst g).val * 2 ^ 17 + rowOfBurst g

/-- A burst whose contents are unspecified (R345): a full initialisation or a repair has left them so, and nothing has written
the burst or cleared its segment since. -/
def State.rawBurst (s : State) (a : Nat) : Bool :=
  let q := s.seams[seamOf a]
  let g := burstOf a
  !q.written.contains g && ((q.raw && !q.cleared.contains (a / 2 ^ 21)) || q.rawRows.contains (rowKey g))

/-- A burst is poisoned (R343). -/
def State.poisonedBurst (s : State) (a : Nat) : Bool := s.seams[seamOf a].poisoned.contains (burstOf a)

/-- seam_last_error (R353). -/
def lastErrorWord (kind die burst : Nat) : BitVec 64 := BitVec.ofNat 64 (kind * 2 ^ 60 + die * 2 ^ 57 + burst * 2 ^ 6)

/-- The seam foreman records a condemned row in one of the seam's 8 repair records: sPPR allows one repaired row per bank group
per die (R347). -/
def State.recordRepair (s : State) (sm : SeamId) (c : Nat × Nat × Nat) : State :=
  let recs := s.nv.repairs[sm]
  let (die, bank, row) := c
  if recs.any fun r => r.die = die && r.bank = bank && r.row = row then s
  else if 8 ≤ recs.length || recs.any fun r => r.die = die && r.bank / 4 = bank / 4 then
    s.logOpen 0x3405 4 sm.val (some (BitVec.ofNat 64 (bank * 2 ^ 17 + row)))
  else
    let s := { s with nv := { s.nv with repairs := upd s.nv.repairs sm fun l => l ++ [Repair.mk die bank row] } }
    s.logOpen 0x3404 4 sm.val (some (BitVec.ofNat 64 (bank * 2 ^ 17 + row)))

/-- A row is condemned (R347); the decision waits while the seam foreman does not run (R464). -/
def State.condemn (s : State) (sm : SeamId) (die bank row : Nat) : State :=
  if s.foremanRuns 1 then s.recordRepair sm (die, bank, row)
  else s.updSeam sm fun q => { q with condemned := q.condemned ++ [(die, bank, row)] }

/-- A burst's check bytes read as poison from now on (R343). -/
def State.poisonBurst (s : State) (sm : SeamId) (g : Nat) : State :=
  s.updSeam sm fun q => { q with poisoned := if q.poisoned.contains g then q.poisoned else q.poisoned ++ [g] }

/-- An uncorrectable error is counted and logged under `code`, and its row condemned (R343, R347); the failing die is not known, so which
die the record names is free. -/
def State.countUe (s : State) (sm : SeamId) (g : Nat) (code : Nat) : State :=
  let (w, s) := s.drawWord
  let s := s.updSeam sm fun q => { q with ueRows := q.ueRows ++ [(rowKey g, s.now)] }
  let s := s.bump .seamUe sm.val
  let s := s.setReg .seamLastError (lastErrorWord 2 7 g) sm.val
  let s := s.logOpen code 4 sm.val (some (BitVec.ofNat 64 (addrOfBurst sm g)))
  s.condemn sm (w.toNat % 5) (bankOfBurst g).val (rowOfBurst g)

/-- The first detection of an uncorrectable error (R343): the burst is poisoned, counted and logged. -/
def State.uncorrectable (s : State) (sm : SeamId) (g : Nat) (code : Nat) : State := (s.poisonBurst sm g).countUe sm g code

/-- A read of a poisoned burst is counted (R343). -/
def State.poisonRead (s : State) (sm : SeamId) (g : Nat) : State :=
  (s.bump .seamPoisonReads sm.val).setReg .seamLastError (lastErrorWord 3 7 g) sm.val

/-- A range cut at the 64-byte bursts. -/
def pieces (a len : Nat) : List (Nat × Nat) :=
  if len = 0 then []
  else (List.range ((a + len - 1) / 64 + 1 - a / 64)).map fun i =>
    let lo := max a ((a / 64 + i) * 64)
    let hi := min (a + len) ((a / 64 + i + 1) * 64)
    (lo, hi - lo)

/-- A read within one burst of DRAM. -/
def State.readBurst (s : State) (who : MemRequester) (act : Act) (a n : Nat) : Except MemFail (List Byte) × State :=
  match s.checkDram who act a with
  | some f => (.error f, s)
  | none =>
    let sm := seamOf a
    if s.poisonedBurst a then
      (.error .uncorrectable, s.poisonRead sm (burstOf a))
    else if s.rawBurst a then
      let (bad, s) := s.drawChoice
      if bad then (.error .uncorrectable, s.uncorrectable sm (burstOf a) 0x3402)
      else
        let (bs, s) := s.drawBytes n
        (.ok bs, s)
    else (.ok (s.mem.readBytes a n), s)

/-- Reads of the pieces of a DRAM range in address order; the first failure ends the read. -/
def State.readDram (s : State) (who : MemRequester) (act : Act) : List (Nat × Nat) → Except MemFail (List Byte) × State
  | [] => (.ok [], s)
  | (a, n) :: rest =>
    match s.readBurst who act a n with
    | (.error f, t) => (.error f, t)
    | (.ok bs, t) =>
      match t.readDram who act rest with
      | (.error f, u) => (.error f, u)
      | (.ok cs, u) => (.ok (bs ++ cs), u)

/-- Bytes stored within one burst, once the check has passed: a whole burst clears poison; a part of a lost segment's burst
zeroes the rest with valid check bits and so clears poison too (R345); a part of an unspecified burst leaves the rest free; a part of a
poisoned burst leaves it poisoned. -/
def State.storeBurst (s : State) (a : Nat) (bs : List Byte) : State :=
  let sm := seamOf a
  let g := burstOf a
  let base := a / 64 * 64
  let whole := bs.length = 64
  let lost := (s.seg (a / 2 ^ 21)).lost
  let raw := s.rawBurst a
  let s :=
    if whole then s.updSeam sm fun q => { q with poisoned := q.poisoned.erase g }
    else if lost then
      { (s.updSeam sm fun q => { q with poisoned := q.poisoned.erase g }) with mem := s.mem.writeBytes base (List.replicate 64 0) }
    else if raw then
      let (fs, s) := s.drawBytes 64
      { s with mem := s.mem.writeBytes base fs }
    else s
  let s := s.updSeam sm fun q => { q with written := if q.written.contains g then q.written else q.written ++ [g] }
  { s with mem := s.mem.writeBytes a bs }

/-- Bytes stored within one burst by a merge that the seam makes at once: it is counted, and its read of an unspecified burst may find an
uncorrectable error, which poisons the burst and does not fail the writer (R334, R345). -/
def State.mergeBurst (s : State) (a : Nat) (bs : List Byte) : State :=
  if bs.length = 64 || (s.seg (a / 2 ^ 21)).lost then s.storeBurst a bs
  else
    let s := s.count 1 .seamRmw (seamOf a).val
    if !s.poisonedBurst a && s.rawBurst a then
      let (bad, s) := s.drawChoice
      (if bad then s.uncorrectable (seamOf a) (burstOf a) 0x3402 else s).storeBurst a bs
    else s.storeBurst a bs

/-- A write within one burst of DRAM. -/
def State.writeBurst (s : State) (who : MemRequester) (a : Nat) (bs : List Byte) : Option MemFail × State :=
  match s.checkDram who .write a with
  | some f => (some f, s)
  | none => (none, s.mergeBurst a bs)

/-- Writes of the pieces of a DRAM range in address order; the first failure ends the write. -/
def State.writeDram (s : State) (who : MemRequester) : List (Nat × Nat) → List Byte → Option MemFail × State
  | [], _ => (none, s)
  | (a, n) :: rest, bs =>
    match s.writeBurst who a (bs.take n) with
    | (some f, t) => (some f, t)
    | (none, t) => t.writeDram who rest (bs.drop n)

/-- Whether a range stays within one row of the address map. -/
def State.sameRegion (s : State) (a len : Nat) : Bool :=
  len = 0 ||
  match s.region a, s.region (a + len - 1) with
  | .dram _, .dram _ | .hostL2 _, .hostL2 _ | .early _, .early _ | .grove _ _, .grove _ _ | .pcie _, .pcie _ => true
  | .localMem b r _, .localMem c q _ => b = c && r = q
  | .queueWindow _, .queueWindow _ | .hostWindow _, .hostWindow _ => true
  | _, _ => false

/-- Whether a requester reaches an address of a row at all (R29): the slot of this part's own member in the grove window is reached by
descriptors and haulers alone, as that window is; the boot foreman reads the early window too (R461). The grove and PCIe rows are not
reached here but by transactions. -/
def reachesRow (who : MemRequester) (a : Nat) : Region → Bool
  | .dram _ =>
    match who with
    | .job _ => true
    | _ => a < 2 ^ 37
  | .early _ =>
    match who with
    | .job _ | .media _ | .host | .loader _ => true
    | _ => false
  | .localMem _ _ _ =>
    match who with
    | .job _ => true
    | _ => false
  | .hostL2 _ => who = .host
  | _ => false

/-- A read by an engine or a host of on-chip memory or DRAM (R29, R34, R366). -/
def State.readMem (s : State) (who : MemRequester) (a len : Nat) : Except MemFail (List Byte) × State :=
  if !s.sameRegion a len || !reachesRow who a (s.region a) then (.error .unmapped, s)
  else
    match s.region a with
    | .dram d => s.readDram who .read (pieces d len)
    | .early _ => if whoClaim who = 0 then (.ok (s.mem.readBytes a len), s) else (.error .access, s)
    | _ => (.ok (s.mem.readBytes a len), s)

/-- A write by an engine or a host; the host's locked part of its L2 in SRAM mode is not written (R454). -/
def State.writeMem (s : State) (who : MemRequester) (a : Nat) (bs : List Byte) : Option MemFail × State :=
  if !s.sameRegion a bs.length || !reachesRow who a (s.region a) then (some .unmapped, s)
  else
    let put : State := { s with mem := s.mem.writeBytes a bs }
    match s.region a with
    | .dram d => s.writeDram who (pieces d bs.length) bs
    | .early _ => if whoClaim who = 0 then (none, put) else (some .access, s)
    | .hostL2 o => if s.boot.l2Locks.any fun l => o < l.2 && l.1 < o + bs.length then (some .access, s) else (none, put)
    | _ => (none, put)

/-- A whole segment is cleared: zero with valid check bits in every burst (R345, R481). -/
def State.zeroSegment (s : State) (n : Nat) : State :=
  let b := n / 16384
  let s := { s with mem := s.mem.clear (n * 2 ^ 21) ((n + 1) * 2 ^ 21) }
  (List.range 4).foldl (fun t i =>
    t.updSeam (Fin.ofNat 16 (4 * b + i)) fun q =>
      let inSeg := fun g => addrOfBurst (Fin.ofNat 16 (4 * b + i)) g / 2 ^ 21 = n
      { q with cleared := if q.cleared.contains n then q.cleared else q.cleared ++ [n],
               poisoned := q.poisoned.filter fun g => !inSeg g,
               rawRows := q.rawRows.filter fun k => !inSeg (k % 2 ^ 17 * 1024) }) s

end Sys2Proof.Machine
end

