-- ==== Sys2Proof/Machine/Boot.lean ====
section
/-! DEFINITION. Boot, foremen and firmware (R441 to R474): the boot flash, image verification, the boot chain, restarts,
updates, trials, the flash summary and the recovery loader. -/
namespace Sys2Proof.Machine
open Sys2Proof

/- The boot flash (R451, R452). -/

/-- A byte of flash: erased places read 0xFF. -/
def NonVolatile.flashByte (nv : NonVolatile) (a : Nat) : Byte := SMap.get 0xFF nv.flash a

/-- n bytes of flash. -/
def NonVolatile.flashRead (nv : NonVolatile) (a n : Nat) : List Byte := (List.range n).map fun i => nv.flashByte (a + i)

/-- Erase a range. -/
def NonVolatile.flashErase (nv : NonVolatile) (a n : Nat) : NonVolatile :=
  { nv with flash := nv.flash.filter fun c => c.1 < a || a + n ≤ c.1 }

/-- Program bytes. -/
def NonVolatile.flashProgram (nv : NonVolatile) (a : Nat) : List Byte → NonVolatile
  | [] => nv
  | b :: bs => NonVolatile.flashProgram { nv with flash := SMap.set 0xFF nv.flash a b } (a + 1) bs

/-- Where the slot of image type t, from 1 to 8, begins, and its size (R451). -/
def slotBase (t : Nat) (slot : Bool) : Nat :=
  let s := if slot then 1 else 0
  if t ≤ 6 then 0x80000 + (2 * (t - 1) + s) * 0x200000
  else if t = 7 then 0x2000000 + s * 0x400000
  else 0x4000000 + s * 0x2000000

def slotSize (t : Nat) : Nat := if t ≤ 6 then 0x200000 else if t = 7 then 0x400000 else 0x2000000

/-- A boot-table copy is valid: MAGIC and CRC hold (R452). -/
def NonVolatile.copyValid (nv : NonVolatile) (base : Nat) : Bool :=
  let h := nv.flashRead base 128
  leAt h 0 4 = 0x4C425454 && leAt h 8 4 = (crc32c (h.take 8 ++ h.drop 64)).toNat

def NonVolatile.copySeq (nv : NonVolatile) (base : Nat) : BitVec 32 := BitVec.ofNat 32 (leNat (nv.flashRead (base + 4) 4))

/-- The copy in force: the valid one with the higher SEQ, compared modulo 2^32; none where neither is valid. -/
def NonVolatile.copyInForce (nv : NonVolatile) : Option Nat :=
  match nv.copyValid 0, nv.copyValid 0x10000 with
  | true, true => if (nv.copySeq 0x10000 - nv.copySeq 0).toInt > 0 then some 0x10000 else some 0
  | true, false => some 0
  | false, true => some 0x10000
  | false, false => none

/-- The entry of type t; slot A with no trial where no copy is valid (R452). -/
def NonVolatile.entry (nv : NonVolatile) (t : Nat) : BootEntry :=
  match nv.copyInForce with
  | none => {}
  | some b =>
    let v := (nv.flashByte (b + 64 + 8 * (t - 1))).toNat
    ⟨v.testBit 2, v.testBit 1, v.testBit 0⟩

def BootEntry.bits (e : BootEntry) : Nat := bitN e.tried 2 + bitN e.trial 1 + bitN e.active 0

/-- A change of the entry of type t is written to the other copy with SEQ + 1 (R452). -/
def NonVolatile.setEntry (nv : NonVolatile) (t : Nat) (e : BootEntry) : NonVolatile :=
  if nv.entry t = e then nv
  else
    let es := (List.range 8).flatMap fun i => leBytes 8 (if i + 1 = t then e.bits else (nv.entry (i + 1)).bits)
    let (dst, sq) :=
      match nv.copyInForce with
      | none => (0, 1)
      | some b => (0x10000 - b, (nv.copySeq b + 1).toNat)
    let head := leBytes 4 0x4C425454 ++ leBytes 4 sq
    let crc := leBytes 4 (crc32c (head ++ es)).toNat
    (nv.flashErase dst 0x10000).flashProgram dst (head ++ crc ++ List.replicate 52 0 ++ es)

/- Images (R442 to R450). -/

/-- The header fields of an image. -/
structure ImageHeader where
  magic : Nat
  hdrVersion : Nat
  imageType : Nat
  secVersion : Nat
  keyIndex : Nat
  revoke : Nat
  sections : Nat
  arch : Nat
  fwVersion : Nat
  size : Nat
  entry : Nat
  deriving DecidableEq, Repr

/-- The header in the first 64 bytes (R443). -/
def parseHeader (h : List Byte) : ImageHeader :=
  let n := leNat (slice h 0 32)
  ⟨nbits n 31 0, nbits n 39 32, nbits n 47 40, nbits n 55 48, nbits n 59 56, nbits n 95 80, nbits n 127 120, nbits n 143 128,
    nbits n 175 144, nbits n 207 176, nbits n 239 208⟩

/-- Its reserved bits are zero. -/
def headerReservedOk (h : List Byte) : Bool :=
  let n := leNat (slice h 0 64)
  nbits n 79 60 = 0 && nbits n 119 96 = 0 && nbits n 511 240 = 0

/-- A section-table entry (R444). -/
structure Section where
  offset : Nat
  size : Nat
  load : Nat
  target : Nat
  reserved : Nat
  deriving DecidableEq, Repr

def parseSection (b : List Byte) : Section :=
  let n := leNat (slice b 0 16)
  ⟨nbits n 31 0, nbits n 63 32, nbits n 111 64, nbits n 119 112, nbits n 127 120⟩

/-- The sections of an image whose bytes are given. -/
def sectionsOf (img : List Byte) (n : Nat) : List Section :=
  (List.range n).map fun i => parseSection (slice img (64 + 16 * i) 16)

/-- The foreman an image type runs on (R441, R442). -/
def foremanOf (t : Nat) : Fin 5 := if t ≤ 2 then 0 else Fin.ofNat 5 (t - 2)

/-- Bytes of a foreman's partition (R441). -/
def partitionSize (f : Fin 5) : Nat := #v[0x20000, 0x20000, 0x10000, 0x18000, 0x18000][f]

/-- A section lies within its target, and the target is allowed for the type that the header gives; a reserved type allows no check, and
is refused as WRONG_TYPE (R442, R444, R447). -/
def sectionTargetOk (g : Grade) (t : Nat) (x : Section) : Bool :=
  x.load % 64 = 0 &&
  if t = 0 || 8 < t then true
  else if t ≤ 6 then x.target ≤ 1 && x.load + x.size ≤ partitionSize (foremanOf t)
  else if t = 7 then x.target = 2 && x.load + x.size ≤ 0x400000
  else x.target = 3 && x.load + x.size ≤ 2 ^ 37 && (segsOf x.load x.size).all fun n => !segAbsent g n

/-- The rules of R444. -/
def sectionsOk (g : Grade) (t : Nat) (h : ImageHeader) (xs : List Section) : Bool :=
  (xs.all fun x => x.reserved = 0 && 64 + 16 * h.sections ≤ x.offset && x.offset + x.size ≤ h.size && sectionTargetOk g t x) &&
  ((List.range xs.length).all fun i => (List.range i).all fun j =>
    match xs[i]?, xs[j]? with
    | some x, some y => x.offset + x.size ≤ y.offset || y.offset + y.size ≤ x.offset
    | _, _ => true) &&
  match xs with
  | [] => false
  | x :: _ =>
    if t = 0 || 8 < t then true
    else if t ≤ 6 then x.target = 0 && h.entry < x.size
    else if t = 7 then x.target = 2 && h.entry < x.size
    else h.entry = 0

/-- REVOKE_MASK under R449: a Maltum-signed image names only slots 0 to 11, an owner-signed one only 12 to 15, and none its own. -/
def revokeOk (h : ImageHeader) : Bool :=
  !h.revoke.testBit h.keyIndex &&
  if h.keyIndex < 12 then h.revoke / 2 ^ 12 = 0 else h.revoke % 2 ^ 12 = 0

/-- The digest of a key slot: in the boot ROM for 0 to 11, in fuses for 12 to 15 (R446). -/
def NonVolatile.keyDigest (nv : NonVolatile) (k : Nat) : Option (List Byte) :=
  if k < 12 then some (Config.romKeyDigest k) else nv.ownerDigest[Fin.ofNat 4 (k - 12)]

/-- Round up to a multiple. -/
def roundUp (n m : Nat) : Nat := (n + m - 1) / m * m

/-- The codes of R447 for an image of type t that its form and its fields give (1 to 4): 0 where none fails. `room` is the number of
bytes the image and its signature block may take. -/
def imageForm (g : Grade) (t room : Nat) (img : List Byte) : Nat :=
  let h := parseHeader img
  let sigAt := roundUp h.size 64
  let sig := slice img sigAt 3861
  if h.magic = 0xFFFFFFFF then 0x01
  else if h.magic ≠ 0x4D495454 || h.hdrVersion ≠ 1 || h.sections = 0 || 8 < h.sections || h.size < 64 + 16 * h.sections ||
      room < sigAt + 3861 || !headerReservedOk img || !sectionsOk g h.imageType h (sectionsOf img h.sections) || leAt sig 0 4 ≠ 1 ||
      beNat (slice sig 197 12) ≠ 2 * 2 ^ 64 + 8 * 2 ^ 32 + 4 || (slice sig 100 1) ≠ [0x04] || 64 < h.secVersion || !revokeOk h then 0x02
  else if h.arch ≠ 9 || h.imageType ≠ t then 0x03
  else if t ≤ 6 && 12 ≤ h.keyIndex then 0x04
  else 0

/-- The public keys of an image's signature block (R446). -/
def imageKeys (img : List Byte) : List Byte := slice (slice img (roundUp (parseHeader img).size 64) 3861) 100 157

/-- The codes of R447 for an image of type t, in their order, that need no signature: 0 where none fails. -/
def imageCode (g : Grade) (nv : NonVolatile) (t room : Nat) (img : List Byte) : Nat :=
  let h := parseHeader img
  if imageForm g t room img ≠ 0 then imageForm g t room img
  else if nv.keyDigest h.keyIndex ≠ some (sha384 (imageKeys img)) then 0x05
  else if nv.revoked.getLsbD h.keyIndex then 0x06
  else if h.secVersion < nv.secCounter[Fin.ofNat 8 (t - 1)] then 0x07
  else 0

/-- An image's two signatures (R446) over its digest: the public keys and the signatures stand in its signature block. -/
def signatureCode (img : List Byte) : Nat :=
  let size := (parseHeader img).size
  let sig := slice img (roundUp size 64) 3861
  let digest := sha384 (slice img 0 size)
  if !Config.ecdsaVerifies (slice sig 100 97) digest (slice sig 4 96) then 0x08
  else if !Config.hssVerifies (slice sig 197 60) digest (slice sig 257 3604) then 0x09
  else 0

/-- The code of R447 for an image of type t: the first failing check in the order of the codes. -/
def verifyImage (g : Grade) (nv : NonVolatile) (t room : Nat) (img : List Byte) : Nat :=
  if imageCode g nv t room img = 0 then signatureCode img else imageCode g nv t room img

/-- The image in a flash slot, as far as its size reaches. -/
def NonVolatile.slotImage (nv : NonVolatile) (t : Nat) (slot : Bool) : List Byte :=
  let b := slotBase t slot
  let h := parseHeader (nv.flashRead b 64)
  nv.flashRead b (min (slotSize t) (roundUp h.size 64 + 3861))

/-- Verify the image in a flash slot. -/
def State.verifySlot (s : State) (t : Nat) (slot : Bool) : Nat :=
  verifyImage s.grade s.nv t (slotSize t) (s.nv.slotImage t slot)

/-- DETAIL0 of a record that names an image (R474). -/
def imageDetail (t : Nat) (slot : Bool) (code : Nat) : BitVec 64 := BitVec.ofNat 64 (t + bitN slot 8 + code * 2 ^ 16)

/-- A record about an image; DETAIL1 where the code defines it, else free. -/
def State.logImage (s : State) (code sev f t : Nat) (slot : Bool) (c : Nat) (d1 : Option (BitVec 64) := none) : State :=
  let (w, s) := s.drawWord
  s.logRec code sev 6 f (imageDetail t slot c) (d1.getD w)

/-- The table entry of type t is changed. -/
def State.setEntry (s : State) (t : Nat) (e : BootEntry) : State := { s with nv := s.nv.setEntry t e }

/-- Change the boot state. -/
def State.updBoot (s : State) (f : Boot → Boot) : State := { s with boot := f s.boot }

def State.updForeman (s : State) (f : Fin 5) (g : Foreman → Foreman) : State :=
  s.updBoot fun b => { b with foremen := upd b.foremen f g }

/-- The slot of a start of type t is chosen and the table written where it changes; the load begins (R458). -/
def State.startLoad (s : State) (t : ImageSlot) (why : LoadWhy) : State :=
  let n := t.val + 1
  let e := s.nv.entry n
  let begin_ := fun (s : State) (slot trial : Bool) =>
    s.updBoot fun b => { b with loads := upd b.loads t fun _ => some { slot := slot, trial := trial, why := why },
                                trialEnds := upd b.trialEnds t fun _ => none,
                                foremen := if n ≤ 6 then upd b.foremen (foremanOf n) fun f => { f with state := .loading } else b.foremen }
  if e.trial && !e.tried then begin_ (s.setEntry n { e with tried := true }) (!e.active) true
  else if e.trial then
    let s := s.setEntry n { e with tried := false, trial := false }
    begin_ (s.logImage 0x7005 2 0 n (!e.active) 0) e.active false
  else begin_ s e.active false

/-- Sections are copied to their targets: a partition of foreman memory, host L2, or DRAM (R454 step 3). -/
def State.placeSections (s : State) (f : Fin 5) (img : List Byte) (xs : List Section) : State :=
  xs.foldl (fun s x =>
    let bs := slice img x.offset x.size
    if x.target ≤ 1 then
      let put := fun (m : SMap Byte) (i : Nat) => SMap.set 0 m (f.val * 0x20000 + x.load + i) (bs.getD i 0)
      s.updBoot fun b => { b with partitions := (List.range x.size).foldl put b.partitions }
    else if x.target = 2 then { s with mem := s.mem.writeBytes (0x4100000000 + x.load) bs }
    else s) s

/-- The measurement of an image (R456). -/
def State.measure (s : State) (img : List Byte) (trial slot : Bool) : State :=
  let h := parseHeader img
  let m : Measure := ⟨sha384 (slice img 0 h.size), BitVec.ofNat 32 h.fwVersion, BitVec.ofNat 8 h.secVersion,
    BitVec.ofNat 4 h.keyIndex, trial, slot, BitVec.ofNat 8 h.imageType, s.now⟩
  s.updBoot fun b => { b with measures := b.measures ++ [m] }

/-- The bytes of a measurement entry (R456). -/
def Measure.bytes (m : Measure) : List Byte :=
  let w1 := m.imageType.toNat + bitN m.slot 8 + bitN m.trial 9 + m.keyIndex.toNat * 2 ^ 12 + m.secVersion.toNat * 2 ^ 16 +
    m.fwVersion.toNat * 2 ^ 32
  leBytes 8 m.time.toNat ++ leBytes 8 w1 ++ slice m.digest 0 48

/-- The boot foreman enters the recovery loader, and the crown RECOVERY (R460, R466). -/
def State.enterRecovery (s : State) (t code : Nat) : State :=
  let s := s.updBoot fun b => { b with recovery := { causeType := BitVec.ofNat 8 t, causeCode := BitVec.ofNat 8 code } }
  (s.logImage 0x700B 4 0 t false code).setCrown .recovery

/-- A foreman stays stopped and the crown enters HALTED (R465). -/
def State.foremanFatal (s : State) (f : Fin 5) (t : Nat) (slot : Bool) (code : Nat) : State :=
  let s := s.updForeman f fun x => { x with state := .fatal }
  (s.logImage 0x700A 5 f.val t slot code).halt

/-- What the hardware does when the power foreman stops: a setpoint above 0.85 V is replaced by 0.85 V (R509). -/
def State.powerForemanStops (s : State) : State :=
  { s with power := { s.power with coreNow := min s.power.coreNow 850, stepTo := none } }

/-- The power foreman starts: it rebuilds the wear count from the fuses, sets the bucket to 0 J with `empty` true, and resumes
from the setpoint in force (R509, R511). -/
def State.powerForemanStarts (s : State) : State :=
  let n := s.nv.wearSteps
  let p := { s.power with wearTicks := 250 * 3600 * 1000000000 * n, bucket := 0, bucketEmpty := true }
  if 16 ≤ n && !p.wearSpent then
    ({ s with power := { p with wearSpent := true } }.logOpen 0x5007 7 12).alert aPower
  else { s with power := p }

/-- The seam foreman starts: it takes the decisions that waited for it (R347, R464). -/
def State.seamForemanStarts (s : State) : State :=
  (List.finRange 16).foldl (fun s sm =>
    let c := s.seams[sm].condemned
    c.foldl (fun s x => s.recordRepair sm x) (s.updSeam sm fun q => { q with condemned := [] })) s

/-- What the start of a foreman brings beside the running of its image. -/
def State.foremanStarts (s : State) (f : Fin 5) : State :=
  if f = 1 then s.seamForemanStarts
  else if f = 2 then s.powerForemanStarts
  else if f = 4 then s.logFlush
  else s

/-- A nonzero journal epoch is drawn from the DRBG at a crown start (R404). -/
def State.drawEpoch (s : State) : State :=
  let (w, s) := s.drawWord
  { s with hub := { s.hub with epoch := if w = 0 then 1 else w } }

/-- A group of seams comes up at a crown start: DRAM_EN rises and the seams train in full (R346, R562). -/
def State.groupPowerUp (s : State) (b : BoughId) : State :=
  if s.groups[b].enHold then s
  else
    let s := { s with groups := upd s.groups b fun g => { g with enable := true } }
    (List.range 4).foldl (fun s i => s.updSeam (Fin.ofNat 16 (4 * b.val + i)) fun q =>
      { q with state := .training, tries := 0, trainFull := true }) s

/-- The crown enters BRINGUP with every foreman running: the seams begin to train, each bough waits for its own (R39, R453). -/
def State.enterBringup (s : State) : State :=
  let s := s.setCrown .bringup
  let s := (List.finRange 4).foldl (fun s b => s.groupPowerUp b) s
  { s with boughs := s.boughs.map fun b => { b with state := .training } }

/-- An image runs: its sections are placed and locked, its measurement kept, and the next image's load begins (R453, R454). BOOT_FW does
not start after a trap where STAGE1 took the last entry of the measurement log (R465). -/
def State.imageStarts (s : State) (t : ImageSlot) (l : ImageLoad) (img : List Byte) : State :=
  let n := t.val + 1
  let f := foremanOf n
  let h := parseHeader img
  let xs := sectionsOf img h.sections
  let s := if n ≤ 6 then
      s.updBoot fun b => { b with partitions := b.partitions.filter fun c => c.1 / 0x20000 ≠ f.val } else s
  let s := s.placeSections f img xs
  let s := s.measure img l.trial l.slot
  let range := fun x : Section => (x.load, x.load + x.size)
  let s := s.updBoot fun b => { b with loads := upd b.loads t fun _ => none, loaded := upd b.loaded t fun _ => true }
  let s :=
    if n ≤ 6 then
      s.updForeman f fun x => { x with
        state := if n = 1 && l.why ≠ .crownStart then .loading else .running,
        slot := l.slot, trial := l.trial, version := BitVec.ofNat 32 h.fwVersion,
        code := (xs.filter fun x => x.target = 0).map range, data := (xs.filter fun x => x.target = 1).map range }
    else s.updBoot fun b => { b with l2Locks := xs.map range, l2Lock := true }
  let s := if l.trial then
      (s.logImage 0x7003 1 f.val n l.slot 0).updBoot fun b =>
        { b with trialEnds := upd b.trialEnds t fun _ => some (s.now + s.reg .trialTime * 1000000000) }
    else s
  let s := if l.fellBack then s.logImage 0x7002 2 f.val n l.slot 0 else s
  let s := if l.why ≠ .crownStart && n ≠ 1 then (s.logImage 0x7008 1 f.val n l.slot 0).bump .foremanRestarts f.val else s
  let s := if n ≤ 6 && n ≠ 1 then s.foremanStarts f else s
  if n = 1 then
    if l.why = .trap && 128 ≤ s.boot.measures.length then s.foremanFatal 0 2 l.slot 0
    else (if l.why = .crownStart then s.setCrown .early else s).startLoad 1 l.why
  else if l.why ≠ .crownStart then s
  else if n ≤ 5 then s.startLoad (Fin.ofNat 8 n) .crownStart
  else if n = 6 then (s.drawEpoch.enterBringup).startLoad 6 .crownStart
  else (s.reportReady rHostCores).updBoot fun b => { b with payloadWaits := true }

/-- Neither slot of a type verifies (R460). -/
def State.noImage (s : State) (t : ImageSlot) (l : ImageLoad) (code : Nat) : State :=
  let n := t.val + 1
  let s := s.updBoot fun b => { b with loads := upd b.loads t fun _ => none }
  if n ≤ 2 then s.enterRecovery n code
  else if n ≤ 6 then
    if l.why = .crownStart then s.enterRecovery n code else s.foremanFatal (foremanOf n) n l.slot code
  else (s.failService rHostCores).updBoot fun b => { b with payloadWaits := true }

/-- FOREMAN_IMAGE_LOAD (R454, R458, R460): the load in progress of a type ends. The copy verified is what runs; a failing slot
gives way to the other, and a trial slot that fails ends the trial. -/
def foremanImageLoad (t : ImageSlot) (readOk : Bool) (s : State) : State :=
  match s.boot.loads[t] with
  | none => s
  | some l =>
    let n := t.val + 1
    let img := s.nv.slotImage n l.slot
    let code := if readOk then s.verifySlot n l.slot else 0x0A
    if code = 0 then
      let e := s.nv.entry n
      let s := if l.fellBack && !l.trial && e.active ≠ l.slot && !e.trial then s.setEntry n { e with active := l.slot } else s
      s.imageStarts t l img
    else
      let s := if readOk then s else s.logImage 0x700C 3 0 n l.slot code
      let s := s.logImage 0x7001 3 (foremanOf n).val n l.slot code
      let s := if l.trial then (s.setEntry n { s.nv.entry n with trial := false, tried := false }).logImage 0x7005 2 0 n l.slot code else s
      if l.fellBack then s.noImage t l code
      else
        let next : ImageLoad := { slot := !l.slot, trial := false, why := l.why, fellBack := true }
        s.updBoot fun b => { b with loads := upd b.loads t fun _ => some next }

def execForemanImageLoad (t : ImageSlot) (readOk : Bool) (s : State) : Host.Outcome State Fault Refusal :=
  done s (foremanImageLoad t readOk s)

/-- Boughs that the sections of a payload touch. -/
def payloadBoughs (xs : List Section) : List BoughId :=
  (List.finRange 4).filter fun b => xs.any fun x => (segsOf x.load x.size).any fun n => n / 16384 = b.val

/-- The sections that a load of an image copies: none where the flash read fails or the header does not hold (R444, R447). -/
def copiedSections (img : List Byte) (code : Nat) : List Section :=
  if code = 0x01 || code = 0x02 || code = 0x0A then [] else sectionsOf img (min (parseHeader img).sections 8)

/-- The segments of sections. -/
def sectionSegs (xs : List Section) : List Nat := (xs.flatMap fun x => segsOf x.load x.size).eraseDups

/-- A payload that fails to verify leaves its segments zeroed and unlocked (R455). -/
def State.dropPayload (s : State) (slot : Bool) (code : Nat) (xs : List Section) : State :=
  ((sectionSegs xs).filter fun n => (s.seg n).claim = 0).foldl (fun s n => s.zeroSegment n) (s.logImage 0x7001 3 0 8 slot code)

/-- HOST_PAYLOAD_LOAD (R455): once every bough its sections touch is READY, the sections are copied into segments of claim 0,
the segments locked, and only then the image is verified; on failure the locks fall and the segments are zeroed. -/
def hostPayloadLoad (readOk : Bool) (s : State) : State :=
  if !s.boot.payloadWaits || !s.foremanRuns 0 then s
  else
    let e := s.nv.entry 8
    let trial := e.trial && !e.tried
    let slot := if trial then !e.active else e.active
    let other := !slot
    let code0 := if readOk then s.verifySlot 8 slot else 0x0A
    let code := if code0 = 0 then 0 else if readOk then s.verifySlot 8 other else 0x0A
    let use := if code0 = 0 then slot else other
    let img := s.nv.slotImage 8 use
    let xs0 := copiedSections (s.nv.slotImage 8 slot) code0
    let xs := copiedSections img code
    let ready := (payloadBoughs (xs0 ++ xs)).all fun b => s.boughs[b].state.up
    if !ready then s
    else
      let s := s.updBoot fun b => { b with payloadWaits := false }
      let s := if trial then s.setEntry 8 { e with tried := true }
        else if e.trial then (s.setEntry 8 { e with trial := false, tried := false }).logImage 0x7005 2 0 8 (!e.active) 0 else s
      let s := if code0 = 0 then s else s.dropPayload slot code0 xs0
      let s := if code0 ≠ 0 && trial then
          (s.setEntry 8 { s.nv.entry 8 with trial := false, tried := false }).logImage 0x7005 2 0 8 slot code0 else s
      let segs := sectionSegs xs
      if !(segs.all fun n => (s.seg n).claim = 0) then s
      else if code = 0 then
        let s := xs.foldl (fun s x => (s.writeMem (.loader 0) x.load (slice img x.offset x.size)).2) s
        let s := s.lockSegs segs
        let s := s.measure img (trial && use = slot) use
        let s := s.updBoot fun b => { b with payloadLocks := segs, loaded := upd b.loaded 7 fun _ => true }
        if use = slot then
          if trial then
            (s.logImage 0x7003 1 0 8 slot 0).updBoot fun b =>
              { b with trialEnds := upd b.trialEnds 7 fun _ => some (s.now + s.reg .trialTime * 1000000000) }
          else s
        else
          let s := s.logImage 0x7002 2 0 8 use 0
          if trial then s else s.setEntry 8 { s.nv.entry 8 with active := use }
      else s.dropPayload other code xs

def execHostPayloadLoad (readOk : Bool) (s : State) : Host.Outcome State Fault Refusal :=
  done s (hostPayloadLoad readOk s)

/-- The image types of a foreman's start: the boot foreman starts from ROM with STAGE1 (R463). -/
def firstImage (f : Fin 5) : ImageSlot := if f = 0 then 0 else Fin.ofNat 8 (f.val + 1)

/-- A foreman stops: hardware holds its settings (R464, R509). -/
def State.foremanStops (s : State) (f : Fin 5) : State :=
  let s := s.updForeman f fun x => { x with state := .stopped }
  if f = 2 then s.powerForemanStops else s

/-- FOREMAN_TRAP (R465): the foreman is restarted alone; a third trap within 10^10 ticks and a full measurement log are fatal. -/
def foremanTrap (f : ForemanId) (cause : Word) (s : State) : State :=
  let x := s.boot.foremen[f]
  if x.state ≠ .running then s
  else
    let t := (firstImage f).val + 1
    let recent := x.traps.filter fun u => (s.now - u).toNat < 10000000000
    let s := s.foremanStops f
    let s := s.updForeman f fun y => { y with traps := s.now :: recent }
    let s := s.logRec 0x7009 3 6 f.val (imageDetail t x.slot 0) cause
    if 2 ≤ recent.length || 128 ≤ s.boot.measures.length then s.foremanFatal f t x.slot 0
    else s.startLoad (firstImage f) .trap

def execForemanTrap (f : ForemanId) (cause : Word) (s : State) : Host.Outcome State Fault Refusal :=
  done s (foremanTrap f cause s)

/-- BUSY of foreman_status (R463). -/
def State.foremanBusy (s : State) (f : Nat) : Bool :=
  if f = 1 then s.seams.toList.any (fun q => q.state = .training) || s.groups.toList.any fun g => g.changing.isSome
  else if f = 3 then s.linkUnits.toList.any fun l => l.state = .training || l.state = .securing || l.retraining
  else if f = 2 then s.power.stepTo.isSome
  else false

/-- Codes by which a write to foreman_restart is refused beyond the dictionary's own checks (R456, R462, R463). -/
def restartCodes (v : Nat) (s : State) : List Nat :=
  codeIf (4 < v) 0xA300 ++ codeIf (s.confidentialOpen) 0xA202 ++ codeIf (120 ≤ s.boot.measures.length) 0xA400 ++
  codeIf (s.foremanBusy v || s.boot.updState = .busy || s.boot.foremen.toList.any (fun f => f.state = .loading) ||
    !s.foremanRuns 0) 0xA500

/-- foreman_restart takes effect: foreman v stops and starts again under R458 and R454 (R463). -/
def foremanRestartFx (v : Nat) (s : State) : State :=
  let f : Fin 5 := Fin.ofNat 5 v
  (s.foremanStops f).startLoad (firstImage f) .restart

/-- Codes of fw_update_start (R456, R462). -/
def updateCodes (v : Nat) (s : State) : List Nat :=
  let a := s.regN .fwUpdateAddr
  let n := s.regN .fwUpdateSize
  let inDram := a + n ≤ 2 ^ 37 && (segsOf a n).all fun k => !segAbsent s.grade k && (s.seg k).claim = 0
  codeIf (v = 0 || 8 < v || n = 0 || !(inDram || s.rangeEarly a n)) 0xA300 ++
  codeIf (1 ≤ v && v ≤ 8 && (s.nv.entry v).trial || 120 ≤ s.boot.measures.length) 0xA400 ++
  codeIf (s.boot.updState = .busy || s.boot.foremen.toList.any (fun f => f.state = .loading) || !s.foremanRuns 0) 0xA500 ++
  codeIf s.confidentialOpen 0xA202

/-- fw_update_start takes effect: the image's segments are locked and the update is BUSY (R461). -/
def updateFx (v : Nat) (s : State) : State :=
  let a := s.regN .fwUpdateAddr
  let segs := if a < 2 ^ 37 then segsOf a (s.regN .fwUpdateSize) else []
  (s.lockSegs segs).updBoot fun b => { b with updState := .busy, updType := BitVec.ofNat 8 v, updCode := 0, updLocks := segs }

/-- The update ends with a code; its locks fall. -/
def State.updateEnds (s : State) (code : Nat) : State :=
  (s.unlockSegs s.boot.updLocks).updBoot fun b =>
    { b with updState := if code = 0 then .done else .refused, updCode := BitVec.ofNat 8 code, updLocks := [] }

/-- FW_UPDATE_DONE (R461): the staged image is verified, the slot other than ACTIVE erased, programmed and verified again, and
TRIAL set with TRIED 0; a refused update leaves TRIAL clear and the active slot untouched. -/
def fwUpdateDone (flashOk : Bool) (s : State) : State :=
  if s.boot.updState ≠ .busy || !s.foremanRuns 0 then s
  else
    let t := s.boot.updType.toNat
    let n := s.regN .fwUpdateSize
    match s.readMem (.loader 0) (s.regN .fwUpdateAddr) n with
    | (.error _, s) => (s.logImage 0x7001 3 0 t false 0x0A).updateEnds 0x0A
    | (.ok img, s) =>
      let e := s.nv.entry t
      let slot := !e.active
      let code := verifyImage s.grade s.nv t n img
      if code ≠ 0 then (s.logImage 0x7001 3 0 t slot code).updateEnds code
      else if slotSize t < n then s.updateEnds 0x13
      else
        let s := { s with nv := s.nv.flashErase (slotBase t slot) (roundUp n 0x10000) }
        if !flashOk then (s.logImage 0x700C 3 0 t slot 0x14).updateEnds 0x14
        else
          let s := { s with nv := s.nv.flashProgram (slotBase t slot) img }
          let back := s.verifySlot t slot
          if back ≠ 0 then (s.logImage 0x7001 3 0 t slot back).updateEnds back
          else (s.setEntry t { e with trial := true, tried := false }).updateEnds 0

def execFwUpdateDone (flashOk : Bool) (s : State) : Host.Outcome State Fault Refusal :=
  done s (fwUpdateDone flashOk s)

/-- Codes of firmware_confirm (R464, R469). -/
def confirmCodes (v : Nat) (s : State) : List Nat := codeIf (v = 0 || 8 < v) 0xA300 ++ codeIf (!s.foremanRuns 0) 0xA500

/-- The counter of type t rises to a security version (R450). -/
def State.advanceCounter (s : State) (t sec : Nat) (slot : Bool) : State :=
  let i : Fin 8 := Fin.ofNat 8 (t - 1)
  if sec ≤ s.nv.secCounter[i] then s
  else
    let s := { s with nv := { s.nv with secCounter := upd s.nv.secCounter i fun _ => sec } }
    s.logImage 0x7006 1 0 t slot 0 (some (BitVec.ofNat 64 sec))

/-- The slots that REVOKE_MASK names are revoked (R449). -/
def State.revokeKeys (s : State) (t mask : Nat) (slot : Bool) : State :=
  (bitList 16 mask).foldl (fun s k =>
    if s.nv.revoked.getLsbD k then s
    else ({ s with nv := { s.nv with revoked := setBit s.nv.revoked k true } }).logImage 0x7007 1 0 t slot 0
      (some (BitVec.ofNat 64 k))) s

/-- firmware_confirm takes effect (R459, R449, R450): the trial slot becomes ACTIVE and the timer stops; with no trial open the
counter rule alone applies. -/
def confirmFx (v : Nat) (s : State) : State :=
  let t : ImageSlot := Fin.ofNat 8 (v - 1)
  let e := s.nv.entry v
  let isOpen := e.trial && e.tried && s.boot.trialEnds[t].isSome
  let slot := if isOpen then !e.active else e.active
  let h := parseHeader (s.nv.flashRead (slotBase v slot) 64)
  if isOpen then
    let s := s.setEntry v { active := slot, trial := false, tried := false }
    let s := s.updBoot fun b => { b with trialEnds := upd b.trialEnds t fun _ => none }
    let s := if v ≤ 6 then s.updForeman (foremanOf v) fun f => { f with trial := false } else s
    let s := s.logImage 0x7004 1 0 v slot 0
    (s.advanceCounter v h.secVersion slot).revokeKeys v h.revoke slot
  else if h.magic = 0x4D495454 then s.advanceCounter v h.secVersion slot else s

/-- TRIAL_EXPIRY (R459): TRIAL and TRIED clear; the trial image keeps running. -/
def trialExpiry (t : ImageSlot) (s : State) : State :=
  match s.boot.trialEnds[t] with
  | none => s
  | some d =>
    let n := t.val + 1
    let e := s.nv.entry n
    if s.now.toNat < d.toNat then s
    else
      let s := s.setEntry n { e with trial := false, tried := false }
      let s := s.updBoot fun b => { b with trialEnds := upd b.trialEnds t fun _ => none }
      s.logImage 0x7005 2 0 n (!e.active) 0

def execTrialExpiry (t : ImageSlot) (s : State) : Host.Outcome State Fault Refusal := done s (trialExpiry t s)

/-- host_l2_lock is released: the HOST_L2 sections may be written (R454, R469). -/
def l2UnlockFx (s : State) : State := s.updBoot fun b => { b with l2Locks := [], l2Lock := false }

/-- FLASH_LOG_COPY (R472): the oldest record that waits goes to the summary; a half is erased as filling enters it. -/
def flashLogCopy (s : State) : State :=
  match s.log.toFlash with
  | [] => s
  | r :: rest =>
    if !s.foremanRuns 0 then s
    else
      let i := s.nv.flashNext % 4096
      let nv := if i % 2048 = 0 then s.nv.flashErase (0x20000 + i * 32) 0x10000 else s.nv
      let nv := nv.flashProgram (0x20000 + i * 32) r.bytes
      { s with nv := { nv with flashNext := (i + 1) % 4096 }, log := { s.log with toFlash := rest } }

def execFlashLogCopy (s : State) : Host.Outcome State Fault Refusal := done s (flashLogCopy s)

/-- flash_log_erase takes effect: both halves are erased (R472). -/
def flashEraseFx (s : State) : State := { s with nv := { s.nv.flashErase 0x20000 0x20000 with flashNext := 0 } }

/- PORST_N (R560, R561). -/

/-- A recognised fall: everything but fuses, flash, the timebase and the free values is as at reset; every DRAM_EN is low and,
where it was high, held so (R562). -/
def State.crownReset (s : State) : State :=
  { State.reset with pending := s.pending, free := s.free, grade := s.grade, now := s.now, nv := s.nv,
                     groups := s.groups.map fun g => { enHold := g.enable || g.enHold, enFell := if g.enable then s.now else g.enFell } }

/-- PORST_N_FALL (R561): a pulse of 10 µs or more is recognised; a shorter one is recognised whole or ignored, and which is open. -/
def porstNFall (widthNs : Nat) (s : State) : State :=
  if 10000 ≤ widthNs then s.crownReset
  else
    let (c, s) := s.drawChoice
    if c then s.crownReset else s

def execPorstNFall (widthNs : Nat) (s : State) : Host.Outcome State Fault Refusal := done s (porstNFall widthNs s)

/-- The ROM starts the crown: the BOOT record, the reserved strap's failure, and the load of STAGE1 (R453, R474, R539). -/
def State.romStart (s : State) : State :=
  let (w, s) := s.drawWord
  let s := s.logRec 0x7000 0 0 0 Config.bootRomVersion w
  let s := if s.pcie.strap = 3 then s.failService rPcie else s
  s.startLoad 0 .crownStart

/-- PORST_N_RISE (R560): the straps are sampled and the ROM runs; with TEST_EN high the part stays in POWER_ON. -/
def porstNRise (pcieMode : Fin 4) (testEn : Bool) (s : State) : State :=
  if !s.porstLow then s
  else
    let s := { s with porstLow := false, testEn := testEn, pcie := { s.pcie with strap := pcieMode.val } }
    if testEn then s else s.romStart

def execPorstNRise (pcieMode : Fin 4) (testEn : Bool) (s : State) : Host.Outcome State Fault Refusal :=
  done s (porstNRise pcieMode testEn s)

/- The recovery loader (R466 to R468). -/

/-- A packet or response of the loader (R467). -/
def recoveryFrame (command seq : Byte) (payload : List Byte) : List Byte :=
  let body := command :: seq :: 0 :: leBytes 4 payload.length ++ payload
  0xA5 :: body ++ leBytes 4 (crc32c body).toNat

/-- A packet's CRC holds, and its form is that of R467. -/
def packetCrcOk (p : RecoveryPacket) (command : Byte) : Bool :=
  p.crc = crc32c (command :: p.seq :: p.zero :: leBytes 4 p.payload.length ++ p.payload)

/-- Answer a packet with a status and data; the response is stored for a repeat. -/
def State.recoveryAnswer (s : State) (command seq : Byte) (status : Nat) (data : List Byte) : State :=
  let f := recoveryFrame (command + 0x80) seq (BitVec.ofNat 8 status :: data)
  s.updBoot fun b => { b with recovery := { b.recovery with last := some (seq, f), response := f } }

/-- Take a packet: a bad CRC is answered BAD_CRC and nothing more; a repeated SEQ receives the stored response; a SEQ out of
order is answered BAD_SEQ; else the command runs (R467, R468). -/
def State.recoveryTake (s : State) (command : Byte) (p : RecoveryPacket) (run : State → State) : State :=
  if s.crown ≠ .recovery then s
  else if !packetCrcOk p command then
    s.updBoot fun b => { b with recovery := { b.recovery with response := recoveryFrame (command + 0x80) p.seq [0x10] } }
  else
    match s.boot.recovery.last with
    | some (q, f) =>
      if q = p.seq then s.updBoot fun b => { b with recovery := { b.recovery with response := f } }
      else if command ≠ 0x01 && p.seq ≠ q + 1 then
        s.updBoot fun b => { b with recovery := { b.recovery with response := recoveryFrame (command + 0x80) p.seq [0x11] } }
      else run s
    | none =>
      if command = 0x01 then run s
      else s.updBoot fun b => { b with recovery := { b.recovery with response := recoveryFrame (command + 0x80) p.seq [0x12] } }

/-- RECOVERY_HELLO (R468): what caused RECOVERY, order_code and serial_number. -/
def execRecoveryHello (p : RecoveryPacket) (s : State) : Host.Outcome State Fault Refusal :=
  done s (s.recoveryTake 0x01 p fun s =>
    if p.payload ≠ [] then s.recoveryAnswer 0x01 p.seq 0x12 []
    else s.recoveryAnswer 0x01 p.seq 0 ([s.boot.recovery.causeType, s.boot.recovery.causeCode] ++ orderCode s.grade ++
      leBytes 8 Config.serialNumber.toNat))

/-- RECOVERY_BEGIN (R468): the slot is erased. -/
def execRecoveryBegin (p : RecoveryPacket) (s : State) : Host.Outcome State Fault Refusal :=
  done s (s.recoveryTake 0x02 p fun s =>
    let t := leAt p.payload 0 1
    let sl := leAt p.payload 1 1
    let n := leAt p.payload 2 4
    if p.payload.length ≠ 6 || t = 0 || 8 < t || 1 < sl then s.recoveryAnswer 0x02 p.seq 0x12 []
    else if slotSize t < n then s.recoveryAnswer 0x02 p.seq 0x13 []
    else
      let s := { s with nv := s.nv.flashErase (slotBase t (sl = 1)) (slotSize t) }
      let s := s.updBoot fun b => { b with recovery := { b.recovery with begun := some (t, sl = 1, n, 0) } }
      s.recoveryAnswer 0x02 p.seq 0 [])

/-- RECOVERY_DATA (R468): bytes are programmed at the bytes received so far. -/
def execRecoveryData (p : RecoveryPacket) (s : State) : Host.Outcome State Fault Refusal :=
  done s (s.recoveryTake 0x03 p fun s =>
    match s.boot.recovery.begun with
    | none => s.recoveryAnswer 0x03 p.seq 0x12 []
    | some (t, sl, n, got) =>
      let bs := p.payload.drop 4
      if p.payload.length < 4 then s.recoveryAnswer 0x03 p.seq 0x12 []
      else if leAt p.payload 0 4 ≠ got then s.recoveryAnswer 0x03 p.seq 0x11 []
      else if n < got + bs.length then s.recoveryAnswer 0x03 p.seq 0x13 []
      else
        let s := { s with nv := s.nv.flashProgram (slotBase t sl + got) bs }
        let s := s.updBoot fun b => { b with recovery := { b.recovery with begun := some (t, sl, n, got + bs.length) } }
        s.recoveryAnswer 0x03 p.seq 0 [])

/-- RECOVERY_FINISH (R468): the slot is read back and verified; on OK it becomes ACTIVE with no trial. -/
def execRecoveryFinish (p : RecoveryPacket) (s : State) : Host.Outcome State Fault Refusal :=
  done s (s.recoveryTake 0x04 p fun s =>
    match s.boot.recovery.begun with
    | none => s.recoveryAnswer 0x04 p.seq 0x12 []
    | some (t, sl, _, _) =>
      let code := s.verifySlot t sl
      let s := if code = 0 then s.setEntry t { active := sl, trial := false, tried := false }
        else s.logImage 0x7001 3 0 t sl code
      let s := s.updBoot fun b => { b with recovery := { b.recovery with begun := none } }
      s.recoveryAnswer 0x04 p.seq code [])

/-- Every type from 0x01 to 0x06 has a verifying slot (R468). -/
def State.allVerify (s : State) : Bool :=
  (List.range 6).all fun i => s.verifySlot (i + 1) false = 0 || s.verifySlot (i + 1) true = 0

/-- RECOVERY_REBOOT (R468): the crown starts from the ROM as at PORST_N, with the straps as sampled. -/
def execRecoveryReboot (p : RecoveryPacket) (s : State) : Host.Outcome State Fault Refusal :=
  done s (s.recoveryTake 0x05 p fun s =>
    if p.payload ≠ [] || !s.allVerify then s.recoveryAnswer 0x05 p.seq 0x12 []
    else
      let t := s.recoveryAnswer 0x05 p.seq 0 []
      let u := { t.crownReset with porstLow := false, testEn := t.testEn, pcie := { strap := t.pcie.strap } }
      (u.updBoot fun b => { b with recovery := { response := t.boot.recovery.response } }).romStart)

/-- RECOVERY_PACKET_GAP (R467): a packet cut by a gap of more than 1 ms is discarded. The loader keeps nothing of it, and a packet
reaches the model whole (log entry 51). -/
def execRecoveryPacketGap (s : State) : Host.Outcome State Fault Refusal := done s s

end Sys2Proof.Machine
end

