-- ==== Sys2Proof/Machine/Flags.lean ====
section
/-! DEFINITION. The numeric flags of a job (R58) and the values that carry them. -/
namespace Sys2Proof.Machine
open Sys2Proof

/-- Numeric flags (R58). -/
abbrev NumFlags := BitVec 8

def fNanToZero : NumFlags := 1
def fSaturated : NumFlags := 2
def fNanWritten : NumFlags := 4
def fEscIgnored : NumFlags := 8

/-- A flag where a condition holds. -/
def flagIf (c : Bool) (f : NumFlags) : NumFlags := if c then f else 0

/-- Flags set by several conversions are ORed (R58). -/
def orFlags (l : List NumFlags) : NumFlags := l.foldl (fun a b => a ||| b) 0

end Sys2Proof.Machine
end

