-- ==== Sys2Proof/Machine/Operands.lean ====
section
/-! DEFINITION. The number formats and their conversions (R42 to R58, R61, R62), the arithmetic of the vector unit and the drain,
and the packing of elements (R48 to R50, R66). -/
namespace Sys2Proof.Machine
open Sys2Proof

/-- A floating format (R43): mantissa bits, exponent bits, bias; `ieee` where the top exponent holds infinity and NaN, `nan7` where
only the top encoding is NaN. -/
structure FloatFmt where
  mb : Nat
  eb : Nat
  bias : Nat
  ieee : Bool
  nan7 : Bool
  deriving DecidableEq, Repr

def e2m1 : FloatFmt := ⟨1, 2, 1, false, false⟩
def e4m3 : FloatFmt := ⟨3, 4, 7, false, true⟩
def e5m2 : FloatFmt := ⟨2, 5, 15, true, false⟩
def fp16 : FloatFmt := ⟨10, 5, 15, true, false⟩
def bf16 : FloatFmt := ⟨7, 8, 127, true, false⟩
def fp32 : FloatFmt := ⟨23, 8, 127, true, false⟩

/-- The floating format of a code, if it is one (R42). -/
def floatOf (fmt : Nat) : Option FloatFmt :=
  if fmt = 0x4 then some e2m1 else if fmt = 0x7 then some e4m3 else if fmt = 0x8 then some e5m2
  else if fmt = 0xA then some fp16 else if fmt = 0xB then some bf16 else if fmt = 0xD then some fp32 else none

/-- Bits of an element (R42). -/
def fmtBits (fmt : Nat) : Nat := [2, 3, 4, 4, 4, 8, 8, 8, 8, 16, 16, 16, 32, 32].getD fmt 0

/-- Signed integer formats. -/
def fmtSigned (fmt : Nat) : Bool := fmt = 0x3 || fmt = 0x6 || fmt = 0x9 || fmt = 0xC

/-- Integer formats. -/
def fmtInt (fmt : Nat) : Bool := fmt < 0xE && (floatOf fmt).isNone

/-- Range of an integer format (R42). -/
def intMin (fmt : Nat) : Int := if fmtSigned fmt then -(2 ^ (fmtBits fmt - 1) : Nat) else 0
def intMax (fmt : Nat) : Int := if fmtSigned fmt then (2 ^ (fmtBits fmt - 1) : Nat) - 1 else (2 ^ fmtBits fmt : Nat) - 1

/-- The integer a code of w bits stands for in two's complement. -/
def sInt (w n : Nat) : Int := if n % 2 ^ w < 2 ^ (w - 1) then (n % 2 ^ w : Nat) else (n % 2 ^ w : Nat) - (2 ^ w : Nat)

/-- The w-bit code of an integer. -/
def codeOfInt (w : Nat) (v : Int) : Nat := (v % (2 ^ w : Nat)).toNat

/-- An integer as a number. -/
def valOfInt (v : Int) : Val := .fin (v < 0) v.natAbs 0

/-- Decode a floating encoding (R43 to R45). -/
def FloatFmt.decode (f : FloatFmt) (n : Nat) : Val :=
  let mant := n % 2 ^ f.mb
  let ex := n / 2 ^ f.mb % 2 ^ f.eb
  let neg := n / 2 ^ (f.mb + f.eb) % 2 = 1
  let top := ex = 2 ^ f.eb - 1
  if f.ieee && top then (if mant = 0 then .inf neg else .nan)
  else if f.nan7 && top && mant = 2 ^ f.mb - 1 then .nan
  else if ex = 0 then .fin neg mant (1 - (f.bias : Int) - f.mb)
  else .fin neg (2 ^ f.mb + mant) ((ex : Int) - f.bias - f.mb)

/-- The number an element's code stands for: codes of integer formats as integers (R42). -/
def decodeElem (fmt n : Nat) : Val :=
  match floatOf fmt with
  | some f => f.decode n
  | none => if fmtSigned fmt then valOfInt (sInt (fmtBits fmt) n) else valOfInt (n % 2 ^ fmtBits fmt : Nat)

/-- m / 2^s to nearest, ties to even (R51). -/
def rneShift (m s : Nat) : Nat :=
  let q := m / 2 ^ s
  let r := m % 2 ^ s
  if s = 0 then m
  else if r < 2 ^ (s - 1) then q
  else if 2 ^ (s - 1) < r then q + 1
  else q + q % 2

/-- A magnitude m × 2^e rounded to a format: exponent field and mantissa field, or none where the rounded value exceeds the
largest finite (R43, R46, R51, R52). -/
def FloatFmt.roundMag (f : FloatFmt) (m : Nat) (e : Int) : Option (Nat × Nat) :=
  if m = 0 then some (0, 0)
  else
    let emin : Int := 1 - (f.bias : Int) - f.mb
    let q : Int := max (e + (Nat.log2 m + 1 : Nat) - (f.mb + 1 : Nat)) emin
    let r := if q ≤ e then m * 2 ^ (e - q).toNat else rneShift m (q - e).toNat
    let (r, q) := if 2 ^ (f.mb + 1) ≤ r then (r / 2, q + 1) else (r, q)
    if r < 2 ^ f.mb then some (0, r)
    else
      let ex := (q - emin + 1).toNat
      let mant := r - 2 ^ f.mb
      let top := 2 ^ f.eb - 1
      if top < ex || (f.ieee && ex = top) || (f.nan7 && ex = top && mant = 2 ^ f.mb - 1) then none else some (ex, mant)

/-- The fields of the largest finite value. -/
def FloatFmt.largest (f : FloatFmt) : Nat × Nat :=
  if f.ieee then (2 ^ f.eb - 2, 2 ^ f.mb - 1)
  else if f.nan7 then (2 ^ f.eb - 1, 2 ^ f.mb - 2)
  else (2 ^ f.eb - 1, 2 ^ f.mb - 1)

/-- Sign, exponent and mantissa fields put together. -/
def FloatFmt.pack (f : FloatFmt) (neg : Bool) (em : Nat × Nat) : Nat :=
  bitN neg (f.mb + f.eb) + em.1 * 2 ^ f.mb + em.2

/-- The canonical NaN (R43). -/
def FloatFmt.canonNan (f : FloatFmt) : Nat :=
  if f.nan7 then f.pack false (2 ^ f.eb - 1, 2 ^ f.mb - 1) else f.pack false (2 ^ f.eb - 1, 2 ^ (f.mb - 1))

/-- A number as FP32 arithmetic results it: an overflow gives infinity, NaN is canonical (R56). -/
def f32 (v : Val) : BitVec 32 :=
  BitVec.ofNat 32 <|
    match v with
    | .nan => fp32.canonNan
    | .inf n => fp32.pack n (255, 0)
    | .fin n m e => fp32.pack n ((fp32.roundMag m e).getD (255, 0))

/-- The number an FP32 encoding stands for. -/
def fval (b : BitVec 32) : Val := fp32.decode b.toNat

/-- Integer nearest to a finite number, ties to even (R51). -/
def rneInt (neg : Bool) (m : Nat) (e : Int) : Int :=
  let n := if 0 ≤ e then m * 2 ^ e.toNat else rneShift m (-e).toNat
  if neg then -(n : Int) else n

/-- An integer clamped to a format's range, with SATURATED where it changes (R52). -/
def clampInt (fmt : Nat) (v : Int) : Int × NumFlags :=
  if v < intMin fmt then (intMin fmt, fSaturated)
  else if intMax fmt < v then (intMax fmt, fSaturated)
  else (v, 0)

/-- Conversion of a number to a format (R51 to R55): the code and the flags it sets. -/
def encodeElem (fmt : Nat) (v : Val) : Nat × NumFlags :=
  match floatOf fmt with
  | some f =>
    match v with
    | .nan => if f.ieee || f.nan7 then (f.canonNan, fNanWritten) else (0, fNanToZero)
    | .inf n => if f.ieee then (f.pack n (2 ^ f.eb - 1, 0), 0) else (f.pack n f.largest, fSaturated)
    | .fin n m e =>
      match f.roundMag m e with
      | some em => (f.pack n em, 0)
      | none => (f.pack n f.largest, fSaturated)
  | none =>
    match v with
    | .nan => (0, fNanToZero)
    | .inf n => (codeOfInt (fmtBits fmt) (if n then intMin fmt else intMax fmt), fSaturated)
    | .fin n m e =>
      let (c, g) := clampInt fmt (rneInt n m e)
      (codeOfInt (fmtBits fmt) c, g)

/-- NAN_WRITTEN where a code written to a floating output as it stands is a NaN (R58). -/
def nanFlag (fmt code : Nat) : NumFlags := flagIf ((floatOf fmt).isSome && decodeElem fmt code = .nan) fNanWritten

/- Arithmetic (R56): exact results, rounded once by `f32`. -/

/-- The sign turned. -/
def Val.neg : Val → Val
  | .nan => .nan
  | .inf n => .inf (!n)
  | .fin n m e => .fin (!n) m e

def Val.abs : Val → Val
  | .nan => .nan
  | .inf _ => .inf false
  | .fin _ m e => .fin false m e

/-- Exact sum; a zero sum of unlike signs is +0. -/
def Val.add : Val → Val → Val
  | .nan, _ => .nan
  | _, .nan => .nan
  | .inf a, .inf b => if a = b then .inf a else .nan
  | .inf a, _ => .inf a
  | _, .inf b => .inf b
  | .fin n1 m1 e1, .fin n2 m2 e2 =>
    if m1 = 0 && m2 = 0 then .fin (n1 && n2) 0 0
    else
      let e := min e1 e2
      let a : Int := (m1 * 2 ^ (e1 - e).toNat : Nat)
      let b : Int := (m2 * 2 ^ (e2 - e).toNat : Nat)
      let t := (if n1 then -a else a) + (if n2 then -b else b)
      .fin (t < 0) t.natAbs e

/-- Exact product. -/
def Val.mul : Val → Val → Val
  | .nan, _ => .nan
  | _, .nan => .nan
  | .inf a, .inf b => .inf (a != b)
  | .inf a, .fin n m _ => if m = 0 then .nan else .inf (a != n)
  | .fin n m _, .inf b => if m = 0 then .nan else .inf (n != b)
  | .fin n1 m1 e1, .fin n2 m2 e2 => .fin (n1 != n2) (m1 * m2) (e1 + e2)

/-- Quotient, with a sticky bit below the bits any format keeps. -/
def Val.div : Val → Val → Val
  | .nan, _ => .nan
  | _, .nan => .nan
  | .inf _, .inf _ => .nan
  | .inf a, .fin n _ _ => .inf (a != n)
  | .fin n _ _, .inf b => .fin (n != b) 0 0
  | .fin n1 m1 e1, .fin n2 m2 e2 =>
    if m2 = 0 then (if m1 = 0 then .nan else .inf (n1 != n2))
    else
      let s := 64 + Nat.log2 m2
      let x := m1 * 2 ^ s
      .fin (n1 != n2) (2 * (x / m2) + (if x % m2 = 0 then 0 else 1)) (e1 - e2 - s - 1)

/-- Integer square root, bit by bit from bit `fuel` down. -/
def isqrt : Nat → Nat → Nat → Nat
  | 0, _, r => r
  | fuel + 1, n, r =>
    let t := r + 2 ^ fuel
    isqrt fuel n (if t * t ≤ n then t else r)

/-- Square root, with a sticky bit. -/
def Val.sqrt : Val → Val
  | .nan => .nan
  | .inf n => if n then .nan else .inf false
  | .fin n m e =>
    if m = 0 then .fin n 0 0
    else if n then .nan
    else
      let (m, e) := if e % 2 = 0 then (m, e) else (2 * m, e - 1)
      let x := m * 2 ^ 64
      let r := isqrt (Nat.log2 x / 2 + 1) x 0
      .fin false (2 * r + (if r * r = x then 0 else 1)) (e / 2 - 33)

/-- Strictly below, for numbers that are no NaN; −0 equals +0. -/
def Val.lt : Val → Val → Bool
  | .nan, _ => false
  | _, .nan => false
  | .inf a, .inf b => a && !b
  | .inf a, .fin _ _ _ => a
  | .fin _ _ _, .inf b => !b
  | .fin n1 m1 e1, .fin n2 m2 e2 =>
    let e := min e1 e2
    let a : Int := (m1 * 2 ^ (e1 - e).toNat : Nat)
    let b : Int := (m2 * 2 ^ (e2 - e).toNat : Nat)
    decide ((if n1 then -a else a) < (if n2 then -b else b))

def Val.isNan : Val → Bool
  | .nan => true
  | _ => false

def Val.isZero : Val → Bool
  | .fin _ m _ => m = 0
  | _ => false

/-- FP32 operations, each rounded once (R56). -/
def fadd (a b : BitVec 32) : BitVec 32 := f32 ((fval a).add (fval b))
def fsub (a b : BitVec 32) : BitVec 32 := f32 ((fval a).add (fval b).neg)
def fmul (a b : BitVec 32) : BitVec 32 := f32 ((fval a).mul (fval b))
def fdiv (a b : BitVec 32) : BitVec 32 := f32 ((fval a).div (fval b))
def fsqrt (a : BitVec 32) : BitVec 32 := f32 (fval a).sqrt
def ffma (a b c : BitVec 32) : BitVec 32 := f32 (((fval a).mul (fval b)).add (fval c))

/-- min and max return the canonical NaN when any operand is NaN (R112). -/
def fmin (a b : BitVec 32) : BitVec 32 :=
  if (fval a).isNan || (fval b).isNan then f32 .nan else if (fval b).lt (fval a) then b else a
def fmax (a b : BitVec 32) : BitVec 32 :=
  if (fval a).isNan || (fval b).isNan then f32 .nan else if (fval a).lt (fval b) then b else a

def fzero : BitVec 32 := 0
def fone : BitVec 32 := 0x3F800000
def fofInt (v : Int) : BitVec 32 := f32 (valOfInt v)

/-- Add the terms of a sum in a free order (R57, R59): each combination takes two terms of its own choice and puts back their FP32
sum, so every order and every tree of additions is among those allowed. -/
def freeSum : Nat → Nat → List Val → Val
  | 0, _, l => l.headD (.fin false 0 0)
  | fuel + 1, n, l =>
    match l with
    | [] => .fin false 0 0
    | [x] => x
    | l =>
      let i := Config.sumKey n (2 * fuel) % l.length
      let a := l.getD i .nan
      let rest := l.eraseIdx i
      let j := Config.sumKey n (2 * fuel + 1) % rest.length
      let b := rest.getD j .nan
      freeSum fuel n (fval (f32 (a.add b)) :: rest.eraseIdx j)

/-- The FP32 sum of exact terms, the additions rounded, in the n-th free order (R59, R73, R83). -/
def sumVals (n : Nat) (l : List Val) : BitVec 32 := f32 (freeSum l.length n l)

/-- The sum of FP32 terms, in the n-th free order. -/
def sumTerms (n : Nat) (l : List (BitVec 32)) : BitVec 32 := sumVals n (l.map fval)

/- Quantisation (R61, R62). -/

/-- A zero point's byte, read as U8 or S8 by the code format; 0 for formats that carry none (R62). -/
def zeroPoint (fmt byte : Nat) : Int :=
  if fmt ≤ 0x2 || fmt = 0x5 then (byte % 256 : Nat)
  else if fmt = 0x3 || fmt = 0x6 then sInt 8 byte
  else 0

/-- The code that stands for 0.0 in a format with a zero point: the zero point, clamped to the code range (R61, R63). -/
def zeroCode (fmt : Nat) (z : Int) : Nat :=
  if fmtInt fmt then codeOfInt (fmtBits fmt) (clampInt fmt z).1 else 0

/-- Quantising an FP32 value (R61): code and flags. A floating target converts the quotient (R51 to R55). -/
def quantise (fmt : Nat) (x s : BitVec 32) (z : Int) : Nat × NumFlags :=
  let q := fdiv x s
  if fmtInt fmt then
    match fval q with
    | .nan =>
      let (c, g) := clampInt fmt z
      (codeOfInt (fmtBits fmt) c, g ||| fNanToZero)
    | .inf n => (codeOfInt (fmtBits fmt) (if n then intMin fmt else intMax fmt), fSaturated)
    | .fin n m e =>
      let (c, g) := clampInt fmt (rneInt n m e + z)
      (codeOfInt (fmtBits fmt) c, g)
  else encodeElem fmt (fval q)

/-- The value s × (q − z) of a code, in FP32 (R61). -/
def dequantise (fmt n : Nat) (s : BitVec 32) (z : Int) : BitVec 32 :=
  if fmtInt fmt then
    let q : Int := if fmtSigned fmt then sInt (fmtBits fmt) n else (n % 2 ^ fmtBits fmt : Nat)
    fmul s (fofInt (q - z))
  else fmul s (f32 (decodeElem fmt n))

/- Packing (R48 to R50). -/

/-- Bit offset of element i within its line; records of a scale tensor are 8 bytes (R66). -/
def elemBit (fmt layout i : Nat) : Nat :=
  if layout = 5 then 64 * i
  else if fmt = 0x1 then i / 32 * 96 + i % 32 * 3
  else i * fmtBits fmt

/-- Width of an element in bits. -/
def elemWidth (fmt layout : Nat) : Nat := if layout = 5 then 64 else fmtBits fmt

/-- Bytes of a line of n elements. -/
def lineBytes (fmt layout n : Nat) : Nat :=
  if layout = 5 then 8 * n
  else if fmt = 0x1 then (n + 31) / 32 * 12
  else (n * fmtBits fmt + 7) / 8

/-- Bits of a number read from bytes, from bit b of the first byte on. -/
def bitsOfBytes (bs : List Byte) (b w : Nat) : Nat := leNat bs / 2 ^ b % 2 ^ w

end Sys2Proof.Machine
end

