-- ==== Sys2Proof/Machine/Approx.lean ====
section
/-! DEFINITION. The elementary functions that R111 bounds by ulp: the exact value of each is computed to some hundreds of bits in
fixed point, and the result is a free FP32 value within the bound of it (R56, R111, R112, R294; log entry 8). -/
namespace Sys2Proof.Machine
open Sys2Proof

/- Fixed point: an integer i stands for i / 2^512. -/

def fxBits : Nat := 512
def fxOne : Int := (2 ^ fxBits : Nat)
def fxMul (a b : Int) : Int := a * b / fxOne
def fxDiv (a b : Int) : Int := a * fxOne / b

/-- A finite number in fixed point; 0 for any other. -/
def fxOf : Val → Int
  | .fin n m e =>
    let k := e + fxBits
    let i : Nat := if 0 ≤ k then m * 2 ^ k.toNat else m / 2 ^ (-k).toNat
    if n then -(i : Int) else i
  | _ => 0

/-- A fixed-point number times 2^e, with the sign of `neg` where it is zero. -/
def fxVal (neg : Bool) (i : Int) (e : Int) : Val := .fin (if i = 0 then neg else i < 0) i.natAbs (e - fxBits)

/-- Σ over k below n of z^k / (2 k + 1), with z the running factor (the sums of the inverse tangents). -/
def fxOddSeries (z : Int) : Nat → Nat → Int → Int → Int
  | 0, _, _, acc => acc
  | n + 1, k, p, acc => fxOddSeries z n (k + 1) (fxMul p z) (acc + p / (2 * k + 1 : Nat))

/-- Inverse hyperbolic tangent for |x| ≤ 1/3, and inverse tangent for |x| ≤ 1/5. -/
def fxAtanh (x : Int) : Int := fxOddSeries (fxMul x x) 200 0 x 0
def fxAtan (x : Int) : Int := fxOddSeries (-(fxMul x x)) 200 0 x 0

/-- ln 2 = 2 artanh (1/3), and π = 16 arctan (1/5) − 4 arctan (1/239). -/
def fxLn2 : Int := 2 * fxAtanh (fxOne / 3)
def fxPi : Int := 16 * fxAtan (fxOne / 5) - 4 * fxAtan (fxOne / 239)

/-- Square root of a number that is not negative. -/
def fxSqrt (x : Int) : Int := (isqrt (fxBits + 8) (x.toNat * 2 ^ fxBits) 0 : Nat)

/-- Σ over k of x^k / k! from the term `p` of number `k` on. -/
def fxExpSeries (x : Int) : Nat → Nat → Int → Int → Int
  | 0, _, _, acc => acc
  | n + 1, k, p, acc => fxExpSeries x n (k + 1) (fxMul p x / (k + 1 : Nat)) (acc + p)

/-- exp x as a number of fixed point and a power of two. -/
def fxExp (x : Int) : Int × Int :=
  let n := x / fxLn2
  (fxExpSeries (x - n * fxLn2) 120 0 fxOne 0, n)

/-- exp x in fixed point, for x not above 0; below −360 it is less than a unit of fixed point. -/
def fxExpNeg (x : Int) : Int :=
  if x < -(360 * fxOne) then 0
  else
    let (i, n) := fxExp x
    i / (2 ^ (-n).toNat : Nat)

/-- ln of a positive number m × 2^e. -/
def fxLn (m : Nat) (e : Int) : Int :=
  let l := Nat.log2 m
  let y : Int := fxOf (.fin false m (-(l : Int)))
  2 * fxAtanh (fxDiv (y - fxOne) (y + fxOne)) + (e + l) * fxLn2

/-- Σ of the sine or cosine series from the term `p` of degree `k` on. -/
def fxTrigSeries (x2 : Int) : Nat → Nat → Int → Int → Int
  | 0, _, _, acc => acc
  | n + 1, k, p, acc => fxTrigSeries x2 n (k + 2) (-(fxMul p x2) / ((k + 1) * (k + 2) : Nat)) (acc + p)

/-- Sine and cosine, the argument reduced by a whole number of turns. -/
def fxSin (x : Int) : Int :=
  let r := x - (x + fxPi) / (2 * fxPi) * (2 * fxPi)
  fxTrigSeries (fxMul r r) 90 1 r 0
def fxCos (x : Int) : Int :=
  let r := x - (x + fxPi) / (2 * fxPi) * (2 * fxPi)
  fxTrigSeries (fxMul r r) 90 0 fxOne 0

/-- 1 / (1 + exp (−x)). -/
def fxSigmoid (x : Int) : Int :=
  let u := fxExpNeg (-(x.natAbs : Int))
  if 0 ≤ x then fxDiv fxOne (fxOne + u) else fxDiv u (fxOne + u)

/-- Hyperbolic tangent. -/
def fxTanh (x : Int) : Int :=
  let u := fxExpNeg (-2 * (x.natAbs : Int))
  let t := fxDiv (fxOne - u) (fxOne + u)
  if 0 ≤ x then t else -t

/-- Σ of 2^n x^(2n+1) / (2n+1)!! from the term `p` of number `k` on. -/
def fxErfSeries (x2 : Int) : Nat → Nat → Int → Int → Int
  | 0, _, _, acc => acc
  | n + 1, k, p, acc => fxErfSeries x2 n (k + 1) (fxMul p (2 * x2) / (2 * k + 3 : Nat)) (acc + p)

/-- Error function; it stands at ±1 from |x| = 16 on, where it differs from them by less than 2^−370. -/
def fxErf (x : Int) : Int :=
  if 16 * fxOne ≤ (x.natAbs : Int) then (if 0 ≤ x then fxOne else -fxOne)
  else
    let x2 := fxMul x x
    2 * fxDiv (fxMul (fxExpNeg (-x2)) (fxErfSeries x2 1000 0 x 0)) (fxSqrt fxPi)

/-- A number's mantissa cut to 320 bits. -/
def Val.cut : Val → Val
  | .fin n m e =>
    let l := Nat.log2 m
    if 320 < l then .fin n (m / 2 ^ (l - 320)) (e + (l - 320 : Nat)) else .fin n m e
  | v => v

/-- x^t by squaring, from the lowest bit of t on. -/
def valPow : Nat → Nat → Val → Val → Val
  | 0, _, _, acc => acc
  | fuel + 1, t, x, acc => valPow fuel (t / 2) (x.mul x).cut (if t % 2 = 1 then (acc.mul x).cut else acc)

/-- The exact value of a function of R162 on a finite operand that is no special case, to within 2^−200 of its size; 0x20 stands for
the exponential of SOFTMAX and ATTENTION, 0x21 for the reciprocal square root of NORM. -/
def exactFn (f : Nat) (v : Val) : Val :=
  let one : Val := .fin false 1 0
  match v with
  | .fin n m e =>
    let x := fxOf v
    if f = 0x0A then one.div v
    else if f = 0x0B || f = 0x21 then one.div v.sqrt
    else if f = 0x0C || f = 0x20 then
      (if x < -(200 * fxOne) then .fin false 0 0 else let (i, k) := fxExp x; fxVal false i k)
    else if f = 0x0D then fxVal false (fxLn m e) 0
    else if f = 0x0E then
      (if x < -(300 * fxOne) then .fin false 0 0
       else let k := x / fxOne; fxVal false (fxExp (fxMul (x - k * fxOne) fxLn2)).1 (k + (fxExp (fxMul (x - k * fxOne) fxLn2)).2))
    else if f = 0x0F then fxVal false (fxDiv (fxLn m e) fxLn2) 0
    else if f = 0x10 then fxVal n (fxSin x) 0
    else if f = 0x11 then fxVal false (fxCos x) 0
    else if f = 0x12 then fxVal n (fxTanh x) 0
    else if f = 0x13 then fxVal false (fxSigmoid x) 0
    else if f = 0x14 then fxVal n (fxErf x) 0
    else if f = 0x15 then v.mul (fxVal false (fxSigmoid x) 0)
    else if f = 0x16 then
      (if 2 ^ 10 * fxOne ≤ (x.natAbs : Int) then v.mul (if n then .fin false 0 0 else one)
       else
        let y := x + fxDiv (44715 * fxMul x (fxMul x x)) (1000000 * fxOne)
        v.mul (fxVal false (fxSigmoid (2 * fxMul (fxSqrt (fxDiv (2 * fxOne) fxPi)) y)) 0))
    else if f = 0x17 then v.mul (fxVal false ((fxOne + fxErf (fxDiv x (fxSqrt (2 * fxOne)))) / 2) 0)
    else .nan
  | v => v

/-- The bound of R111 in ulp of FP32. -/
def ulpsOf (f : Nat) : Nat :=
  if f = 0x0A || f = 0x0B || f = 0x21 then 1
  else if f = 0x0C || f = 0x0D || f = 0x20 then 3
  else if f = 0x0E || f = 0x0F || f = 0x10 || f = 0x11 then 2
  else 4

/-- A finite candidate lies within k ulp of FP32 of a value. -/
def withinUlp (k : Nat) (ref cand : Val) : Bool :=
  match ref, cand with
  | .fin _ m e, .fin _ _ _ =>
    let ulp : Int := if m = 0 then -149 else max (-149) (e + (Nat.log2 m : Nat) - 23)
    let d := (cand.add ref.neg).abs
    !(Val.fin false k ulp).lt d
  | _, _ => false

/-- A result that R111 bounds: overflow gives infinity (R56); else the free candidate where it lies within k ulp of the exact value,
and the exact value rounded where it does not. -/
def bounded (k : Nat) (ref : Val) (cand : BitVec 32) : BitVec 32 :=
  let r := f32 ref
  match fval r with
  | .fin _ _ _ => if withinUlp k ref (fval cand) then cand else r
  | _ => r

/-- A function of R162 on a finite operand that is no special case. -/
def approxFn (f : Nat) (x : BitVec 32) : BitVec 32 := bounded (ulpsOf f) (exactFn f (fval x)) (Config.vuFn f x)

/-- 1 − β^t in FP32, within 2 ulp (R294); the candidate is the free function 0x1000 + t of β. -/
def optCorrection (beta : BitVec 32) (t : Nat) : BitVec 32 :=
  match fval beta with
  | .fin _ _ _ =>
    bounded 2 ((Val.fin false 1 0).add (valPow 33 t (fval beta) (.fin false 1 0)).neg) (Config.vuFn (0x1000 + t) beta)
  | v => f32 ((Val.fin false 1 0).add (if t % 2 = 0 then v.abs else v).neg)

end Sys2Proof.Machine
end

