-- ==== Sys2Proof/Machine/Descriptor.lean ====
section
/-! DEFINITION. The fields of descriptors, tensor-table entries and ring records (R127 to R169, R249), the addresses of elements,
and the order of tiles (R195 to R197). -/
namespace Sys2Proof.Machine
open Sys2Proof

/- Fields of a descriptor, its 128 bytes read as one number (R127 to R134). -/

def dOpcode (d : Nat) : Nat := nbits d 15 0
def dId (d : Nat) : Nat := nbits d 39 16
def dFmt (d n : Nat) : Nat := nbits d (43 + 4 * n) (40 + 4 * n)
def dGang (d : Nat) : Nat := nbits d 57 56
def dTemplate (d : Nat) : Bool := d.testBit 59
def dSignalEach (d : Nat) : Bool := d.testBit 60
def dPred (d n : Nat) : Nat := nbits d (128 + 24 * n + 23) (128 + 24 * n)
def dWaitThreshold (d : Nat) : Nat := nbits d 255 224
def dTarget (d : Nat) : Nat := nbits d 271 256
def dWorkCounter (d : Nat) : Nat := nbits d 279 272
def dWaitEn (d : Nat) : Bool := d.testBit 280
def dSignalEn (d : Nat) : Bool := d.testBit 281
def dWaitEc (d : Nat) : Nat := nbits d 299 288
def dSignalEc (d : Nat) : Nat := nbits d 315 304
def dSignalAdd (d : Nat) : Nat := nbits d 335 320
def dRing (d n : Nat) : Nat := nbits d (339 + 4 * n) (336 + 4 * n)
def dRepeat (d : Nat) : Nat := nbits d 399 384
def dRepeatArg (d : Nat) : Nat := nbits d 407 400
def dLstride (d n : Nat) : Int := sInt 32 (nbits d (447 + 32 * n) (416 + 32 * n))
def dT (d n : Nat) : Nat := nbits d (527 + 16 * n) (512 + 16 * n)
def dGridSlot (d : Nat) : Nat := nbits d 577 576
def dGridY (d : Nat) : Nat := nbits d 580 578
def dGridX (d : Nat) : Nat := nbits d 583 581
def dGridO (d : Nat) : Nat := nbits d 586 584
def dTileY (d : Nat) : Nat := nbits d 607 592
def dTileX (d : Nat) : Nat := nbits d 623 608
/-- A field of the parameter block, numbered from bit 0 of byte 80. -/
def dParam (d msb lsb : Nat) : Nat := nbits d (640 + msb) (640 + lsb)
def dParamF (d lsb : Nat) : BitVec 32 := BitVec.ofNat 32 (dParam d (lsb + 31) lsb)

/- TARGET (R132). -/
def tLevel (t : Nat) : Nat := nbits t 2 0
def tAny (t : Nat) : Bool := t.testBit 3
def tAnyCrown (t : Nat) : Bool := t.testBit 4
def tBough (t : Nat) : Nat := nbits t 6 5
def tBranch (t : Nat) : Nat := nbits t 9 7
def tLeaf (t : Nat) : Nat := nbits t 11 10

/- Opcodes (R156) and their classes (R136, R566). -/
def opNop : Nat := 0x0000
def opBarrier : Nat := 0x0001
def opEvent : Nat := 0x0002
def opIndirect : Nat := 0x0003
def opMatmul : Nat := 0x0100
def opMatmulTa : Nat := 0x0101
def opMatmulTb : Nat := 0x0102
def opConv : Nat := 0x0110
def opAttention : Nat := 0x0120
def opPool : Nat := 0x0200
def opEltwise : Nat := 0x0300
def opReduce : Nat := 0x0301
def opSoftmax : Nat := 0x0302
def opNorm : Nat := 0x0303
def opQuant : Nat := 0x0304
def opDequant : Nat := 0x0305
def opOptStep : Nat := 0x0306
def opS2d : Nat := 0x0400
def opD2s : Nat := 0x0401
def opGather : Nat := 0x0402
def opScatter : Nat := 0x0403
def opSort : Nat := 0x0500
def opTopk : Nat := 0x0501
def opNms : Nat := 0x0502
def opHaul : Nat := 0x0600
def opRotate : Nat := 0x0601

def isMatmul (o : Nat) : Bool := o = opMatmul || o = opMatmulTa || o = opMatmulTb
def isLeafOp (o : Nat) : Bool := isMatmul o || o = opConv || o = opAttention
def isVuOp (o : Nat) : Bool := o = opPool || (opEltwise ≤ o && o ≤ opOptStep)
def isHaulOp (o : Nat) : Bool := (opS2d ≤ o && o ≤ opScatter) || o = opHaul
def isSortOp (o : Nat) : Bool := opSort ≤ o && o ≤ opNms
def isDispatchOp (o : Nat) : Bool := o ≤ opIndirect
def hasGrid (o : Nat) : Bool := isLeafOp o || isVuOp o || isHaulOp o

/-- The parameters that MATMUL and CONV share (R158, R160). -/
structure LeafParams where
  sideT : Nat
  biasT : Nat
  scaleA : BitVec 32
  zpA : Nat
  zpW : Nat
  scaleW : Nat
  scaleOut : BitVec 32
  zpOut : Nat
  gsize : Nat
  act : Nat
  accOut : Bool
  clampLo : BitVec 32
  clampHi : BitVec 32
  deriving DecidableEq, Repr

def leafParams (d : Nat) : LeafParams :=
  if dOpcode d = opConv then
    ⟨dParam d 111 96, dParam d 127 112, dParamF d 128, dParam d 167 160, dParam d 175 168, dParam d 191 176, dParamF d 192,
      dParam d 231 224, dParam d 233 232, dParam d 235 234, false, 0, 0⟩
  else
    ⟨dParam d 15 0, dParam d 31 16, dParamF d 32, dParam d 71 64, dParam d 79 72, dParam d 95 80, dParamF d 96,
      dParam d 135 128, dParam d 137 136, dParam d 139 138, dParam d 140 140 = 1, dParamF d 144, dParamF d 176⟩

/-- The spatial group of CONV and POOL (R160), with the real kernel, stride and dilation. -/
structure Window where
  kh : Nat
  kw : Nat
  sy : Nat
  sx : Nat
  dy : Nat
  dx : Nat
  padT : Nat
  padB : Nat
  padL : Nat
  padR : Nat
  padMode : Nat
  padConst : Nat
  groups : Nat
  deriving DecidableEq, Repr

def windowOf (d : Nat) : Window :=
  ⟨dParam d 3 0 + 1, dParam d 7 4 + 1, dParam d 11 8 + 1, dParam d 15 12 + 1, dParam d 21 16 + 1, dParam d 27 22 + 1,
    dParam d 39 32, dParam d 47 40, dParam d 55 48, dParam d 63 56, dParam d 71 64, dParam d 79 72, dParam d 95 80⟩

/-- A matrix path CONV: kernel 1 × 1, stride 1, no padding, one group; its dilation is ignored (R225). -/
def Window.pointwise (w : Window) : Bool :=
  w.kh = 1 && w.kw = 1 && w.sy = 1 && w.sx = 1 && w.padT = 0 && w.padB = 0 && w.padL = 0 && w.padR = 0 && w.groups = 1

/-- Output size that a window defines for an input of valid size n along one dimension (R220). -/
def windowOut (n lo hi k dil str : Nat) : Nat :=
  let used := (k - 1) * dil + 1
  if n + lo + hi < used then 0 else (n + lo + hi - used) / str + 1

/-- What a tap resolves to along one dimension (R222): a code, or a position of the data. -/
inductive Tap where
  | zero
  | const
  | data (u : Nat)
  deriving DecidableEq, Repr

/-- The mirror fold of R222. -/
def foldMirror (u : Int) (n : Nat) : Nat :=
  if n ≤ 1 then 0
  else
    let p := 2 * (n - 1)
    let v := (u % (p : Int)).toNat
    if v < n then v else p - v

/-- One dimension of R222. -/
def resolveTap (u : Int) (n padLo padHi modeLo modeHi : Nat) : Tap :=
  if 0 ≤ u && u < n then .data u.toNat
  else
    let (depth, pad, mode) := if u < 0 then ((-u).toNat, padLo, modeLo) else ((u - n + 1).toNat, padHi, modeHi)
    if pad < depth || mode = 0 then .zero
    else if mode = 1 then .const
    else if mode = 3 then .data (if u < 0 then 0 else n - 1)
    else .data (foldMirror u n)

/-- A tap of the window (R222): rows first, columns second. -/
inductive TapAt where
  | zero
  | const
  | at (y x : Nat)
  deriving DecidableEq, Repr

def Window.tap (w : Window) (uy ux : Int) (ny nx : Nat) : TapAt :=
  if ny = 0 || nx = 0 then .zero
  else
    match resolveTap uy ny w.padT w.padB (w.padMode % 4) (w.padMode / 4 % 4) with
    | .zero => .zero
    | .const => .const
    | .data y =>
      match resolveTap ux nx w.padL w.padR (w.padMode / 16 % 4) (w.padMode / 64 % 4) with
      | .zero => .zero
      | .const => .const
      | .data x => .at y x

/- Tensor-table entries, 64 bytes as one number (R152). -/

def eBase (e : Nat) : Nat := nbits e 47 0
def eFormat (e : Nat) : Nat := nbits e 51 48
def eNdim (e : Nat) : Nat := nbits e 54 52
def eRel (e : Nat) : Bool := e.testBit 55
def eLayout (e : Nat) : Nat := nbits e 58 56
def eBufSize (e : Nat) : Nat := nbits e 103 64
def eDim (e n : Nat) : Nat := nbits e (159 + 32 * n) (128 + 32 * n)
def eStride (e n : Nat) : Nat := if n = 0 then 0 else nbits e (287 + 40 * n) (248 + 40 * n)
def eExt (e n : Nat) : Nat := nbits e (455 + 8 * n) (448 + 8 * n)

/-- Zero-compressed layouts (R153). -/
def isZc (layout : Nat) : Bool := layout = 3 || layout = 4
def isBlocked (layout : Nat) : Bool := 1 ≤ layout && layout ≤ 4

/-- The n-th size, stride and extent of a latched tensor; 1 beyond its dimensions. -/
def Tensor.dim (t : Tensor) (n : Nat) : Nat := t.dims.getD n 1
def Tensor.stride (t : Tensor) (n : Nat) : Nat := t.strides.getD n 0
def Tensor.extent (t : Tensor) (n : Nat) : Nat := t.ext.getD n 1

/-- A coordinate of five dimensions. -/
abbrev Coord := List Nat

def Coord.at (c : Coord) (n : Nat) : Nat := c.getD n 0

/-- A position is in extent (R208). -/
def Tensor.inExtent (t : Tensor) (c : Coord) : Bool := (List.range 5).all fun n => c.at n < t.extent n

/-- Place of an element among all of the tensor's, dimension 0 innermost. -/
def Tensor.linear (t : Tensor) (c : Coord) : Nat :=
  (List.range 5).foldr (fun n acc => c.at n + t.dim n * acc) 0

/-- The coordinate of a linear place. -/
def Tensor.coord (t : Tensor) (i : Nat) : Coord :=
  ((List.range 5).foldl (fun (p : List Nat × Nat) n => (p.1 ++ [p.2 % max 1 (t.dim n)], p.2 / max 1 (t.dim n))) ([], i)).1

/-- First byte of an element's line (R152). -/
def Tensor.lineAddr (t : Tensor) (c : Coord) : Nat :=
  t.base + (List.range 4).foldl (fun a n => a + c.at (n + 1) * t.stride (n + 1)) 0

/-- Bit address of an element. -/
def Tensor.bitAddr (t : Tensor) (c : Coord) : Nat := 8 * t.lineAddr c + elemBit t.fmt t.layout (c.at 0)

/-- Width of its elements. -/
def Tensor.width (t : Tensor) : Nat := elemWidth t.fmt t.layout

/-- The tensor with its base moved by a signed number of bytes (R146, R167). -/
def Tensor.shift (t : Tensor) (n : Int) : Tensor := { t with base := ((t.base : Int) + n).toNat }

/-- Every coordinate of a box given by its bounds per dimension, dimension 0 innermost. -/
def boxCoords : List (Nat × Nat) → List Coord
  | [] => [[]]
  | (lo, hi) :: rest => (boxCoords rest).flatMap fun c => (List.range (hi - lo)).map fun i => (lo + i) :: c

/- Tiles (R195 to R197). -/

/-- The curve of R197 on a square of side 2^n. -/
def hilbertLoop : Nat → Nat → Nat → Nat → Nat → Nat × Nat
  | 0, _, _, x, y => (x, y)
  | n + 1, q, d, x, y =>
    let rx := d / 2 % 2
    let ry := (d + rx) % 2
    let (x, y) :=
      if ry = 0 then
        let (x, y) := if rx = 1 then (q - 1 - x, q - 1 - y) else (x, y)
        (y, x)
      else (x, y)
    hilbertLoop n (2 * q) (d / 4) (x + q * rx) (y + q * ry)

/-- Smallest n with tx and ty at most 2^n. -/
def curveOrder (tx ty : Nat) : Nat := if max tx ty ≤ 1 then 0 else Nat.log2 (max tx ty - 1) + 1

/-- The point at distance d along the curve of order n. -/
def hilbertPoint (n d : Nat) : Nat × Nat := hilbertLoop n 1 d 0 0

/-- From curve distance d on, the p-th in-grid point: its distance and coordinates (R197). -/
def findPoint (order tx ty : Nat) : Nat → Nat → Nat → Option (Nat × Nat × Nat)
  | 0, _, _ => none
  | fuel + 1, d, p =>
    let (x, y) := hilbertPoint order d
    if x < tx && y < ty then
      if p = 0 then some (d, y, x) else findPoint order tx ty fuel (d + 1) (p - 1)
    else findPoint order tx ty fuel (d + 1) p

/-- Coordinates (o, y, x) of tile k, with its distance along the curve (R197). -/
def tileOf (k tx ty : Nat) : Option (Nat × Nat × Nat × Nat) :=
  let order := curveOrder tx ty
  let n := tx * ty
  if n = 0 then none
  else (findPoint order tx ty (2 ^ order * 2 ^ order) 0 (k % n)).map fun p => (k / n, p.2.1, p.2.2, p.1)

/-- Out-of-grid points of a plane (R197). -/
def planeGaps (tx ty : Nat) : Nat := let s := 2 ^ curveOrder tx ty; s * s - tx * ty

/-- Out-of-grid points of the curve passed between the tile before k and tile k: each plane is walked whole before the next begins
(R197, R214). -/
def pointsSkipped (k tx ty : Nat) : Nat :=
  let side := 2 ^ curveOrder tx ty
  match tileOf k tx ty, (if k = 0 then none else tileOf (k - 1) tx ty) with
  | none, _ => 0
  | some (_, _, _, d), none => d
  | some (o, _, _, d), some (o', _, _, d') => if o = o' then d - d' - 1 else (side * side - d' - 1) + d

/-- Out-of-grid points passed by a seek from the curve's start to tile k (R214; log entry 56). -/
def seekSkipped (k tx ty : Nat) : Nat :=
  match tileOf k tx ty with
  | some (o, _, _, d) => o * planeGaps tx ty + (d - k % (tx * ty))
  | none => 0

/- Ring records (R249), 16 bytes as one number. -/
def rHqueue (v : Nat) : Nat := nbits v 43 40
def rPoolQ (v : Nat) : Nat := nbits v 36 32
def rPoolEn (v : Nat) : Bool := v.testBit 29
def rDir (v : Nat) : Bool := v.testBit 28
def rSlots (v : Nat) : Nat := nbits v 27 24 + 1
def rSlotBlks (v : Nat) : Nat := nbits v 23 16
def rBaseBlk (v : Nat) : Nat := nbits v 10 0
def rReservedOk (v : Nat) : Bool :=
  nbits v 127 44 = 0 && nbits v 39 37 = 0 && nbits v 31 30 = 0 && nbits v 15 11 = 0

end Sys2Proof.Machine
end

