-- ==== Sys2Proof/Machine/Jobs.lean ====
section
/-! DEFINITION. Jobs as the work hub keeps them: the mutual-exclusion element (R386), failing and stopping (R144), event counters
and waits (R140 to R143), descriptors that become startable (R147, R148) and that complete (R24, R393). -/
namespace Sys2Proof.Machine
open Sys2Proof

/- Status codes (R385). -/
def stDone : Nat := 0x0000
def stDoneReplayed : Nat := 0x0001
def stCancelled : Nat := 0x0100
def stFenced : Nat := 0x0200
def stLostInput : Nat := 0x0201
def stPeer : Nat := 0x0202
def stAccess : Nat := 0x0300
def stData : Nat := 0x0301
def stUncorrectable : Nat := 0x0302
def stTimedOut : Nat := 0x0400
def stTimedOutUnstarted : Nat := 0x0401

/-- The status of a memory request that failed (R34, R351, R479, R343). -/
def MemFail.status : MemFail → Nat
  | .unmapped | .access => stAccess
  | .lost => stLostInput
  | .fenced => stFenced
  | .uncorrectable => stUncorrectable

/-- Change the work hub. -/
def State.updHub (s : State) (f : WorkHub → WorkHub) : State := { s with hub := f s.hub }

/-- Change bough b. -/
def State.updBough (s : State) (b : BoughId) (f : Bough → Bough) : State := { s with boughs := upd s.boughs b f }

/-- The unrecorded job of a queue with a sequence number. -/
def State.job? (s : State) (q : QueueId) (seq : BitVec 32) : Option Job :=
  s.hub.jobs.find? fun j => j.queue = q && j.seq = seq

/-- Change it. -/
def State.updJob (s : State) (q : QueueId) (seq : BitVec 32) (f : Job → Job) : State :=
  s.updHub fun h => { h with jobs := h.jobs.map fun j => if j.queue = q && j.seq = seq then f j else j }

/-- Change a running descriptor. -/
def State.updRun (s : State) (id : Nat) (f : Run → Run) : State :=
  s.updHub fun h => { h with runs := h.runs.map fun r => if r.id = id then f r else r }

def State.run? (s : State) (id : Nat) : Option Run := s.hub.runs.find? fun r => r.id = id

/-- The bundle of a handle. -/
def State.bundle? (s : State) (h : Fin 64) : Option Bundle := s.hub.bundles.find? fun b => b.handle = h

/-- The bucket a job runs in, and its entry. -/
def State.jobProg (s : State) (j : Job) : Option BucketProg := (s.bundle? j.handle).bind fun b => b.buckets[j.bucket]?
def State.jobEntry (s : State) (j : Job) : Option EntryRec := (s.jobProg j).bind fun p => p.entries[j.entry]?

/-- The bits of a job's descriptor. -/
def State.jobDesc (s : State) (j : Job) (id : Nat) : Nat := ((s.jobProg j).bind fun p => p.graph[id]?).getD 0

/-- A bough takes part in work of a job (R384). -/
def State.touch (s : State) (q : QueueId) (seq : BitVec 32) (b : BoughId) : State :=
  s.updJob q seq fun j => { j with touched := setBit j.touched b.val true }

/-- The bough whose port and slices a request for an address passes, if it is DRAM or local memory. -/
def State.boughOfAddr (s : State) (a : Nat) : Option BoughId :=
  match s.region a with
  | .dram d => some (boughOf d)
  | .localMem b _ _ => some b
  | _ => none

/-- A request of a job for an address touches its bough (R384). -/
def State.touchAddr (s : State) (q : QueueId) (seq : BitVec 32) (a : Nat) : State :=
  match s.boughOfAddr a with
  | some b => s.touch q seq b
  | none => s

/-- Numeric flags a descriptor of a job sets (R58), also by tiles that finish after the decision, for which the record waits
(R388); they are those of the run that decides the status (R387), so what is left of a run that a replay has ended sets none. -/
def State.addFlags (s : State) (r : Run) (g : NumFlags) : State :=
  s.updJob r.queue r.seq fun j => if r.stopped && j.decision.isNone then j else { j with flags := j.flags ||| g }

/-- A claimant that is a hauler queue. -/
def RunUnit.isQueue (u : RunUnit) : Bool :=
  match u.who with
  | .branchQueue _ _ _ | .boughQueue _ _ => true
  | _ => false

/-- A tile whose ring input has wholly arrived, or is read in place: a stopped tile without it is dropped (R256). A queue's tile
finishes, for its transfers are its work (R144). -/
def RunUnit.fed (u : RunUnit) : Bool :=
  u.isQueue || u.rings.all fun g => g.out || u.running.isNone ||
    ((g.cut.any fun k => u.running.getD 0 ≤ k) && g.chunks.all fun c => some c.tile ≠ u.running || (c.todo = [] && c.out = 0))

/-- A claimant of a stopped descriptor (R144, R206, R256): its reserved tile is dropped unstarted, and no input transfer of a ring is
issued; a tile whose input has not all come is dropped too. Later claims meet the sentinel. -/
def RunUnit.stop (u : RunUnit) : RunUnit :=
  { u with held := none,
           running := if u.fed then u.running else none,
           rings := u.rings.map fun g =>
             if g.out then g else { g with nextTile := none, chunks := (g.chunks.filter fun c => some c.tile = u.running && u.fed) } }

/-- Leaves drop the tile they fill where their claimant's tile has been dropped. -/
def Leaf.dropUnless (l : Leaf) (keep : Bool) : Leaf := if keep then l else { l with step := 0, owed := 0, fill := none }

/-- The leaves of a group (R91). -/
def groupLeaves (gang : Nat) (j : Nat) : List LeafPos :=
  if gang = 0 then [Fin.ofNat 4 j] else if gang = 1 then [Fin.ofNat 4 (2 * j), Fin.ofNat 4 (2 * j + 1)] else [0, 1, 2, 3]

/-- Change a leaf. -/
def State.updLeaf (s : State) (b : BoughId) (r : BranchPos) (l : LeafPos) (f : Leaf → Leaf) : State :=
  s.updBough b fun x => { x with branches := upd x.branches r fun y => { y with leaves := upd y.leaves l f } }

def State.leaf (s : State) (b : BoughId) (r : BranchPos) (l : LeafPos) : Leaf := (s.boughs[b].branches[r]).leaves[l]

/-- A running descriptor stops. -/
def State.stopRun (s : State) (r : Run) : State :=
  let s := s.updRun r.id fun x => { x with stopped := true, units := x.units.map RunUnit.stop, passes := x.passes }
  r.units.foldl (fun s u =>
    match u.who with
    | .leafGroup b p j =>
      (groupLeaves (dGang r.desc) j.val).foldl (fun s l => s.updLeaf b p l fun x => x.dropUnless u.stop.running.isSome) s
    | _ => s) s

/-- From a decision the job stops: no further descriptor starts, running ones finish their current tile (R386). -/
def State.stopJob (s : State) (q : QueueId) (seq : BitVec 32) : State :=
  let s := s.updHub fun h => { h with
    runs := h.runs.filter fun r => !(r.queue = q && r.seq = seq && dOpcode r.desc = opIndirect)
    jobs := h.jobs }
  (s.hub.runs.filter fun r => r.queue = q && r.seq = seq).foldl State.stopRun s

/-- An event passes the job's element (R386): the first decides, and stops the job. -/
def State.decide (s : State) (q : QueueId) (seq : BitVec 32) (status : Nat) (desc : Nat := 0xFFFFFF) (bough : Nat := 15) : State :=
  match s.job? q seq with
  | none => s
  | some j =>
    if j.decision.isSome then s
    else
      let d : Decision := ⟨status, s.now, desc, bough⟩
      (s.updJob q seq fun j => { j with decision := some d }).stopJob q seq

/-- A failure of the job's own work (R386): it decides, or is counted as late. -/
def State.failJob (s : State) (q : QueueId) (seq : BitVec 32) (status desc bough : Nat) : State :=
  match s.job? q seq with
  | none => s
  | some j => if j.decision.isSome then s.bump .lateArrivals else s.decide q seq status desc bough

/-- A running descriptor's failure in a bough; one of a run that a replay has ended is late (R386, R400). -/
def State.failRun (s : State) (r : Run) (status : Nat) (bough : Nat) : State :=
  match s.job? r.queue r.seq with
  | none => s
  | some j =>
    if r.stopped && j.decision.isNone && j.pendingReset = 0 then s.bump .lateArrivals
    else s.failJob r.queue r.seq status r.key.id bough

/- Event counters (R143, R141). -/

/-- The value reached a threshold (R140). -/
def reached (v t : BitVec 32) : Bool := (v - t).toNat < 2 ^ 31

def State.event (s : State) (b : BoughId) (c : Nat) : BitVec 32 := SMap.get 0 s.boughs[b].events c

/-- Whether a descriptor's event wait is met. -/
def State.waitOk (s : State) (d : Nat) : Bool :=
  !dWaitEn d || reached (s.event (Fin.ofNat 4 (dWaitEc d / 1024)) (dWaitEc d % 1024)) (BitVec.ofNat 32 (dWaitThreshold d))

/-- The dispatchers observe the counters as they stand: met waits are latched (R141). -/
def State.observe (s : State) : State :=
  s.updHub fun h => { h with jobs := h.jobs.map fun j =>
    { j with descs := j.descs.map fun x =>
        if x.phase = .waiting && s.waitOk (s.jobDesc j x.key.id) then { x with waitMet := true } else x } }

/-- A counter takes a value; every value is observed. -/
def State.setEvent (s : State) (b : BoughId) (c : Nat) (v : BitVec 32) : State :=
  (s.updBough b fun x => { x with events := SMap.set 0 x.events (c % 1024) v }).observe

/-- A counter takes an addition. -/
def State.addEvent (s : State) (b : BoughId) (c n : Nat) : State :=
  s.setEvent b c (s.event b (c % 1024) + BitVec.ofNat 32 n)

/-- The counter a field of 12 bits names, with an addition (R131). -/
def State.addEc (s : State) (ec n : Nat) : State := s.addEvent (Fin.ofNat 4 (ec / 1024)) (ec % 1024) n

/-- A descriptor signals once (R143). -/
def State.signal (s : State) (d : Nat) : State := if dSignalEn d then s.addEc (dSignalEc d) (dSignalAdd d) else s

/- Completion (R24, R393). -/

/-- Change a descriptor of a job. -/
def State.updDesc (s : State) (q : QueueId) (seq : BitVec 32) (k : DKey) (f : JDesc → JDesc) : State :=
  s.updJob q seq fun j => { j with descs := j.descs.map fun x => if x.key = k then f x else x }

/-- The completion of the entry's last descriptor reaches the element (R386); a reset-pending job no longer completes (R397). -/
def State.jobDone (s : State) (q : QueueId) (seq : BitVec 32) : State :=
  match s.job? q seq with
  | none => s
  | some j =>
    if j.descs.all fun x => x.phase = .done then
      if j.decision.isSome || j.pendingReset ≠ 0 then s.bump .lateArrivals
      else s.decide q seq (if j.replays = 0 then stDone else stDoneReplayed)
    else s

/-- A descriptor completes: canaries rise, it signals once unless it has signalled each iteration, dependants see it done. An INDIRECT
has one iteration, which ends here (R143, R168). -/
def State.completeDesc (s : State) (q : QueueId) (seq : BitVec 32) (k : DKey) (d : Nat) (boughs : List BoughId) : State :=
  let s := s.updDesc q seq k fun x => { x with phase := .done }
  let s := boughs.foldl (fun s b => s.bump .boughCanary 0 0 b.val) s
  let s := s.bump .queueCanary 0 0 q.val
  let s := if dSignalEach d && dOpcode d ≠ opIndirect then s else s.signal d
  s.jobDone q seq

/- Becoming startable (R140, R147, R148, R164). -/

/-- A read by a job of the argument word n (R126). -/
def State.argWord (s : State) (j : Job) (n : Nat) : Except Nat Nat × State :=
  let limit := ((s.jobEntry j).map fun e => e.argWords).getD 0
  if limit ≤ n then (.error stData, s)
  else
    let a := j.argAddr + 4 * n
    let s := s.touchAddr j.queue j.seq a
    match s.readMem (.job j.claim) a 4 with
    | (.ok bs, t) => (.ok (leNat bs), t)
    | (.error f, t) => (.error f.status, t)

/-- Handles are settled: the job holds what it asked for (R266). -/
def Job.settled (j : Job) : Bool :=
  (j.take.isNone || j.taken.isSome) && (j.post.isNone || j.reserved.isSome)

/-- A descriptor of the job by number, other than an instance, is done. -/
def Job.isDone (j : Job) (id : Nat) : Bool :=
  j.descs.any fun x => x.key = ⟨id, none⟩ && x.phase = .done

/-- The conditions of R140, with the implied edges of BARRIER (R164). -/
def State.canStart (s : State) (j : Job) (x : JDesc) : Bool :=
  let d := s.jobDesc j x.key.id
  x.phase = .waiting && x.waitMet && j.settled && j.decision.isNone && j.pendingReset = 0 &&
  (x.key.inst.isSome ||
    ((List.range 4).all fun n => dPred d n = 0xFFFFFF || j.isDone (dPred d n)) &&
    (dOpcode d ≠ opBarrier || j.descs.all fun y => y.key.inst.isSome || x.key.id ≤ y.key.id || y.phase = .done))

/-- A descriptor becomes startable: its count is latched; a count above REPEAT fails the job; a count of 0 completes it at once. -/
def State.becomeStartable (s : State) (j : Job) (x : JDesc) : State :=
  let d := s.jobDesc j x.key.id
  let (c, s) := if dRepeatArg d = 0 then (Except.ok (dRepeat d), s) else s.argWord j (dRepeatArg d)
  match c with
  | .error st => s.failJob j.queue j.seq st x.key.id 15
  | .ok c =>
    if dRepeat d < c then s.failJob j.queue j.seq stData x.key.id 15
    else if c = 0 then
      let t := dTarget d
      s.completeDesc j.queue j.seq x.key d (if tLevel t = 0 then [] else [Fin.ofNat 4 (tBough t)])
    else
      let n := s.hub.nextStamp
      (s.updDesc j.queue j.seq x.key fun y => { y with phase := .startable n c })

/-- The next descriptor that becomes startable, in the order of jobs and numbers. -/
def State.nextReady (s : State) : Option (Job × JDesc) :=
  s.hub.jobs.findSome? fun j => (j.descs.find? fun x => s.canStart j x).map fun x => (j, x)

/-- Descriptors become startable one after another within one handshake; all of them share one stamp (R139). -/
def State.wakeLoop : Nat → State → State
  | 0, s => s
  | fuel + 1, s =>
    match s.nextReady with
    | none => s
    | some (j, x) => State.wakeLoop fuel (s.becomeStartable j x)

/-- What any change that may satisfy descriptors is followed by. -/
def State.wake (s : State) : State :=
  let n := s.hub.jobs.foldl (fun a j => a + j.descs.length + 1) 1
  (State.wakeLoop n s.observe).updHub fun h => { h with nextStamp := h.nextStamp + 1 }

end Sys2Proof.Machine
end

