-- ==== Sys2Proof/Machine/Tiles.lean ====
section
/-! DEFINITION. Tiles of a running descriptor: the positions a tile covers, the operands it needs, and how stream rings cut them
into chunks and transfers (R195, R208 to R212, R215 to R222, R232 to R239, R245, R251, R252). -/
namespace Sys2Proof.Machine
open Sys2Proof

/- Slots: 0 to 3 of the descriptor, 4 side list, 5 bias, 6 scratch. -/

/-- The tensor of a slot in the iteration in progress (R146). -/
def Run.tensor (r : Run) (n : Nat) : Option Tensor :=
  (r.tens.getD n none).map fun t => if n < 3 then t.shift (r.iter * dLstride r.desc n) else t

/-- Whether a slot is written, and whether it is read (R156, R159, R163). -/
def slotWritten (op n : Nat) : Bool :=
  if op = opAttention then n = 3 else if op = opOptStep then n = 0 || n = 2 || n = 3 else n = 2
def slotRead (op n : Nat) : Bool :=
  if op = opOptStep then n ≤ 3 else !slotWritten op n

/-- The slot an operation writes its grid's results to. -/
def outSlot (op : Nat) : Nat := if op = opAttention then 3 else if op = opOptStep then 0 else 2

/-- Outer positions of the grid (R150, R195). -/
def Run.outers (r : Run) : Nat :=
  ((r.tens.getD (dGridSlot r.desc) none).map fun t => if dGridO r.desc < 5 then t.extent (dGridO r.desc) else 1).getD 1

/-- Bounds of a tile in the grid's dimensions; every other dimension whole (R195). Where the grid is formed on another slot than the
output, the last tile along a dimension runs to the output's end (log entry 56). -/
def Run.gridBox (r : Run) (k : Nat) : List (Nat × Nat) :=
  match tileOf k r.tx r.ty with
  | none => []
  | some (o, y, x, _) =>
    let far := dGridSlot r.desc ≠ outSlot (dOpcode r.desc)
    let upTo := fun (i n size : Nat) => if far && i + 1 = n then 2 ^ 32 else (i + 1) * size
    (List.range 5).map fun d =>
      if d = dGridY r.desc then (y * dTileY r.desc, upTo y r.ty (dTileY r.desc))
      else if d = dGridX r.desc then (x * dTileX r.desc, upTo x r.tx (dTileX r.desc))
      else if d = dGridO r.desc then (o, upTo o r.outers 1)
      else (0, 2 ^ 32)

/-- A box cut to a tensor's valid extents (R208). -/
def Tensor.clip (t : Tensor) (box : List (Nat × Nat)) : List (Nat × Nat) :=
  (List.range 5).map fun d =>
    let (lo, hi) := box.getD d (0, 2 ^ 32)
    (min lo (t.extent d), min hi (t.extent d))

/- Leaf operations. -/

/-- Rows and columns of a group's tile (R91). -/
def groupM (gang : Nat) : Nat := if gang = 0 then 64 else 128
def groupN (gang : Nat) : Nat := if gang = 2 then 128 else 64

/-- A format of 8 bits. -/
def is8 (f : Nat) : Bool := 5 ≤ f && f ≤ 8
def is16 (f : Nat) : Bool := 9 ≤ f && f ≤ 0xB

/-- First row and column of leaf l's share of its group's tile (R91). -/
def leafRow (gang : Nat) (l : LeafPos) : Nat := if gang = 0 then 0 else 64 * (l.val % 2)
def leafCol (gang : Nat) (l : LeafPos) : Nat := if gang = 2 then 64 * (l.val / 2) else 0

/-- K positions per step of an operand pair (R60); 0 for a 16-bit pair, which takes 4 steps a position (R83). -/
def kPerStep (a b : Nat) : Nat :=
  if is16 a then 0
  else if is8 b then 1
  else if b = 0x0 then 4
  else if a = 0x3 then 4
  else 2

/-- Channels per block of a blocked layout (R153). -/
def blockOf (layout : Nat) : Nat := if layout = 1 || layout = 3 then 16 else 32

/-- Geometry of a CONV (R216, R217, R219): declared and valid channels of a group, output channels. -/
structure ConvGeo where
  w : Window
  inC : Nat
  cg : Nat
  cgv : Nat
  n : Nat
  deriving DecidableEq, Repr

def Run.convGeo (r : Run) : ConvGeo :=
  let w := windowOf r.desc
  match r.tensor 0, r.tensor 1 with
  | some a, some b =>
    let bl := blockOf a.layout
    let inC := a.dim 3 * bl
    let g := max 1 w.groups
    ⟨w, inC, inC / g, if g = inC then 1 else a.extent 3 * bl / g, b.dim 1⟩
  | _, _ => ⟨w, 0, 0, 0, 0⟩

/-- Group that output channel n belongs to (R217). -/
def ConvGeo.groupOf (c : ConvGeo) (n : Nat) : Nat := n * c.w.groups / max 1 c.n

/-- G of R68: K where there is no scale tensor. -/
def Run.groupSize (r : Run) : Option Nat :=
  if (r.tensor 3).isSome && dOpcode r.desc ≠ opAttention then some (32 * 2 ^ (leafParams r.desc).gsize) else none

/-- The first row and column of a tile's group, and its outer grid position. -/
structure LeafTile where
  m0 : Nat
  n0 : Nat
  /-- Positions of the output dimensions that the grid does not name, run one after another, in extent or not (R209, R212):
  coordinates of dimensions 2 to 4 for MATMUL, of height and batch for CONV. -/
  positions : List (List Nat)
  /-- Channel groups that the tile's columns touch, a pass each (R218). -/
  passes : List Nat
  deriving DecidableEq, Repr

def Run.leafTile (r : Run) (k : Nat) : LeafTile :=
  let gm := groupM (dGang r.desc)
  let gn := groupN (dGang r.desc)
  match tileOf k r.tx r.ty, r.tensor (if dOpcode r.desc = opAttention then 3 else 2) with
  | some (o, y, x, _), some t =>
    let pick := fun d => if dGridO r.desc = d then [o] else List.range (t.dim d)
    if dOpcode r.desc = opConv then
      let g := r.convGeo
      let n0 := y * gn
      let cols := (List.range gn).map (n0 + ·)
      ⟨x * gm, n0, (pick 4).flatMap fun b => (pick 2).map fun h => [h, b],
        ((cols.filter (· < g.n)).map g.groupOf).eraseDups⟩
    else if dOpcode r.desc = opAttention then ⟨y * gm, x * gn, [[o]], [0]⟩
    else
      ⟨y * gm, x * gn, (pick 4).flatMap fun c4 => (pick 3).flatMap fun c3 => (pick 2).map fun c2 => [c2, c3, c4], [0]⟩
  | _, _ => ⟨0, 0, [], []⟩

/-- Valid positions along K of one pass (R157, R219). -/
def Run.kValid (r : Run) : Nat :=
  match r.tensor 0 with
  | none => 0
  | some a =>
    if dOpcode r.desc = opConv then
      let g := r.convGeo
      g.w.kh * g.w.kw * g.cgv
    else a.extent (if dOpcode r.desc = opMatmulTa then 1 else 0)

/-- The place along the weights' K dimension of the i-th valid position (R216, R219). -/
def Run.kPlace (r : Run) (i : Nat) : Nat :=
  if dOpcode r.desc = opConv then
    let g := r.convGeo
    i / max 1 g.cgv * g.cg + i % max 1 g.cgv
  else i

/-- Steps of one pass: the valid extent of K in whole slices (R209), 4 steps a position for 16-bit pairs (R83), twice as many with
G of 32 (R68). -/
def Run.passSteps (r : Run) : Nat :=
  match r.tensor 0, r.tensor 1 with
  | some a, some b =>
    let n := kPerStep a.fmt b.fmt
    let base := if n = 0 then 4 * r.kValid else (r.kValid + n - 1) / n
    if r.groupSize = some 32 then 2 * base else base
  | _, _ => 0

/-- Block width of ATTENTION (R275). -/
def attnW (gang : Nat) : Nat := if gang = 2 then 128 else 64

/-- Position of query row 0, and the last position a row may see, plus 1 (R272, R273). -/
def Run.attnVisible (r : Run) (row : Nat) : Nat :=
  match r.tensor 0, r.tensor 1 with
  | some q, some k =>
    let g := dParam r.desc 139 136 + 1
    let n := k.extent 1
    let m := q.extent 1 / g
    if dParam r.desc 140 140 = 0 then n
    else
      let q0 : Int := if dParam r.desc 151 144 = 0 then (n : Int) - m else r.arg
      min n (q0 + (row / g : Nat) + 1).toNat
  | _, _ => 0

/-- Steps of an ATTENTION tile (R275): the bound's product without its fixed part. -/
def Run.attnSteps (r : Run) (k : Nat) : Nat :=
  match r.tensor 0, r.tensor 1, r.tensor 2 with
  | some q, some kc, some vc =>
    let t := r.leafTile k
    let rows := (List.range (groupM (dGang r.desc))).map (t.m0 + ·) |>.filter (· < q.extent 1)
    let nt := rows.foldl (fun a x => max a (r.attnVisible x)) 0
    let w := attnW (dGang r.desc)
    let f := fun fmt => if fmt = 0x7 then 1 else 4
    (nt + w - 1) / w * (q.extent 0 * f kc.fmt + w * f vc.fmt)
  | _, _, _ => 0

/-- Steps of a group's tile over all its positions and passes. -/
def Run.tileSteps (r : Run) (k : Nat) : Nat :=
  if dOpcode r.desc = opAttention then r.attnSteps k
  else
    let t := r.leafTile k
    t.positions.length * t.passes.length * r.passSteps

/-- The output's coordinate of row m, column n at a position. -/
def Run.outCoord (r : Run) (t : Tensor) (m n : Nat) (pos : List Nat) : Coord :=
  if dOpcode r.desc = opConv then
    let b := blockOf t.layout
    [n % b, m, pos.getD 0 0, n / b, pos.getD 1 0]
  else [n, m] ++ pos

/-- The weights' coordinate of K place k and column n. -/
def Run.bCoord (r : Run) (k n : Nat) (pos : List Nat) : Coord :=
  if dOpcode r.desc = opMatmulTb then [n, k, pos.getD 0 0] else [k, n, pos.getD 0 0]

/-- B with three dimensions holds one matrix per batch position; with two it is shared (R157). -/
def Tensor.sharedDims (t : Tensor) (c : Coord) : Coord := c.take t.ndim

/-- The input tap of row m at a position for the i-th K position of a pass (R216, R220, R222). -/
def Run.convTap (r : Run) (a : Tensor) (m : Nat) (pos : List Nat) (pass i : Nat) : Option Coord ⊕ Unit :=
  let g := r.convGeo
  let tap := i / max 1 g.cgv
  let ch := pass * g.cg + i % max 1 g.cgv
  let b := blockOf a.layout
  let mk := fun y x => [ch % b, x, y, ch / b, pos.getD 1 0]
  if g.w.pointwise then .inl (some (mk (pos.getD 0 0) m))
  else
    let uy : Int := (pos.getD 0 0 * g.w.sy : Nat) - (g.w.padT : Int) + (tap / g.w.kw * g.w.dy : Nat)
    let ux : Int := (m * g.w.sx : Nat) - (g.w.padL : Int) + (tap % g.w.kw * g.w.dx : Nat)
    match g.w.tap uy ux (a.extent 2) (a.extent 1) with
    | .zero => .inl none
    | .const => .inr ()
    | .at y x => .inl (some (mk y x))

/- Chunks (R252). -/

/-- Bytes that the elements of a list take. -/
def Tensor.bytesOf (t : Tensor) (n : Nat) : Nat := (n * t.width + 7) / 8

/-- In-extent coordinates of a list. -/
def Tensor.valid (t : Tensor) (cs : List Coord) : List Coord := cs.filter t.inExtent

/-- A chunk as it is cut (R252): for an operand of a leaf product its pass; the units it spans; its elements. -/
structure Cut where
  pass : Nat
  lo : Nat
  hi : Nat
  cs : List Coord
  deriving DecidableEq, Repr

/-- Units joined into chunks, each the largest whole number of units that fits the slot (R252). -/
def fitUnits (t : Tensor) (slotBytes pass : Nat) (units : List (List Coord)) : List Cut :=
  ((List.range units.length).foldl (fun (acc : List Cut) i =>
    let u := units.getD i []
    match acc with
    | c :: rest =>
      if t.bytesOf (c.cs.length + u.length) ≤ slotBytes then { c with hi := i + 1, cs := c.cs ++ u } :: rest
      else ⟨pass, i, i + 1, u⟩ :: acc
    | [] => [⟨pass, i, i + 1, u⟩]) []).reverse

/-- Coordinates grouped by lines along the outermost dimension in which they differ; those of one line of dimension 0 are one line
(R252; log entry 54, DEDUCED). -/
def linesOf (cs : List Coord) : List (List Coord) :=
  let wide := (List.range 5).filter fun d => d ≠ 0 && cs.any fun c => c.at d ≠ (cs.headD []).at d
  let d := wide.getLastD 4
  ((cs.map fun c => c.at d).eraseDups).map fun v => cs.filter fun c => c.at d = v

/-- Positions of a K range: G with a scale tensor, else 64 (R252). -/
def Run.rangeLen (r : Run) : Nat := r.groupSize.getD 64

/-- The input of a CONV moves by the window's rows; a pointwise CONV's moves by K ranges, as a MATMUL's does (R225, R252). -/
def Run.byRows (r : Run) (n : Nat) : Bool := n = 0 && dOpcode r.desc = opConv && !r.convGeo.w.pointwise

/-- The unit of slot n that the i-th K position of a pass lies in. -/
def Run.unitOf (r : Run) (n i : Nat) : Nat :=
  if r.byRows n then i / max 1 (r.convGeo.w.kw * r.convGeo.cgv) else i / r.rangeLen

/-- The valid K positions of a pass, by unit of slot n. -/
def Run.unitKs (r : Run) (n : Nat) : List (List Nat) :=
  let len := if r.byRows n then max 1 (r.convGeo.w.kw * r.convGeo.cgv) else r.rangeLen
  (List.range ((r.kValid + len - 1) / len)).map fun i => ((List.range len).map (i * len + ·)).filter (· < r.kValid)

/-- Rows and columns of a group's tile. -/
def Run.tileRows (r : Run) (k : Nat) : List Nat := (List.range (groupM (dGang r.desc))).map ((r.leafTile k).m0 + ·)
def Run.tileCols (r : Run) (k : Nat) : List Nat := (List.range (groupN (dGang r.desc))).map ((r.leafTile k).n0 + ·)

/-- The elements of slot n that a tile needs at one position and pass, by unit. -/
def Run.leafUnits (r : Run) (n k : Nat) (pos : List Nat) (pass : Nat) : List (List Coord) :=
  match r.tensor n with
  | none => []
  | some t =>
    (r.unitKs n).map fun ks =>
      if n = 0 && dOpcode r.desc = opConv then
        t.valid (((r.tileRows k).flatMap fun m => ks.filterMap fun i =>
          match r.convTap t m pos pass i with
          | .inl c => c
          | .inr _ => none).eraseDups)
      else if n = 0 then
        t.valid ((r.tileRows k).flatMap fun m => ks.map fun i =>
          if dOpcode r.desc = opMatmulTa then [m, i] ++ pos else [i, m] ++ pos)
      else if n = 1 then
        t.valid ((r.tileCols k).flatMap fun c => ks.map fun i => t.sharedDims (r.bCoord (r.kPlace i) c pos))
      else
        t.valid (((ks.map fun i => r.kPlace i / r.rangeLen).eraseDups).flatMap fun g => (r.tileCols k).map fun c => [c, g])

/-- Lines along the outermost dimension of a box; a box of one line of dimension 0 is one line (R252; log entry 54,
DEDUCED). -/
def lineUnits (t : Tensor) (box : List (Nat × Nat)) : List (List Coord) :=
  let b := t.clip box
  let wide := (List.range 5).filter fun d => let p := b.getD d (0, 1); d ≠ 0 && 1 < p.2 - p.1
  let d := wide.getLastD 4
  let p := b.getD d (0, 0)
  ((List.range (p.2 - p.1)).map fun i => boxCoords (b.set d (p.1 + i, p.1 + i + 1))).filter (· ≠ [])

/-- Functions of ELTWISE of one operand: they ignore T1 (R162). -/
def unaryFn (f : Nat) : Bool := f = 0x06 || f = 0x07 || (0x09 ≤ f && f ≤ 0x19) || f = 0x1C

/-- Operand box of a vector operation's slot for a tile: broadcast dimensions stand at 0, REDUCE, SOFTMAX and NORM run whole lines
(R161, R195); a DEQUANT with groups reads from the start of a group, whose escapes it counts (R75). -/
def Run.operandBox (r : Run) (n k : Nat) : List (Nat × Nat) :=
  let box := r.gridBox k
  match r.tensor n, r.tensor 0 with
  | some t, some t0 =>
    (List.range 5).map fun d =>
      if t.dim d = 1 && 1 < t0.dim d && n ≠ 0 then (0, 1)
      else
        let (lo, hi) := box.getD d (0, 2 ^ 32)
        if dOpcode r.desc = opDequant && n = 0 && d = dParam r.desc 10 8 && (r.tensor 3).isSome then
          let g := 32 * 2 ^ dParam r.desc 73 72
          (lo / g * g, hi)
        else (lo, hi)
  | _, _ => box

/-- Input rows of a POOL tile, one unit for each row of a channel block and batch (R252). -/
def Run.poolUnits (r : Run) (k : Nat) : List (List Coord) :=
  match r.tensor 0, r.tensor 2 with
  | some a, some o =>
    let w := windowOf r.desc
    let cs := (boxCoords (o.clip (r.gridBox k))).flatMap fun c =>
      (List.range w.kh).flatMap fun ky => (List.range w.kw).filterMap fun kx =>
        match w.tap ((c.at 2 * w.sy : Nat) - (w.padT : Int) + (ky * w.dy : Nat))
            ((c.at 1 * w.sx : Nat) - (w.padL : Int) + (kx * w.dx : Nat)) (a.extent 2) (a.extent 1) with
        | .at y x => some [c.at 0, x, y, c.at 3, c.at 4]
        | _ => none
    let vs := a.valid cs.eraseDups
    ((vs.map fun c => (c.at 2, c.at 3, c.at 4)).eraseDups).map fun key => vs.filter fun c => (c.at 2, c.at 3, c.at 4) = key
  | _, _ => []

/-- Operand box of an ATTENTION slot for a tile: positions that no valid row sees are not fetched (R275). -/
def Run.attnBox (r : Run) (n k : Nat) : List (Nat × Nat) :=
  let t := r.leafTile k
  let gm := groupM (dGang r.desc)
  let h := (t.positions.headD []).getD 0 0
  let rows := (r.tileRows k).filter fun m => (r.tensor 0).any fun q => m < q.extent 1
  let vis := rows.foldl (fun a m => max a (r.attnVisible m)) 0
  if n = 0 then [(0, 2 ^ 32), (t.m0, t.m0 + gm), (h, h + 1)]
  else [(0, 2 ^ 32), (0, vis), (h, h + 1)]

/-- Records of a scale tensor that a tile of QUANT or DEQUANT reads, by lines of their own outermost dimension (R252, R568). -/
def Run.scaleUnits (r : Run) (k : Nat) : List (List Coord) :=
  match r.tensor 0, r.tensor 3 with
  | some t, some sc =>
    let ax := dParam r.desc 10 8
    let g := 32 * 2 ^ dParam r.desc 73 72
    let cs := boxCoords (t.clip (r.gridBox k))
    let inner := fun c : Coord => if t.ndim = 1 then 0 else if ax = 0 then c.at 1 else c.at 0
    linesOf (sc.valid ((cs.map fun c => [inner c, c.at ax / g]).eraseDups))
  | _, _ => []

/-- Units of a slot of an operation other than a leaf product. -/
def Run.wholeUnits (r : Run) (n k : Nat) : List (List Coord) :=
  match r.tensor n with
  | none => []
  | some t =>
    let op := dOpcode r.desc
    if op = opAttention then lineUnits t (r.attnBox n k)
    else if op = opPool then r.poolUnits k
    else if (op = opQuant || op = opDequant) && n = 3 then r.scaleUnits k
    else if op = opEltwise && n = 1 && unaryFn (dParam r.desc 7 0) then []
    else lineUnits t (r.operandBox n k)

/-- A matrix product or convolution on the leaves. -/
def isProduct (op : Nat) : Bool := isLeafOp op && op ≠ opAttention

/-- The chunks of a tile's part of an input slot other than the side list, in the order of consumption. -/
def Run.inChunks (r : Run) (slotBytes n k : Nat) : List Cut :=
  match r.tensor n with
  | none => []
  | some t =>
    if isProduct (dOpcode r.desc) then
      let lt := r.leafTile k
      let np := lt.passes.length
      (List.range (lt.positions.length * np)).flatMap fun i =>
        fitUnits t slotBytes i (r.leafUnits n k (lt.positions.getD (i / np) []) (lt.passes.getD (i % np) 0))
    else fitUnits t slotBytes 0 (r.wholeUnits n k)

/-- The output elements of leaf l's set at a position of a tile, in extent (R91, R96, R210). -/
def Run.setCoords (r : Run) (l : LeafPos) (k pos : Nat) : List Coord :=
  match r.tensor (outSlot (dOpcode r.desc)) with
  | none => []
  | some o =>
    let lt := r.leafTile k
    let g := dGang r.desc
    o.valid ((List.range 4096).map fun i =>
      r.outCoord o (lt.m0 + leafRow g l + i / 64) (lt.n0 + leafCol g l + i % 64) (lt.positions.getD pos []))

/-- Positions of a zero-compressed block (R232). -/
def zcP (layout : Nat) : Nat := 2048 / blockOf layout

/-- Address of a block's slot (R232). -/
def Tensor.zcAddr (t : Tensor) (j i2 i3 i4 : Nat) : Nat :=
  t.base + i2 * t.stride 2 + i3 * t.stride 3 + i4 * t.stride 4 + j * 2112

/-- The blocks that coordinates of a zero-compressed tensor fall in, each with the linear indices of its elements in order. -/
def Tensor.zcBlocks (t : Tensor) (cs : List Coord) : List (Nat × List Coord) :=
  let p := zcP t.layout
  let keys := (cs.map fun c => (c.at 1 / p, c.at 2, c.at 3, c.at 4)).eraseDups
  keys.map fun (j, i2, i3, i4) =>
    let last := min (t.dim 1) ((j + 1) * p)
    (t.zcAddr j i2 i3 i4,
      (List.range (last - j * p)).flatMap fun x => (List.range (blockOf t.layout)).map fun c => [c, j * p + x, i2, i3, i4])

/-- Units of output elements: lines, or whole blocks of a zero-compressed tensor (R234, R252). -/
def Tensor.outLines (t : Tensor) (cs : List Coord) : List (List Coord) :=
  if isZc t.layout then (t.zcBlocks cs).map fun b => t.valid b.2 else linesOf cs

/-- Units of an output slot at a tile: lines of a leaf's set, or of a vector unit's tile (R252). -/
def Run.outUnits (r : Run) (n k : Nat) : List (List Coord) :=
  match r.tensor n with
  | none => []
  | some t =>
    if isLeafOp (dOpcode r.desc) then
      ([0, 1, 2, 3] : List LeafPos).flatMap fun l =>
        (List.range (r.leafTile k).positions.length).flatMap fun p => t.outLines (r.setCoords l k p)
    else t.outLines (boxCoords (t.clip (r.gridBox k)))

/-- Every unit of a slot's part fits one slot of its ring, whatever tile the branch may claim (R250). -/
def Run.chunkFits (r : Run) (slotBytes n : Nat) : Bool :=
  match r.tensor n with
  | none => true
  | some t =>
    let ks := r.shares.flatMap fun h => (List.range (h.hi - h.lo)).map (h.lo + ·)
    n = 4 || ks.all fun k =>
      let ins := if slotRead (dOpcode r.desc) n then
          (if isProduct (dOpcode r.desc) then
            let lt := r.leafTile k
            lt.positions.flatMap fun pos => lt.passes.flatMap fun p => r.leafUnits n k pos p
           else r.wholeUnits n k)
        else []
      let outs := if slotWritten (dOpcode r.desc) n then r.outUnits n k else []
      (ins ++ outs).all fun u => t.bytesOf u.length ≤ slotBytes

/- Transfers (R245). -/

/-- A transfer ends before this byte: 64 KiB from its start, or the next segment boundary. -/
def transferEnd (a : Nat) : Nat := min (a + 65536) ((a / 2 ^ 21 + 1) * 2 ^ 21)

/-- Cut elements, given as linear index and bit address, into contiguous runs of at most one transfer (R245). -/
def cutRuns (w : Nat) : List (Nat × Nat) → List (List (Nat × Nat)) → List (List (Nat × Nat))
  | [], acc => (acc.map List.reverse).reverse
  | e :: es, [] => cutRuns w es [[e]]
  | e :: es, cur :: acc =>
    match cur with
    | [] => cutRuns w es ([e] :: acc)
    | p :: _ =>
      let first := (cur.getLastD p).2 / 8
      let joins := (e.2 = p.2 + w || (w = 3 && p.2 < e.2 && e.2 ≤ p.2 + w + 5)) && (e.2 + w + 7) / 8 ≤ transferEnd first
      if joins then cutRuns w es ((e :: cur) :: acc) else cutRuns w es ([e] :: cur :: acc)

/-- The byte range that covers elements. -/
def coverBytes (w : Nat) (es : List (Nat × Nat)) : Nat × Nat :=
  match es with
  | [] => (0, 0)
  | e :: _ =>
    let lo := es.foldl (fun a p => min a (p.2 / 8)) (e.2 / 8)
    let hi := es.foldl (fun a p => max a ((p.2 + w + 7) / 8)) 0
    (lo, hi - lo)

/-- The transfers that bring elements of a tensor; `add` moves every address (R267). -/
def Tensor.readMoves (t : Tensor) (add : Nat) (cs : List Coord) : List Move :=
  if isZc t.layout then
    (t.zcBlocks cs).map fun (a, es) => ⟨some (a + add, 2112), es.map fun c => (t.linear c, 0), [], some (es.map t.linear)⟩
  else
    (cutRuns t.width (cs.map fun c => (t.linear c, t.bitAddr c + 8 * add)) []).map fun es =>
      ⟨some (coverBytes t.width es), es, [], none⟩

/-- The element write of a code at a coordinate, with the zero bits of R50 after a line's last element. -/
def Tensor.putsAt (t : Tensor) (add : Nat) (c : Coord) (code : Nat) : List Put :=
  let b := t.bitAddr c + 8 * add
  let main : Put := ⟨b, t.width, code⟩
  if c.at 0 + 1 = t.dim 0 && t.width < 8 then
    let endBit := 8 * (t.lineAddr c + add) + 8 * lineBytes t.fmt t.layout (t.dim 0)
    let at_ := b + t.width
    if at_ < endBit then [main, ⟨at_, endBit - at_, 0⟩] else [main]
  else [main]

/-- The transfers that write elements of an uncompressed tensor: contiguous runs (R245). -/
def Tensor.writeMoves (t : Tensor) (add : Nat) (es : List (Coord × Nat)) : List Move :=
  let runs := cutRuns t.width ((List.range es.length).map fun i => (i, t.bitAddr (es.getD i ([], 0)).1 + 8 * add)) []
  runs.map fun r => ⟨none, [], r.flatMap fun p => let e := es.getD p.1 ([], 0); t.putsAt add e.1 e.2, none⟩

/-- Number of bits set. -/
def popCount (n w : Nat) : Nat := (List.range w).foldl (fun a i => if n.testBit i then a + 1 else a) 0

/-- The elements of a zero-compressed block read from its slot's bytes (R233, R235): FAILED_DATA where the header is wrong. -/
def zcDecode (bs : List Byte) (e : Nat) : Except Nat (List Nat) :=
  let h := leNat (slice bs 0 4)
  let raw := h.testBit 24
  let fill := nbits h 23 16
  let nnz := nbits h 15 0
  let map := leNat (slice bs 4 256)
  if nbits h 31 25 ≠ 0 then .error stData
  else if raw then
    if nnz ≠ e then .error stData else .ok ((List.range e).map fun i => (bs.getD (4 + i) 0).toNat)
  else if 1852 < nnz || map / 2 ^ e ≠ 0 || popCount map e ≠ nnz then .error stData
  else
    .ok ((List.range e).map fun i =>
      if map.testBit i then (bs.getD (260 + popCount (map % 2 ^ i) i) 0).toNat else fill)

/-- A block's bytes as the T9 writes them (R234). -/
def zcEncode (fill : Nat) (codes : List Nat) : List Byte :=
  let e := codes.length
  let kept := codes.filter (· ≠ fill)
  let nnz := kept.length
  let byte := fun n : Nat => BitVec.ofNat 8 n
  if 4 + e ≤ 260 + nnz then leBytes 4 (e + fill * 2 ^ 16 + 2 ^ 24) ++ codes.map byte
  else
    let map := (List.range e).foldl (fun a i => if codes.getD i fill = fill then a else a + 2 ^ i) 0
    leBytes 4 (nnz + fill * 2 ^ 16) ++ leBytes 256 map ++ kept.map byte

/-- The transfers that write elements of a zero-compressed tensor: whole blocks; elements out of extent are encoded as FILL
(R234, R236). -/
def Tensor.zcWriteMoves (t : Tensor) (add fill : Nat) (es : List (Coord × Nat)) : List Move :=
  (t.zcBlocks (es.map (·.1))).map fun (a, cs) =>
    let codes := cs.map fun c =>
      if t.inExtent c then ((es.find? fun e => t.linear e.1 = t.linear c).map (·.2)).getD fill else fill
    let bs := zcEncode fill codes
    ⟨none, [], (List.range bs.length).map fun i => ⟨8 * (a + add + i), 8, (bs.getD i 0).toNat⟩, none⟩

/-- The transfers that write elements. -/
def Tensor.movesOut (t : Tensor) (add fill : Nat) (es : List (Coord × Nat)) : List Move :=
  if isZc t.layout then t.zcWriteMoves add fill es else t.writeMoves add es

end Sys2Proof.Machine
end

