-- ==== Sys2Proof/Machine/Engine.lean ====
section
/-! DEFINITION. The branches at work: local memory, stream rings, work counters and claims, joining and leaving, iterations
(R103 to R108, R137, R146, R199 to R206, R248 to R256). -/
namespace Sys2Proof.Machine
open Sys2Proof

/- Local memory (R84, R103, R107, R108). -/

/-- Whether a word of a branch's local memory is poisoned. -/
def State.wordPoisoned (s : State) (b : BoughId) (r : BranchPos) (word : Nat) : Bool :=
  (s.boughs[b].branches[r]).poisoned.contains word

/-- Bits of a branch's local memory, from a bit offset of the branch; a poisoned word fails the reader (R108), an offset past the
4 MiB is not mapped. -/
def State.localBits (s : State) (b : BoughId) (r : BranchPos) (bit w : Nat) : Except Nat Nat :=
  let lo := bit / 8
  let n := (bit + w + 7) / 8 - lo
  if 0x400000 < lo + n then .error stAccess
  else if s.wordPoisoned b r (lo / 64) || s.wordPoisoned b r ((lo + n - 1) / 64) then .error stUncorrectable
  else .ok (bitsOfBytes (s.mem.readBytes (localBase b r.val + lo) n) (bit % 8) w)

/-- Bytes written to a branch's local memory: a whole word clears its poison (R108). -/
def State.localWrite (s : State) (b : BoughId) (r : BranchPos) (off : Nat) (bs : List Byte) : State :=
  let whole := fun w => off ≤ w * 64 && w * 64 + 64 ≤ off + bs.length
  let s := s.updBough b fun x => { x with branches := upd x.branches r fun y => { y with poisoned := y.poisoned.filter fun w => !whole w } }
  { s with mem := s.mem.writeBytes (localBase b r.val + off) bs }

/-- What the code of local memory reports (R108): a corrected word leaves a record, an uncorrectable one is poisoned. -/
def State.wordError (s : State) (b : BoughId) (r : BranchPos) (e : WordError) : State :=
  match e with
  | .clean => s
  | .corrected w => s.logOpen (0x3300 + (Config.recordCode 16).toNat) 3 (8 * b.val + r.val) (some (BitVec.ofNat 64 w.val))
  | .uncorrectable w =>
    let s := s.updBough b fun x => { x with branches := upd x.branches r fun y =>
      { y with poisoned := if y.poisoned.contains w.val then y.poisoned else w.val :: y.poisoned } }
    s.logOpen (0x3300 + (Config.recordCode 17).toNat) 3 (8 * b.val + r.val) (some (BitVec.ofNat 64 w.val))

/-- Whether a word that an operand of a command says was read lies in a byte range of the branch's window. -/
def errorIn (e : WordError) (off n : Nat) : Bool :=
  match e with
  | .clean => false
  | .corrected w | .uncorrectable w => off / 64 ≤ w.val && w.val * 64 < off + n

/-- What an operand says of a word, where the command reads that word; else nothing. -/
def errorIf (e : WordError) (c : Bool) : WordError := if c then e else .clean

/-- Words of local memory that a byte range covers. -/
def wordsOf (off n : Nat) : List Nat := if n = 0 then [] else (List.range ((off + n - 1) / 64 + 1 - off / 64)).map (off / 64 + ·)

/-- Bytes of a list of element writes: for each byte its address, the bits written and their value. -/
def putBytes (ps : List Put) : SMap (Nat × Nat) :=
  ps.foldl (fun m p =>
    let v := p.code % 2 ^ p.width * 2 ^ (p.bit % 8)
    let mask := (2 ^ p.width - 1) * 2 ^ (p.bit % 8)
    (List.range ((p.bit % 8 + p.width + 7) / 8)).foldl (fun m i =>
      let a := p.bit / 8 + i
      let mk := mask / 2 ^ (8 * i) % 256
      let vv := v / 2 ^ (8 * i) % 256
      let (m0, v0) := SMap.get (0, 0) m a
      SMap.insert m a (m0 ||| mk, (v0 &&& (255 - mk)) ||| vv)) m) []

/-- Consecutive bytes joined into runs. -/
def byteRuns : SMap (Nat × Nat) → List (Nat × List (Nat × Nat))
  | [] => []
  | (a, p) :: m =>
    match byteRuns m with
    | (b, l) :: rest => if b = a + 1 then (a, p :: l) :: rest else (a, [p]) :: (b, l) :: rest
    | [] => [(a, [p])]

/-- The bytes of a run, merged with the old ones (R210). -/
def mergeRun (old : List Byte) (l : List (Nat × Nat)) : List Byte :=
  (List.range l.length).map fun i =>
    let (msk, v) := l.getD i (0, 0)
    BitVec.ofNat 8 (((old.getD i 0).toNat &&& (255 - msk)) ||| v)

/-- Element writes into a branch's local memory (R85, R108, R210): runs of bytes, so that a word written whole loses its poison. -/
def State.localPuts (s : State) (b : BoughId) (r : BranchPos) (ps : List Put) : State :=
  (byteRuns (putBytes ps)).foldl (fun s run =>
    if 0x400000 < run.1 + run.2.length then s
    else s.localWrite b r run.1 (mergeRun (s.mem.readBytes (localBase b r.val + run.1) run.2.length) run.2)) s

/- Banks (R103 to R106). -/

/-- Bank, and word within the bank, of a byte offset of the branch's window (R103). -/
def bankOf (off : Nat) : Nat := off / 64 % 32
def wordInBank (off : Nat) : Nat := off / 2048 % 2048

/-- Word requests that a port may present per step (R105). -/
def portWords : BankPort → Nat
  | .feederA _ | .drain _ => 4
  | .feederB _ => 2
  | .scale _ => 1
  | .vector => 16
  | .hauler | .rotateOut | .rotateIn | .boughHub => 8

/-- A port presents a request: stamped as it arrives (R367, R368); a port presents no more than its words per step, those that still
wait among them. -/
def Branch.present (x : Branch) (q : PortRequest) : Branch :=
  if portWords q.port ≤ (x.waits.filter fun w => w.port = q.port).length then x
  else { x with waits := x.waits ++ [{ stamp := x.nextStamp, port := q.port, bank := bankOf q.offset.val, word := wordInBank q.offset.val }],
                nextStamp := x.nextStamp + 1 }

/-- The request that a bank grants: the oldest of those that have lost 32 decisions, else the oldest (R106, R367). Requests stand in
the order of their stamps. -/
def bankGrant (l : List BankWait) : Option BankWait := (l.find? fun w => 32 ≤ w.lost) <|> l.head?

/-- Each bank with a request decides once: the request granted leaves, and each other has lost a decision (R104, R106). -/
def Branch.decideBanks (x : Branch) : Branch × Nat :=
  let won := (List.range 32).filterMap fun k => (bankGrant (x.waits.filter fun w => w.bank = k)).map fun w => w.stamp
  let rest := x.waits.filter fun w => !won.contains w.stamp
  ({ x with waits := rest.map fun w => { w with lost := w.lost + 1 } }, rest.length)

/-- The requests of a handshake reach the banks of a branch, which decide; each lost decision is counted (R106, R120). -/
def State.bankRound (s : State) (b : BoughId) (r : BranchPos) (ws : List PortRequest) : State :=
  let (x, lost) := (ws.foldl Branch.present s.boughs[b].branches[r]).decideBanks
  (s.updBough b fun y => { y with branches := upd y.branches r fun _ => x }).count lost .bankConflicts b.val r.val

/-- A feeder of a leaf waits for a bank (R97, R106). -/
def State.feederWaits (s : State) (b : BoughId) (r : BranchPos) (l : LeafPos) : Bool :=
  (s.boughs[b].branches[r]).waits.any fun w => w.port = .feederA l || w.port = .feederB l || w.port = .scale l

/-- Change a claimant of a running descriptor. -/
def State.updUnit (s : State) (id : Nat) (u : Claimant) (f : RunUnit → RunUnit) : State :=
  s.updRun id fun r => { r with units := r.units.map fun x => if x.who = u then f x else x }

/-- The running descriptor that a claimant works for, with the claimant's state. -/
def State.unitOf (s : State) (u : Claimant) : Option (Run × RunUnit) :=
  s.hub.runs.findSome? fun r => (r.units.find? fun x => x.who = u).map fun x => (r, x)

/-- The bough of a claimant, and its branch where it has one. -/
def claimantBough : Claimant → BoughId
  | .leafGroup b _ _ | .vectorUnit b _ | .branchQueue b _ _ | .boughQueue b _ => b

def claimantBranch : Claimant → Option BranchPos
  | .leafGroup _ r _ | .vectorUnit _ r | .branchQueue _ r _ => some r
  | .boughQueue _ _ => none

/- Operands (R149). -/

/-- A filled chunk: every transfer into it has completed (R246). -/
def Chunk.filled (c : Chunk) : Bool := c.todo = [] && c.out = 0

/-- A code of an operand's element in extent: from its ring, or read in place (R149). -/
def State.operand (s : State) (_ : Run) (u : RunUnit) (n : Nat) (t : Tensor) (c : Coord) : Except Nat Nat :=
  match u.rings.find? fun g => g.slot = n && !g.out with
  | some g =>
    let i := t.linear c
    let found := (SMap.get none g.kept i) <|> g.chunks.findSome? fun ch => if some ch.tile = u.running then SMap.get none ch.data i else none
    .ok (found.getD 0)
  | none =>
    if t.rel then
      match claimantBranch u.who with
      | some p => s.localBits (claimantBough u.who) p (t.bitAddr c) t.width
      | none => .error stAccess
    else .error stAccess

/-- The code of an operand's element, or a zero code where it lies out of extent (R208). -/
def State.operandOr (s : State) (r : Run) (u : RunUnit) (n : Nat) (t : Tensor) (z : Nat) (c : Coord) : Except Nat Nat :=
  if t.inExtent c then s.operand r u n t c else .ok z

/- Work counters (R137, R195 to R206, R213). -/

/-- Change a work counter. -/
def State.updCtr (s : State) (b : BoughId) (c : Nat) (f : WorkCtr → WorkCtr) : State :=
  s.updBough b fun x => { x with counters := SMap.set {} x.counters (c % 256) (f (SMap.get {} x.counters (c % 256))) }

def State.ctr (s : State) (b : BoughId) (c : Nat) : WorkCtr := SMap.get {} s.boughs[b].counters c

/-- The running descriptor that holds a counter of a bough. -/
def State.ctrHolder (s : State) (b : BoughId) (c : Nat) : Option Run :=
  s.hub.runs.find? fun r => hasGrid (dOpcode r.desc) && dWorkCounter r.desc = c && r.shares.any fun h => h.bough = b

/-- Change the share of a bough. -/
def State.updShare (s : State) (id : Nat) (b : BoughId) (f : Share → Share) : State :=
  s.updRun id fun r => { r with shares := r.shares.map fun h => if h.bough = b then f h else h }

/-- A claimant takes a tile: it starts it where it runs none, else holds it in reserve (R202). -/
def RunUnit.take (u : RunUnit) (k : Nat) : RunUnit :=
  if u.running.isNone then { u with running := some k } else { u with held := some k }

/-- A claimant whose tile has ended, or been stepped through, starts the tile it holds. -/
def RunUnit.next (u : RunUnit) : RunUnit :=
  { u with running := u.held, held := none,
           emitted := false, indices := [],
           rings := u.rings.map fun g => { g with kept := [], taken := 0, takenPass := 0 } }

/-- A claim is answered with the sentinel (R201). -/
def State.giveSentinel (s : State) (r : Run) (u : RunUnit) : State :=
  (s.updUnit r.id u.who fun x => { x with sentinel := true }).count 1 .wcSentinels (claimantBough u.who).val

/- Ends of iterations (R24, R146, R204). -/

/-- A descriptor's transfers that are outstanding. -/
def State.xfersOf (s : State) (id : Nat) : List Xfer := s.hub.xfers.filter fun x => x.run = id

/-- Nothing of the descriptor is in motion: no tile running or waiting for its writeout, no output waiting in a ring, no transfer
outstanding. -/
def State.runIdle (s : State) (r : Run) : Bool :=
  (r.units.all fun u => u.running.isNone && u.held.isNone && u.finishing = [] && u.todo = [] &&
    u.rings.all fun g => !g.out || g.chunks = []) &&
  s.xfersOf r.id = [] && r.acks = [] &&
  !(s.boughs.toList.any fun b => b.sortWait.contains r.id || b.sortBusy = some r.id) &&
  r.passes.all fun p => p.2 = 0

/-- Every tile of every participating bough is finished (R204). -/
def Run.allDone (r : Run) : Bool := r.shares.all fun h => h.done = h.hi - h.lo

/-- The next iteration begins: counters return to their starts and seek again, claimants may claim again (R146, R204). -/
def State.nextIteration (s : State) (r : Run) : State :=
  let s := s.updRun r.id fun x => { x with
    iter := x.iter + 1
    shares := x.shares.map fun h => { h with seeked := false, done := 0, claims := [] }
    units := x.units.map fun u => { u with sentinel := false, rings := u.rings.map fun g =>
      { g with nextTile := none, nextIdx := 0, cut := none, kept := [], taken := 0, takenPass := 0, escGroup := none } } }
  r.shares.foldl (fun s h => s.updCtr h.bough (dWorkCounter r.desc) fun c =>
    { c with next := h.lo, done := 0, iter := (r.iter + 1) % 65536 }) s

/-- An iteration of a descriptor with a grid that is at its end ends: it signals where it signals each, and the next begins or the
descriptor is ready to complete; iterations that do no work end one after another. -/
def State.advanceLoop (id : Nat) : Nat → State → State
  | 0, s => s
  | fuel + 1, s =>
    match s.run? id with
    | none => s
    | some r =>
      if r.ready || r.stopped || !r.allDone || !s.runIdle r then s
      else
        let s := if dSignalEach r.desc then s.signal r.desc else s
        if r.iter + 1 < r.count then State.advanceLoop id fuel (s.nextIteration r)
        else s.updRun id fun x => { x with ready := true }

def State.advance (s : State) (id : Nat) : State :=
  match s.run? id with
  | none => s
  | some r => if hasGrid (dOpcode r.desc) then s.advanceLoop id (r.count + 1) else s

/-- A tile is finished (R204, R213). -/
def State.tileDone (s : State) (r : Run) (b : BoughId) : State :=
  let s := s.updShare r.id b fun h => { h with done := h.done + 1 }
  s.updCtr b (dWorkCounter r.desc) fun c => { c with done := c.done + 1 }

end Sys2Proof.Machine
end

