-- ==== Sys2Proof/Machine/Feeds.lean ====
section
/-! DEFINITION. What the feeders hold: scale records, weights and escapes, the steps of a tile, the side list, and how input rings fill
and empty (R65 to R69, R74 to R79, R81, R83, R97, R209, R251 to R253, R568). -/
namespace Sys2Proof.Machine
open Sys2Proof

/- Records, weights and escapes. -/

/-- A 16-bit float as FP32. -/
def half (n : Nat) : BitVec 32 := f32 (fp16.decode n)

/-- The scale record of a column and K place, or the per-tensor values (R66, R68): scale, zero-point byte, ESC_EN, SIDE_OFFSET. -/
structure ScaleRec where
  scale : BitVec 32
  zp : Nat
  esc : Bool
  offset : Nat
  deriving DecidableEq, Repr

def scaleRecOf (v : Nat) : ScaleRec := ⟨half (nbits v 15 0), nbits v 23 16, v.testBit 24, nbits v 63 32⟩

def State.scaleRec (s : State) (r : Run) (u : RunUnit) (kp n : Nat) : Except Nat ScaleRec :=
  let p := leafParams r.desc
  match r.groupSize, r.tensor 3 with
  | some g, some t =>
    match s.operandOr r u 3 t 0 [n, kp / g] with
    | .ok v => .ok (scaleRecOf v)
    | .error e => .error e
  | _, _ => .ok ⟨half p.scaleW, p.zpW, false, 0⟩

/-- Whether escapes apply (R74, R81, R87): weights of U2, U3 or U4 and an output other than S32. -/
def Run.escapes (r : Run) : Bool :=
  match r.tensor 1, r.tensor 2 with
  | some b, some o => b.fmt ≤ 2 && o.fmt ≠ 0xC
  | _, _ => false

/-- A column takes part in a pass: every column of a MATMUL, those of the pass's channel group in a CONV (R217, R218). -/
def Run.live (r : Run) (pass n : Nat) : Bool :=
  dOpcode r.desc ≠ opConv || (r.convGeo.groupOf n = pass && n < r.convGeo.n)

/-- A weight's code at a K place of a column, or none out of extent (R208). -/
def State.weightCode (s : State) (r : Run) (u : RunUnit) (t : Tensor) (kp n : Nat) (pos : List Nat) : Except Nat (Option Nat) :=
  let c := t.sharedDims (r.bCoord kp n pos)
  if t.inExtent c then (s.operand r u 1 t c).map some else .ok none

/-- Whether a code is an escape (R74, R76). -/
def isEscape (t : Tensor) (sr : ScaleRec) (use : Bool) (code : Nat) : Bool := use && sr.esc && code = 2 ^ fmtBits t.fmt - 1

/-- The side-list tensor as a line of entries. -/
def sideLine (t : Tensor) (n : Nat) : Tensor :=
  { t with ndim := 1, fmt := 0xA, layout := 0, dims := [n, 1, 1, 1, 1], ext := [n, 1, 1, 1, 1] }

/-- The side-list entry of that index; one at or beyond the tensor's size, or of no tensor, fails the job (R75, R77). -/
def State.sideEntry (s : State) (r : Run) (u : RunUnit) (i : Nat) : Except Nat Val :=
  match r.tensor 4 with
  | none => .error stData
  | some t =>
    if t.bufSize < 2 * i + 2 then .error stData
    else
      match s.operand r u 4 (sideLine t (t.bufSize / 2)) [i] with
      | .ok c => .ok (fp16.decode c)
      | .error e => .error e

/-- The scale record of an element of QUANT or DEQUANT, or the per-tensor values (R568). -/
def State.quantRec (s : State) (r : Run) (u : RunUnit) (t : Tensor) (c : Coord) : Except Nat (BitVec 32 × Nat × Bool × Nat) :=
  let ax := dParam r.desc 10 8
  let g := 32 * 2 ^ dParam r.desc 73 72
  match r.tensor 3 with
  | none => .ok (dParamF r.desc 32, dParam r.desc 71 64, false, 0)
  | some sc =>
    let inner := if t.ndim = 1 then 0 else if ax = 0 then c.at 1 else c.at 0
    (s.operandOr r u 3 sc 0 [inner, c.at ax / g]).map fun v =>
      let q := scaleRecOf v
      (q.scale, q.zp, q.esc, q.offset)

/-- Lists of results. -/
def collect {α β : Type} (f : α → Except Nat β) : List α → Except Nat (List β)
  | [] => .ok []
  | a :: l =>
    match f a with
    | .error e => .error e
    | .ok b =>
      match collect f l with
      | .error e => .error e
      | .ok bs => .ok (b :: bs)

/-- The index of the side-list entry of an element of DEQUANT, where the element is an escape: a group's escapes are counted along AXIS
on the element's own line (R74 to R76, R568). -/
def State.dequantEscape (s : State) (r : Run) (u : RunUnit) (t : Tensor) (c : Coord) (code : Nat) : Except Nat (Option Nat) := do
  let ax := dParam r.desc 10 8
  let g := 32 * 2 ^ dParam r.desc 73 72
  let (_, _, esc, off) ← s.quantRec r u t c
  let ones := 2 ^ fmtBits t.fmt - 1
  if t.fmt ≤ 2 && esc && t.inExtent c && code = ones then
    let i := c.at ax
    let before ← collect (fun k => s.operandOr r u 0 t 0 ((List.range 5).map fun d => if d = ax then k else c.at d))
      ((List.range (i % g)).map (i / g * g + ·))
    .ok (some (off + (before.filter (· = ones)).length))
  else .ok none

/- Steps. -/

/-- What a step of a leaf's tile does: the position, the pass and its number, the K positions of its slice, and whether it is the step
of the slice that adds its products: a 16-bit pair takes four steps for a position, G of 32 two for a slice (R68, R83). -/
structure StepPlan where
  pos : Nat
  posCoord : List Nat
  pass : Nat
  passNo : Nat
  ks : List Nat
  adds : Bool
  /-- The step is the position's last. -/
  last : Bool
  deriving DecidableEq, Repr

/-- The plan of step number t of a tile (R83, R209, R218). -/
def Run.stepPlan (r : Run) (k t : Nat) : StepPlan :=
  let lt := r.leafTile k
  let ps := max 1 r.passSteps
  let per := lt.passes.length * ps
  let pos := t / per
  let pn := t % per / ps
  let st := t % ps
  let kps := match r.tensor 0, r.tensor 1 with
    | some a, some b => kPerStep a.fmt b.fmt
    | _, _ => 1
  let each := (if kps = 0 then 4 else 1) * (if r.groupSize = some 32 then 2 else 1)
  let n := max 1 kps
  ⟨pos, lt.positions.getD pos [], lt.passes.getD pn 0, pos * lt.passes.length + pn,
    (List.range n).map (st / each * n + ·), st % each + 1 = each, t % per + 1 = per⟩

/-- Units of slot n that a step's slice lies in: the first and the last. -/
def Run.stepUnits (r : Run) (n : Nat) (p : StepPlan) : Nat × Nat :=
  (r.unitOf n (min (p.ks.headD 0) (r.kValid - 1)), r.unitOf n (min (p.ks.getLastD 0) (r.kValid - 1)))

/-- A ring holds a unit of a pass of a tile: read by the feeder already, or in a filled chunk. -/
def SubRing.holds (g : SubRing) (k pass unit : Nat) : Bool :=
  (g.takenPass = pass && unit < g.taken) ||
  g.chunks.any fun c => c.tile = k && c.pass = pass && c.lo ≤ unit && unit < c.hi && c.filled

/-- A tile's part of a ring has been read whole: all of it is cut, and no chunk of it is left. -/
def SubRing.readWhole (g : SubRing) (k : Nat) : Bool := g.out || ((g.cut.any fun c => k ≤ c) && g.chunks.all fun c => c.tile ≠ k)

/-- The feeders hold the whole slice of step t (R97); the engines of ATTENTION have read the tile's operands. -/
def State.fedFor (r : Run) (u : RunUnit) (k t : Nat) : Bool :=
  if dOpcode r.desc = opAttention then
    u.rings.all fun g => g.readWhole k
  else
    let p := r.stepPlan k t
    u.rings.all fun g =>
      g.out ||
      (let (lo, hi) := r.stepUnits g.slot p
       (List.range (hi + 1 - lo)).all fun i => g.holds k p.passNo (lo + i))

/- The side list through its ring (R75, R252; log entry 56). -/

/-- What a side-list ring takes next. -/
inductive SideCut where
  /-- The tile's list is cut. -/
  | whole
  /-- Weights or records that decide it have not come. -/
  | unknown
  | cut (c : Cut) (group : Option Nat) (escs : List Nat)
  deriving DecidableEq, Repr

/-- Slots 1 and 3 hold a K range, in place or in their rings. -/
def RunUnit.knows (u : RunUnit) (k pass unit : Nat) : Bool :=
  u.rings.all fun g => g.out || (g.slot ≠ 1 && g.slot ≠ 3) || g.holds k pass unit

/-- The entries of a K range, by columns and K positions in order, with the escape counts of the group in progress after it. -/
def State.rangeEntries (s : State) (r : Run) (u : RunUnit) (k pass unit : Nat) (pos : List Nat) (g : SubRing) :
    List Nat × Option Nat × List Nat :=
  match r.tensor 1, r.groupSize with
  | some t, some gs =>
    let cols := r.tileCols k
    ((r.unitKs 1).getD unit []).foldl (fun (st : List Nat × Option Nat × List Nat) i =>
      let kp := r.kPlace i
      let escs := if st.2.1 = some (kp / gs) then st.2.2 else List.replicate cols.length 0
      let hits := (List.range cols.length).map fun j =>
        let n := cols.getD j 0
        if !r.live pass n then none
        else
          match s.scaleRec r u kp n, s.weightCode r u t kp n pos with
          | .ok sr, .ok (some code) => if isEscape t sr r.escapes code then some (sr.offset + escs.getD j 0) else none
          | _, _ => none
      (st.1 ++ hits.filterMap id, some (kp / gs),
        (List.range cols.length).map fun j => escs.getD j 0 + (if (hits.getD j none).isSome then 1 else 0)))
      ([], if unit = 0 then none else g.escGroup, g.escs)
  | _, _ => ([], none, [])

/-- The entries of a tile of DEQUANT, in the order of its elements. -/
def State.tileEntries (s : State) (r : Run) (u : RunUnit) (k : Nat) : List Nat :=
  match r.tensor 0, r.tensor 2 with
  | some t, some o =>
    ((boxCoords (o.clip (r.gridBox k))).filterMap fun c =>
      match s.operandOr r u 0 t 0 c with
      | .ok code =>
        match s.dequantEscape r u t c code with
        | .ok i => i
        | .error _ => none
      | .error _ => none).eraseDups
  | _, _ => []

/-- The next chunk of a side-list ring for a tile; an entry beyond the tensor is not fetched (R77). -/
def State.sideCut (s : State) (r : Run) (u : RunUnit) (g : SubRing) (k : Nat) : SideCut :=
  match r.tensor 4 with
  | none => .whole
  | some t =>
    let inside := fun l : List Nat => (l.filter fun i => 2 * i + 2 ≤ t.bufSize).map fun i => ([i] : Coord)
    if isProduct (dOpcode r.desc) then
      let n := (r.unitKs 1).length
      let lt := r.leafTile k
      let pass := g.nextIdx / max 1 n
      let unit := g.nextIdx % max 1 n
      if n = 0 || lt.positions.length * lt.passes.length ≤ pass then .whole
      else if !u.knows k pass unit then .unknown
      else
        let (es, grp, escs) := s.rangeEntries r u k (lt.passes.getD (pass % lt.passes.length) 0) unit
          (lt.positions.getD (pass / lt.passes.length) []) g
        .cut ⟨pass, unit, unit + 1, inside es.eraseDups⟩ grp escs
    else
      let known := some k = u.running && u.rings.all fun h => h.slot = 4 || h.readWhole k
      if !known then .unknown
      else
        let per := max 1 (g.slotBytes / 2)
        let es := inside (s.tileEntries r u k)
        if es.length ≤ g.nextIdx * per then .whole
        else .cut ⟨0, g.nextIdx, g.nextIdx + 1, (es.drop (g.nextIdx * per)).take per⟩ none []

/- Sub-rings (R251 to R254). -/

/-- The next tile an input ring cuts, after those already cut. -/
def SubRing.aim (g : SubRing) (u : RunUnit) : SubRing :=
  if g.nextTile.isSome then g
  else
    let past := fun k => match g.cut with
      | none => true
      | some c => c < k
    match u.running, u.held with
    | some k, h => if past k then { g with nextTile := some k, nextIdx := 0 }
        else match h with
          | some k' => if past k' then { g with nextTile := some k', nextIdx := 0 } else g
          | none => g
    | none, some k => if past k then { g with nextTile := some k, nextIdx := 0 } else g
    | none, none => g

/-- A cut as the chunk it becomes. -/
def SubRing.chunkOf (g : SubRing) (k : Nat) (t : Tensor) (c : Cut) : Chunk :=
  { tile := k, idx := g.nextIdx, pass := c.pass, lo := c.lo, hi := c.hi, todo := t.readMoves g.shift c.cs, out := 0, data := [] }

/-- Slots take the next chunks in the order of consumption (R253), with whether one does not fit its slot (R250). -/
def State.refill (s : State) (r : Run) (u : RunUnit) : Nat → SubRing → SubRing × Bool
  | 0, g => (g, false)
  | fuel + 1, g =>
    if g.out || g.slots ≤ g.chunks.length then (g, false)
    else
      let g := g.aim u
      match g.nextTile, r.tensor g.slot with
      | some k, some t =>
        let cutting : SubRing := { g with nextTile := none, cut := some k }
        if g.slot = 4 then
          let t := sideLine t (t.bufSize / 2)
          match s.sideCut r u g k with
          | .whole => s.refill r u fuel cutting
          | .unknown => (g, false)
          | .cut c grp escs =>
            if g.slotBytes < t.bytesOf c.cs.length then (g, true)
            else s.refill r u fuel { g with chunks := g.chunks ++ [g.chunkOf k t c], nextIdx := g.nextIdx + 1, escGroup := grp, escs := escs }
        else
          match (r.inChunks g.slotBytes g.slot k)[g.nextIdx]? with
          | none => s.refill r u fuel cutting
          | some c => s.refill r u fuel { g with chunks := g.chunks ++ [g.chunkOf k t c], nextIdx := g.nextIdx + 1 }
      | _, _ => (g, false)

/-- Whether an operation reads a chunk whole as soon as it is filled: vector units, and the engines of ATTENTION. -/
def eatsWhole (op : Nat) : Bool := isVuOp op || op = opAttention

/-- The elements of a chunk that a consumer has read. -/
def SubRing.read (g : SubRing) (c : Chunk) : SubRing :=
  { g with kept := c.data.foldl (fun m p => SMap.set none m p.1 p.2) g.kept }

/-- Filled chunks of the running tile at the ring's head are read and released (R253). -/
def SubRing.eat (running : Option Nat) : Nat → SubRing → SubRing
  | 0, g => g
  | fuel + 1, g =>
    match g.chunks with
    | c :: rest =>
      if !g.out && some c.tile = running && c.filled then
        SubRing.eat running fuel { g.read c with chunks := rest }
      else g
    | [] => g

/-- A feeder whose slice reaches past the chunk at the head reads its part of that chunk and releases the slot (R253). -/
def SubRing.takeHead (g : SubRing) (k pass hi : Nat) : Nat → SubRing
  | 0 => g
  | fuel + 1 =>
    match g.chunks with
    | c :: rest =>
      if !g.out && c.tile = k && c.pass = pass && c.filled && c.hi ≤ hi then
        ({ g.read c with chunks := rest, takenPass := pass, taken := c.hi }).takeHead k pass hi fuel
      else g
    | [] => g

/-- Where the leaves of a group stand in their tile: the least step. -/
def State.groupStep (s : State) (r : Run) (u : RunUnit) : Nat :=
  match u.who with
  | .leafGroup b p j =>
    (groupLeaves (dGang r.desc) j.val).foldl (fun a l => min a (s.leaf b p l).step) (u.running.elim 0 r.tileSteps)
  | _ => 0

/-- A consumer reads from the head of its ring what it can. -/
def State.readHead (s : State) (r : Run) (u : RunUnit) (g : SubRing) : SubRing :=
  if eatsWhole (dOpcode r.desc) then g.eat u.running 16
  else
    match u.running with
    | none => g
    | some k =>
      let t := s.groupStep r u
      if r.tileSteps k ≤ t then g
      else
        let p := r.stepPlan k t
        g.takeHead k p.passNo (r.stepUnits g.slot p).2 16

/-- ACC_OUT loads the existing output of a leaf's next set through the output's ring (R149, R159): the chunk of a leaf and position. -/
def loadIdx (l : LeafPos) (pos : Nat) : Nat := 4 * pos + l.val

/-- A descriptor accumulates into an output that a ring moves. -/
def Run.loadsOut (r : Run) : Bool :=
  isMatmul (dOpcode r.desc) && (leafParams r.desc).accOut && (r.tensor 2).any fun o => !o.rel

/-- The leaves of a group ask for what their next sets load. -/
def State.askLoads (s : State) (r : Run) (u : RunUnit) : RunUnit :=
  if !r.loadsOut then u
  else
    match u.who, u.running, r.tensor 2, u.rings.find? (fun g => g.slot = 2 && g.out) with
    | .leafGroup b p j, some k, some o, some g =>
      (groupLeaves (dGang r.desc) j.val).foldl (fun u l =>
        let x := s.leaf b p l
        let pos := if r.tileSteps k = 0 then x.step else (r.stepPlan k x.step).pos
        if x.fill.isSome || (r.leafTile k).positions.length ≤ pos || (u.loads.any fun c => c.tile = k && c.idx = loadIdx l pos) then u
        else { u with loads := u.loads ++ [{ tile := k, idx := loadIdx l pos, todo := o.readMoves g.shift (r.setCoords l k pos), out := 0, data := [] }] }) u
    | _, _, _, _ => u

/-- A claimant's rings after any change, slot by slot: chunks are read where they can be, and freed slots take the next; a stopped
descriptor's take no more (R256). -/
def State.settleUnit (s : State) (r : Run) (u : RunUnit) : RunUnit × Bool :=
  let (u, bad) := (List.range u.rings.length).foldl (fun (x : RunUnit × Bool) i =>
    match x.1.rings[i]? with
    | none => x
    | some g =>
      let g := s.readHead r x.1 g
      let (g, b) := if r.stopped then (g, false) else s.refill r x.1 64 g
      ({ x.1 with rings := x.1.rings.set i g }, x.2 || b)) (u, false)
  (s.askLoads r u, bad)

/-- Every claimant of a descriptor settles its rings; a chunk that does not fit its slot fails the job (R250). -/
def State.settleUnits (s : State) (id : Nat) : State :=
  match s.run? id with
  | none => s
  | some r =>
    let us := r.units.map (s.settleUnit r)
    let s := s.updRun id fun x => { x with units := us.map (·.1) }
    match (r.units.zip us).find? fun p => p.2.2 with
    | some p => (s.failRun r stData (claimantBough p.1.who).val)
    | none => s

end Sys2Proof.Machine
end

