-- ==== Sys2Proof/Machine/Leaves.lean ====
section
/-! DEFINITION. The leaves: array steps, escapes, group arithmetic, the drain's epilogue and writeout, and the rows of ATTENTION
(R57, R60 to R101, R159, R209, R271 to R276). -/
namespace Sys2Proof.Machine
open Sys2Proof

/-- What the weight of a K position and column is to a step (R79, R84): the value sent into the array, and the side-list value of
an escape. -/
structure Weight where
  w : Val
  escape : Option Val
  deriving DecidableEq, Repr

/-- Integer operand pairs accumulate in S32, others in FP32 (R60). -/
def intPair (a b : Nat) : Bool := fmtInt a && fmtInt b

/-- The number a code stands for in a sum of products: an integer code less the zero point (R70, R73). -/
def centred (fmt code : Nat) (z : Int) : Val :=
  if fmtInt fmt then
    let q : Int := if fmtSigned fmt then sInt (fmtBits fmt) code else (code % 2 ^ fmtBits fmt : Nat)
    valOfInt (q - z)
  else decodeElem fmt code

/-- The weight of a K position and column as the B feeder sends it, with the flags it sets: `before` escapes of its group have gone
before (R75). A position out of extent or beyond K is padding and adds nothing (R63, R76). -/
def State.weight (s : State) (r : Run) (u : RunUnit) (t : Tensor) (i n before : Nat) (pos : List Nat) : Except Nat (Weight × NumFlags) :=
  if r.kValid ≤ i then .ok (⟨.fin false 0 0, none⟩, 0)
  else do
    let kp := r.kPlace i
    let sr ← s.scaleRec r u kp n
    let ign := flagIf (sr.esc && !r.escapes) fEscIgnored
    match ← s.weightCode r u t kp n pos with
    | none => .ok (⟨.fin false 0 0, none⟩, ign)
    | some code =>
      if isEscape t sr r.escapes code then
        let e ← s.sideEntry r u (sr.offset + before)
        .ok (⟨.fin false 0 0, some e⟩, ign)
      else .ok (⟨centred t.fmt code (zeroPoint t.fmt sr.zp), none⟩, ign)

/-- Zero point of the activations (R62, R64). -/
def Run.actZero (r : Run) (t : Tensor) : Int := zeroPoint t.fmt (leafParams r.desc).zpA

/-- The activation of a row at a K position: its value less the zero point (R70, R73); padding adds nothing (R63, R224). -/
def State.activation (s : State) (r : Run) (u : RunUnit) (t : Tensor) (m i : Nat) (pos : List Nat) (pass : Nat) : Except Nat Val :=
  let z := r.actZero t
  let zero : Val := .fin false 0 0
  let read := fun c => if t.inExtent c then (s.operand r u 0 t c).map fun code => centred t.fmt code z else .ok zero
  if r.kValid ≤ i then .ok zero
  else if dOpcode r.desc = opConv then
    match r.convTap t m pos pass i with
    | .inl (some c) => read c
    | .inl none => .ok zero
    | .inr _ => .ok (centred t.fmt (windowOf r.desc).padConst z)
  else read (if dOpcode r.desc = opMatmulTa then [m, i] ++ pos else [i, m] ++ pos)

/-- The integer a value holds. -/
def Val.toInt : Val → Int
  | .fin n m e => if n then -((m * 2 ^ e.toNat : Nat) : Int) else (m * 2 ^ e.toNat : Nat)
  | _ => 0

/-- An S32 accumulation that leaves the range saturates (R57). -/
def satS32 (t : Int) : Int × NumFlags :=
  if t < -(2 ^ 31) then (-(2 ^ 31), fSaturated) else if 2 ^ 31 ≤ t then (2 ^ 31 - 1, fSaturated) else (t, 0)

/-- What one output element takes from a step: its accumulator, the exact sum of the group and the S32 sum of the groups before it,
the products that wait, and the flags. -/
structure ElemAcc where
  acc : BitVec 32
  isum : Int
  sum : Int
  terms : List Val
  flags : NumFlags
  deriving DecidableEq, Repr

/-- One output element takes one K position (R70, R73, R79): the product is exact; an escape's product goes to the FP32 accumulator
at once. DESIGN CHOICE (log entry 55): within an element the additions come in K order, a position's escape before its group's p. -/
def elemTake (ints : Bool) (sA : BitVec 32) (a : Val) (w : Weight) (x : ElemAcc) : ElemAcc :=
  match w.escape with
  | some e => { x with acc := fadd x.acc (fmul (f32 (e.mul a)) sA) }
  | none =>
    if ints then { x with isum := x.isum + (a.mul w.w).toInt }
    else { x with terms := x.terms ++ [a.mul w.w] }

/-- The group ends: its sum is scaled and added to the accumulator (R72); an S32 output takes the S32 sum of D_g (R87). DESIGN CHOICE
(log entry 55): an S32 accumulation saturates once for each D_g and once for each sum of them. `n` numbers the free order of a
floating group's sum. -/
def elemFold (ints s32 : Bool) (n : Nat) (c : BitVec 32) (x : ElemAcc) : ElemAcc :=
  if ints then
    let (d, g) := satS32 x.isum
    if s32 then
      let (t, h) := satS32 (x.sum + d)
      { x with sum := t, isum := 0, flags := x.flags ||| g ||| h }
    else { x with acc := fadd x.acc (fmul (fofInt d) c), isum := 0, flags := x.flags ||| g }
  else { x with acc := fadd x.acc (fmul (sumVals n (.fin false 0 0 :: x.terms)) c), terms := [] }

/-- A new position finds a set free (R90). -/
def Leaf.setFree (l : Leaf) : Bool := l.fill.isSome || l.drain.length < 2

/-- A set at zero. -/
def blankSet (k pos : Nat) : LeafSet :=
  { tile := k, pos := pos, acc := List.replicate 4096 0, isum := List.replicate 4096 0, sum := List.replicate 4096 0,
    terms := List.replicate 4096 [], escs := List.replicate 64 0 }

/-- A set that begins: accumulators at zero, or at the existing output with ACC_OUT, read in place or loaded through the ring (R159). -/
def State.beginSet (s : State) (r : Run) (u : RunUnit) (l : LeafPos) (k pos : Nat) : Except Nat LeafSet :=
  match r.tensor 2 with
  | some o =>
    if (leafParams r.desc).accOut && isMatmul (dOpcode r.desc) then
      let lt := r.leafTile k
      let g := dGang r.desc
      let load := u.loads.find? fun c => c.tile = k && c.idx = loadIdx l pos
      let cell := fun i : Nat =>
        let c := r.outCoord o (lt.m0 + leafRow g l + i / 64) (lt.n0 + leafCol g l + i % 64) (lt.positions.getD pos [])
        if !o.inExtent c then .ok 0
        else
          match load with
          | some ch => .ok (BitVec.ofNat 32 ((SMap.get none ch.data (o.linear c)).getD 0))
          | none => (s.operand r { u with rings := [] } 2 o c).map (BitVec.ofNat 32)
      match collect cell (List.range 4096) with
      | .ok acc => .ok { blankSet k pos with acc := acc }
      | .error e => .error e
    else .ok (blankSet k pos)
  | none => .ok (blankSet k pos)

/-- Everything a leaf's set takes from one K position of a slice, and the fold where a group ends there: the set after it, the flags
and the escapes met (R70 to R76). -/
def State.takeK (s : State) (r : Run) (u : RunUnit) (l : LeafPos) (k : Nat) (p : StepPlan) (a b o : Tensor) (lastOfStep : Bool) (i : Nat)
    (x : LeafSet) : Except Nat (LeafSet × NumFlags × Nat) := do
  let lt := r.leafTile k
  let g := dGang r.desc
  let rows := (List.range 64).map (lt.m0 + leafRow g l + ·)
  let cols := (List.range 64).map (lt.n0 + leafCol g l + ·)
  let ints := intPair a.fmt b.fmt
  let sA := (leafParams r.desc).scaleA
  let av ← collect (fun m => s.activation r u a m i p.posCoord p.pass) rows
  let wv ← collect (fun j => if r.live p.pass (cols.getD j 0) then s.weight r u b i (cols.getD j 0) (x.escs.getD j 0) p.posCoord
    else .ok (⟨.fin false 0 0, none⟩, 0)) (List.range 64)
  let ends := if i + 1 < r.kValid then r.groupSize.any fun gs => r.kPlace i / gs ≠ r.kPlace (i + 1) / gs else lastOfStep
  let cs ← if ends then collect (fun n => (s.scaleRec r u (r.kPlace (min i (r.kValid - 1))) n).map fun q => fmul q.scale sA) cols else .ok []
  let cells := (List.range 4096).map fun c =>
    let e : ElemAcc := ⟨x.acc.getD c 0, x.isum.getD c 0, x.sum.getD c 0, x.terms.getD c [], 0⟩
    if !r.live p.pass (cols.getD (c % 64) 0) then e
    else
      let e := elemTake ints sA (av.getD (c / 64) .nan) (wv.getD (c % 64) (⟨.nan, none⟩, 0)).1 e
      if ends then elemFold ints (o.fmt = 0xC) (s.free + 4096 * (i % 4) + c) (cs.getD (c % 64) 0) e else e
  let hit := fun j => ((wv.map fun w => w.1.escape.isSome).getD j false)
  .ok ({ x with acc := cells.map (·.acc), isum := cells.map (·.isum), sum := cells.map (·.sum), terms := cells.map (·.terms),
                escs := (List.range 64).map fun j => if ends then 0 else x.escs.getD j 0 + (if hit j then 1 else 0) },
    orFlags (cells.map (·.flags)) ||| orFlags (wv.map (·.2)), (wv.filter fun w => w.1.escape.isSome).length)

/-- A step of a leaf on its set (R82, R97): the set after it, the flags, and the escapes in its slice. Its K positions are taken one
after another, so that a slice in which a group ends folds each group with its own record (R72). -/
def State.stepSet (s : State) (r : Run) (u : RunUnit) (l : LeafPos) (k t : Nat) (x : LeafSet) : Except Nat (LeafSet × NumFlags × Nat) :=
  match r.tensor 0, r.tensor 1, r.tensor 2 with
  | some a, some b, some o =>
    let p := r.stepPlan k t
    if !p.adds then .ok (x, 0, 0)
    else
      p.ks.foldl (fun (acc : Except Nat (LeafSet × NumFlags × Nat)) i => do
        let (x, fl, n) ← acc
        let (x, fl', n') ← s.takeK r u l k p a b o (some i = p.ks.getLast?) i x
        .ok (x, fl ||| fl', n + n')) (.ok (x, 0, 0))
  | _, _, _ => .ok (x, 0, 0)

/-- The causes of a freeze, in the order in which they are counted (R101). -/
inductive Freeze where
  | feed | drain | escape | gang
  deriving DecidableEq, Repr

def Freeze.ob : Freeze → Ob
  | .feed => .leafFrozenFeed | .drain => .leafFrozenDrain | .escape => .leafFrozenEscape | .gang => .leafFrozenGang

/-- What ACC_OUT loads for the leaf's next set has come (R159). -/
def RunUnit.loaded (r : Run) (u : RunUnit) (k : Nat) (l : LeafPos) (pos : Nat) : Bool :=
  !r.loadsOut || u.loads.any fun c => c.tile = k && c.idx = loadIdx l pos && c.filled

/-- A leaf's own conditions for its next step (R97, 1 to 3): its feeders hold the slice and wait for no bank, its set is free and
loaded, and the extra steps of the slice before have passed. -/
def State.ownFreeze (s : State) (r : Run) (u : RunUnit) (b : BoughId) (p : BranchPos) (l : LeafPos) (k : Nat) : Option Freeze :=
  let x := s.leaf b p l
  if !State.fedFor r u k x.step || s.feederWaits b p l then some .feed
  else if !x.setFree || (x.fill.isNone && !u.loaded r k l (r.stepPlan k x.step).pos) then some .drain
  else if 0 < x.owed then some .escape
  else none

/-- Why a leaf cannot complete its next step, if it cannot (R97, R98): its own cause first, then its gang; a leaf a step ahead of its
group waits for it. -/
def State.leafFreeze (s : State) (r : Run) (u : RunUnit) (b : BoughId) (p : BranchPos) (l : LeafPos) (k : Nat) (group : List LeafPos) : Option Freeze :=
  match s.ownFreeze r u b p l k with
  | some f => some f
  | none =>
    let t := (s.leaf b p l).step
    if group.any (fun m => (s.leaf b p m).step < t || ((s.leaf b p m).step = t && (s.ownFreeze r u b p m k).isSome)) then some .gang
    else none

/-- A failed tile of a leaf group is dropped unwritten. -/
def State.dropTile (s : State) (r : Run) (u : RunUnit) (b : BoughId) (p : BranchPos) (k : Nat) (group : List LeafPos) : State :=
  let s := group.foldl (fun s l => s.updLeaf b p l fun x => { x with step := 0, owed := 0, fill := none, drain := x.drain.filter (·.tile ≠ k) }) s
  s.updUnit r.id u.who fun x => { x with running := none, finishing := x.finishing.filter (· ≠ k), loads := [] }

/-- Chunks of the running tile that no leaf of the group needs any more are released (R253), and what the feeder held of a slice is
behind it. -/
def State.releaseChunks (s : State) (r : Run) (u : RunUnit) (k : Nat) : State :=
  let total := r.tileSteps k
  let t := s.groupStep r u
  let pl := r.stepPlan k t
  let keep := fun g : SubRing =>
    if g.out || eatsWhole (dOpcode r.desc) then g
    else if t = total then { g with chunks := g.chunks.filter (·.tile ≠ k), kept := [] }
    else
      let lo := (r.stepUnits g.slot pl).1
      { g with chunks := g.chunks.filter fun c => !(c.tile = k && (c.pass < pl.passNo || (c.pass = pl.passNo && c.hi ≤ lo))),
               kept := if pl.ks.head? = (r.stepPlan k (t - 1)).ks.head? then g.kept else [] }
  s.updUnit r.id u.who fun x => { x with rings := x.rings.map keep }

/-- The group's tile is stepped through: it waits for its writeouts, and the tile held in reserve starts (R202). -/
def State.tileStepped (s : State) (r : Run) (u : RunUnit) (b : BoughId) (p : BranchPos) (k : Nat) (group : List LeafPos) : State :=
  let s := group.foldl (fun s l => s.updLeaf b p l fun x => { x with step := 0 }) s
  (s.updUnit r.id u.who fun x => ({ x with finishing := x.finishing ++ [k], loads := [] }).next).settleUnits r.id

/-- A leaf completes its step: the set, the steps, and what the step's end brings (R28, R82, R85, R97). -/
def State.leafAdvance (s : State) (r : Run) (u : RunUnit) (b : BoughId) (p : BranchPos) (l : LeafPos) (k : Nat) (group : List LeafPos)
    (x : LeafSet) (last : Bool) (esc : Nat) : State :=
  let s := s.updLeaf b p l fun y => { y with
    step := y.step + 1, owed := esc - 1, active := true,
    fill := if last then none else some x,
    drain := if last then y.drain ++ [x] else y.drain }
  let s := s.count 1 .leafSteps b.val p.val
  if group.all (fun m => (s.leaf b p m).step = r.tileSteps k) then (s.releaseChunks r u k).tileStepped r u b p k group
  else (s.releaseChunks r u k).settleUnits r.id

/- ATTENTION (R273 to R275). -/

/-- exp of an FP32 value (R111, R112). -/
def fexp (x : BitVec 32) : BitVec 32 :=
  match fval x with
  | .nan => f32 .nan
  | .inf n => if n then fzero else x
  | .fin _ m _ => if m = 0 then fone else approxFn 0x20 x

/-- Blocks of W positions below a bound. -/
def blocksBelow (n w : Nat) : List (List Nat) :=
  (List.range ((n + w - 1) / w)).map fun i => ((List.range w).map (i * w + ·)).filter (· < n)

/-- The running values of a row of R273: m, s and o. -/
structure AttnAcc where
  m : BitVec 32
  s : BitVec 32
  o : List (BitVec 32)
  deriving DecidableEq, Repr

/-- One row of R273 before the output's conversion, over the output columns: q is the row, kAt and vAt give the cached elements, `vis`
the positions it sees, `n0` numbers the free orders of its sums; none where no position is visible. The conversions of p set no flag:
they write no output (R58). -/
def attentionRow (d w vis n0 : Nat) (scaleQk scaleK scaleV : BitVec 32) (vfmt : Nat) (cols : List Nat) (q : List Val)
    (kAt vAt : Nat → Nat → Val) : Option (List (BitVec 32)) :=
  let c := fmul scaleQk scaleK
  let ninf := f32 (.inf true)
  let zero : Val := .fin false 0 0
  let z := (blocksBelow vis w).foldl (fun (st : AttnAcc) blk =>
    let base := n0 + blk.headD 0 * (cols.length + 4)
    let x := blk.map fun j => fmul c (sumVals (base + j % w) (zero :: (List.range d).map fun i => (q.getD i .nan).mul (kAt j i)))
    let mNew := fmax st.m (x.foldl fmax ninf)
    let rr := fexp (fsub st.m mNew)
    let p := x.map fun xj => decodeElem vfmt (encodeElem vfmt (fval (fexp (fsub xj mNew)))).1
    { m := mNew
      s := fadd (fmul st.s rr) (sumVals (base + w) (zero :: p))
      o := (List.range cols.length).map fun i =>
        fadd (fmul (st.o.getD i fzero) rr)
          (sumVals (base + w + 1 + i) (zero :: (blk.zip p).map fun e => e.2.mul (vAt e.1 (cols.getD i 0)))) }) ⟨ninf, fzero, cols.map fun _ => fzero⟩
  if (fval z.s).isZero then none else some (z.o.map fun oi => fmul (fdiv oi z.s) scaleV)

/-- The set of a leaf of an ATTENTION tile: its 64 × 64 results in FP32, and the rows that see no position (R85, R273). -/
def State.attentionSet (s : State) (r : Run) (u : RunUnit) (l : LeafPos) (k : Nat) : Except Nat LeafSet :=
  match r.tensor 0, r.tensor 1, r.tensor 2 with
  | some q, some kc, some vc =>
    let lt := r.leafTile k
    let g := dGang r.desc
    let h := (lt.positions.headD []).getD 0 0
    let d := q.extent 0
    let rows := (List.range 64).map (lt.m0 + leafRow g l + ·)
    let cols := (List.range 64).map (lt.n0 + leafCol g l + ·)
    let read := fun n (t : Tensor) c => (s.operandOr r u n t 0 c).map (decodeElem t.fmt)
    let rowResult := fun m => do
      let vis := if m < q.extent 1 then r.attnVisible m else 0
      let qv ← collect (fun i => read 0 q [i, m, h]) (List.range d)
      let kv ← collect (fun j => collect (fun i => read 1 kc [i, j, h]) (List.range d)) (List.range vis)
      let vv ← collect (fun j => collect (fun c => read 2 vc [c, j, h]) cols) (List.range vis)
      .ok (attentionRow d (attnW g) vis (s.free + m * 2 ^ 20) (dParamF r.desc 0) (dParamF r.desc 32) (dParamF r.desc 64) vc.fmt
        cols qv (fun j i => (kv.getD j []).getD i (.fin false 0 0)) (fun j c => (vv.getD j []).getD (c - lt.n0 - leafCol g l) (.fin false 0 0)))
    (collect rowResult rows).map fun rs =>
      { blankSet k 0 with acc := (rs.map fun o => o.getD (List.replicate 64 0)).flatten
                          blank := (List.range 64).filter fun i => (rs.getD i none).isNone }
  | _, _, _ => .ok (blankSet k 0)

/-- A tile whose valid K is empty, or of ATTENTION with no visible position, takes no step: a leaf's set of each position goes to the
drain as it begins, one at a time, and a load of ACC_OUT freezes it as before (R90, R159, R209). -/
def State.emptyTile (s : State) (r : Run) (u : RunUnit) (b : BoughId) (p : BranchPos) (l : LeafPos) (k : Nat) (group : List LeafPos) : State :=
  let n := (r.leafTile k).positions.length
  let x := s.leaf b p l
  let ends := fun s : State => if group.all fun m => n ≤ (s.leaf b p m).step then s.tileStepped r u b p k group else s
  if n ≤ x.step then ends s
  else if 2 ≤ x.drain.length || !u.loaded r k l x.step then s.count 1 .leafFrozenDrain b.val p.val
  else
    match (if dOpcode r.desc = opAttention then s.attentionSet r u l k else s.beginSet r u l k x.step) with
    | .error e => (s.dropTile r u b p k group).failRun r e b.val
    | .ok y =>
      let s := if isMatmul (dOpcode r.desc) && (leafParams r.desc).accOut then s.count 64 .leafFrozenDrain b.val p.val else s
      let s := s.updLeaf b p l fun z => { z with step := z.step + 1, drain := z.drain ++ [y] }
      (ends s).settleUnits r.id

/-- The claimant of a leaf: its running descriptor, its group and the leaves of the group. -/
def State.leafGroupOf (s : State) (b : BoughId) (p : BranchPos) (l : LeafPos) : Option (Run × RunUnit × List LeafPos) :=
  s.hub.runs.findSome? fun r =>
    if !isLeafOp (dOpcode r.desc) then none
    else
      r.units.findSome? fun u =>
        match u.who with
        | .leafGroup b' p' j =>
          let g := groupLeaves (dGang r.desc) j.val
          if b' = b && p' = p && g.contains l then some (r, u, g) else none
        | _ => none

/-- The running values of ATTENTION that the vector unit's latches hold as a tile ends: its results (R114). -/
def State.setLatches (s : State) (b : BoughId) (p : BranchPos) (l : List (BitVec 32)) : State :=
  s.updBough b fun x => { x with branches := upd x.branches p fun y => { y with latches := l.take 2048 } }

/-- The step of a leaf that finds nothing in its way. -/
def State.leafGo (s : State) (r : Run) (u : RunUnit) (b : BoughId) (p : BranchPos) (l : LeafPos) (k : Nat) (group : List LeafPos) : State :=
  let x := s.leaf b p l
  if dOpcode r.desc = opAttention then
    if x.step + 1 = r.tileSteps k then
      match s.attentionSet r u l k with
      | .error st => (s.dropTile r u b p k group).failRun r st b.val
      | .ok y => ((({ s with free := s.free + 2 ^ 27 }).setLatches b p y.acc).leafAdvance r u b p l k group y true 0)
    else s.leafAdvance r u b p l k group (x.fill.getD (blankSet k 0)) false 0
  else
    let pl := r.stepPlan k x.step
    let set : Except Nat LeafSet := match x.fill with
      | some y => .ok y
      | none => s.beginSet r u l k pl.pos
    match set.bind fun y => s.stepSet r u l k x.step y with
    | .error st => (s.dropTile r u b p k group).failRun r st b.val
    | .ok (y, fl, esc) =>
      let s := if x.fill.isNone && (leafParams r.desc).accOut && isMatmul (dOpcode r.desc) then s.count 64 .leafFrozenDrain b.val p.val else s
      let s := { s with free := s.free + 2 ^ 14 }
      (s.addFlags r fl).leafAdvance r u b p l k group y pl.last esc

/-- LEAF_STEP (R97): the requests that the branch's ports present reach the banks (R106); the leaf completes one array step, or is
counted frozen under the first cause that applies. A frozen interval is one of the extra steps that escapes ask for, whatever its
cause (R99). -/
def leafStep (b : BoughId) (p : BranchPos) (l : LeafPos) (e : WordError) (ws : List PortRequest) (s : State) : State :=
  let s := s.bankRound b p ws
  match s.leafGroupOf b p l with
  | none => s
  | some (r, u, group) =>
    match u.running with
    | none => s
    | some k =>
      if r.tileSteps k = 0 then s.emptyTile r u b p l k group
      else if r.tileSteps k ≤ (s.leaf b p l).step then s
      else
        match s.leafFreeze r u b p l k group with
        | some f => (s.count 1 f.ob b.val p.val).updLeaf b p l fun x => { x with owed := x.owed - 1 }
        | none =>
          let s := s.wordError b p e
          match e with
          | .uncorrectable _ => (s.dropTile r u b p k group).failRun r stUncorrectable b.val
          | _ => s.leafGo r u b p l k group

def execLeafStep (b : BoughId) (r : BranchPos) (l : LeafPos) (e : WordError × List PortRequest) (s : State) :
    Host.Outcome State Fault Refusal := done s (leafStep b r l e.1 e.2 s)

/- The drain (R85 to R90). -/

/-- The epilogue of one element (R86, R87): bias, activation, conversion. -/
def drainElem (p : LeafParams) (conv : Bool) (o : Tensor) (bias : Option (BitVec 32)) (acc : BitVec 32) (sum : Int) : Nat × NumFlags :=
  if o.fmt = 0xC then (codeOfInt 32 sum, 0)
  else
    let v := match bias with
      | some x => fadd acc x
      | none => acc
    let v := if p.act = 1 then fmax v fzero
      else if p.act = 2 && !conv then fmin (fmax v p.clampLo) p.clampHi
      else v
    if fmtInt o.fmt then quantise o.fmt v p.scaleOut (zeroPoint o.fmt p.zpOut) else encodeElem o.fmt (fval v)

/-- The bias of a column: the FP32 tensor over N, of local memory or of the device (R158). -/
def State.biasOf (s : State) (r : Run) (u : RunUnit) (n : Nat) : Except Nat (Option (BitVec 32)) :=
  match r.tensor 5 with
  | none => .ok none
  | some t =>
    if !t.inExtent [n] then .ok none
    else if t.rel then (s.operand r u 5 t [n]).map fun c => some (BitVec.ofNat 32 c)
    else
      match (s.readMem (.job r.claim) (t.bitAddr [n] / 8) 4).1 with
      | .ok bs => .ok (some (BitVec.ofNat 32 (leNat bs)))
      | .error f => .error f.status

/-- The code of one element of a set, with the flags of its conversion (R86, R273). -/
def State.setElem (s : State) (r : Run) (u : RunUnit) (o : Tensor) (col i : Nat) (x : LeafSet) : Except Nat (Nat × NumFlags) :=
  if dOpcode r.desc = opAttention then
    let z := zeroPoint o.fmt (dParam r.desc 135 128)
    if x.blank.contains (i / 64) then .ok (zeroCode o.fmt z, 0)
    else
      let v := x.acc.getD i fzero
      .ok (if fmtInt o.fmt then quantise o.fmt v (dParamF r.desc 96) z else encodeElem o.fmt (fval v))
  else
    (s.biasOf r u col).map fun bias =>
      drainElem (leafParams r.desc) (dOpcode r.desc = opConv) o bias (x.acc.getD i 0) (x.sum.getD i 0)

/-- The in-extent elements of a leaf's set with the codes written (R86, R96, R210). -/
def State.setCodes (s : State) (r : Run) (u : RunUnit) (l : LeafPos) (x : LeafSet) : Except Nat (List (Coord × Nat) × NumFlags) :=
  match r.tensor (outSlot (dOpcode r.desc)) with
  | none => .ok ([], 0)
  | some o =>
    let lt := r.leafTile x.tile
    let g := dGang r.desc
    let at_ := fun i => r.outCoord o (lt.m0 + leafRow g l + i / 64) (lt.n0 + leafCol g l + i % 64) (lt.positions.getD x.pos [])
    (collect (fun i => (s.setElem r u o (lt.n0 + leafCol g l + i % 64) i x).map fun e => ((at_ i, e.1), e.2))
      ((List.range 4096).filter fun i => o.inExtent (at_ i))).map fun es => (es.map (·.1), orFlags (es.map (·.2)))

/- Writing out (R89, R254). -/

/-- FILL of a zero-compressed output (R234). -/
def Run.zcFill (r : Run) (t : Tensor) : Nat :=
  if t.fmt = 0x5 || t.fmt = 0x6 then (if isLeafOp (dOpcode r.desc) then (leafParams r.desc).zpOut else 0) else 0

/-- Bytes of a ring slot in local memory as a chunk comes to lie in it: how a chunk lies in its slot is not stated, so they are
free (log entry 47). -/
def State.fillSlot (s : State) (u : Claimant) (g : SubRing) (idx : Nat) : State :=
  match claimantBranch u with
  | some p =>
    let (bs, s) := s.drawBytes g.slotBytes
    s.localWrite (claimantBough u) p (g.base + idx % max 1 g.slots * g.slotBytes) bs
  | none => s

/-- Elements of a zero-compressed output wait until every in-extent element of their block is there, for a block is written whole
(R234, R236): the elements of whole blocks, and what is kept. -/
def zcReady (t : Tensor) (kept : SMap (Option Nat)) (es : List (Coord × Nat)) : List (Coord × Nat) × SMap (Option Nat) :=
  let all := es.foldl (fun m e => SMap.set none m (t.linear e.1) (some e.2)) kept
  let whole := (t.zcBlocks (es.map (·.1))).filter fun blk => (t.valid blk.2).all fun c => (SMap.get none all (t.linear c)).isSome
  let cs := whole.flatMap fun blk => t.valid blk.2
  (cs.map fun c => (c, (SMap.get none all (t.linear c)).getD 0), cs.foldl (fun m c => SMap.set none m (t.linear c) none) all)

/-- The output of a claimant goes to its ring as chunks of whole lines, or in place into the branch (R149, R252, R254). -/
def State.emit (s : State) (r : Run) (u : RunUnit) (n k : Nat) (t : Tensor) (es : List (Coord × Nat)) : State :=
  match u.rings.find? fun g => g.slot = n && g.out with
  | some g =>
    let (es, kept) := if isZc t.layout then zcReady t u.zcKept es else (es, u.zcKept)
    let cuts := fitUnits t g.slotBytes 0 (t.outLines (es.map (·.1)))
    let chunks := (List.range cuts.length).map fun i =>
      let cs := (cuts.getD i ⟨0, 0, 0, []⟩).cs
      ({ tile := k, idx := g.nextIdx + i, todo := t.movesOut g.shift (r.zcFill t) (es.filter fun e => cs.contains e.1), out := 0, data := [] } : Chunk)
    let s := s.updUnit r.id u.who fun x => { x with zcKept := kept, rings := x.rings.map fun y =>
      if y.slot = n && y.out then { y with chunks := y.chunks ++ chunks, nextIdx := y.nextIdx + chunks.length } else y }
    chunks.foldl (fun s c => s.fillSlot u.who g c.idx) s
  | none =>
    match claimantBranch u.who with
    | some p => if t.rel then s.localPuts (claimantBough u.who) p (es.flatMap fun e => t.putsAt 0 e.1 e.2) else s
    | none => s

/-- A writeout finds a free slot in its ring (R254). -/
def RunUnit.outFree (u : RunUnit) (n : Nat) : Bool :=
  u.rings.all fun g => !(g.out && g.slot = n) || g.chunks.length < g.slots

/-- Every chunk of an output has come into a slot of its ring (R254). -/
def RunUnit.outHeld (u : RunUnit) : Bool := u.rings.all fun g => !g.out || g.chunks.length ≤ g.slots

/-- DRAIN_WRITEOUT_DONE (R85, R90, R254): the oldest set of a leaf is given to its ring, or written in place, chunk after chunk; it is
free again when its last chunk has found a slot. -/
def drainWriteoutDone (b : BoughId) (p : BranchPos) (l : LeafPos) (e : WordError) (s : State) : State :=
  match s.leafGroupOf b p l, (s.leaf b p l).drain with
  | some (r, u, group), x :: rest =>
    let slot := outSlot (dOpcode r.desc)
    let free := fun s : State => s.updLeaf b p l fun y => { y with drain := rest }
    if x.sent then (if u.outHeld then free s else s)
    else if !u.outFree slot then s
    else
      let e := errorIf e ((r.tensor 5).any fun t => t.rel && errorIn e t.base t.bufSize)
      let s := s.wordError b p e
      match e with
      | .uncorrectable _ => (s.dropTile r u b p x.tile group).failRun r stUncorrectable b.val
      | _ =>
        match s.setCodes r u l x, r.tensor slot with
        | .ok (es, fl), some t =>
          let s := (s.addFlags r fl).emit r u slot x.tile t es
          match s.leafGroupOf b p l with
          | some (_, u, _) =>
            if u.outHeld then free s
            else s.updLeaf b p l fun y => { y with drain := { x with sent := true } :: rest }
          | none => free s
        | .error st, _ => (s.dropTile r u b p x.tile group).failRun r st b.val
        | _, none => s
  | _, _ => s

def execDrainWriteoutDone (b : BoughId) (r : BranchPos) (l : LeafPos × WordError) (s : State) : Host.Outcome State Fault Refusal :=
  done s (drainWriteoutDone b r l.1 l.2 s)

end Sys2Proof.Machine
end

