-- ==== Sys2Proof/Machine/Vector.lean ====
section
/-! DEFINITION. The vector unit: what each of its operations writes for a tile (R111, R112, R161, R162, R228, R229, R294, R568). -/
namespace Sys2Proof.Machine
open Sys2Proof

/-- Elements of a tile's output by slot, with the flags set. -/
abbrev VuOut := List (Nat × List (Coord × Nat)) × NumFlags

/-- The place of an operand for a position of slot 0: dimension d is broadcast where its size is 1 and slot 0's is larger (R161). -/
def bcast (t t0 : Tensor) (c : Coord) : Coord :=
  (List.range 5).map fun d => if t.dim d = 1 && 1 < t0.dim d then 0 else c.at d

/-- An operand's element as a number. -/
def State.vuVal (s : State) (r : Run) (u : RunUnit) (n : Nat) (t : Tensor) (c : Coord) : Except Nat Val :=
  (s.operandOr r u n t 0 c).map (decodeElem t.fmt)

/-- An operand's element in FP32 (R111). -/
def State.vuF (s : State) (r : Run) (u : RunUnit) (n : Nat) (t : Tensor) (c : Coord) : Except Nat (BitVec 32) :=
  (s.vuVal r u n t c).map f32

/- Elementary functions (R111, R112). -/

/-- ±∞, ±0 and ±1 with a sign. -/
def finf (neg : Bool) : BitVec 32 := f32 (.inf neg)
def fzeroS (neg : Bool) : BitVec 32 := f32 (.fin neg 0 0)
def foneS (neg : Bool) : BitVec 32 := f32 (.fin neg 1 0)

/-- A special operand's IEEE 754 result for a function of R162, where it has one (R112). DEDUCED (log entry 55): SiLU and GELU, x
times a factor from 0 to 1, give ±0 at ±0 and −0 at −∞. -/
def vuSpecial (f : Nat) (x : Val) : Option (BitVec 32) :=
  match x with
  | .nan => some (f32 .nan)
  | .inf n =>
    if f = 0x0A then some (fzeroS n)
    else if f = 0x0B || f = 0x21 then some (if n then f32 .nan else fzero)
    else if f = 0x0C || f = 0x0E || f = 0x20 then some (if n then fzero else finf false)
    else if f = 0x0D || f = 0x0F then some (if n then f32 .nan else finf false)
    else if f = 0x10 || f = 0x11 then some (f32 .nan)
    else if f = 0x12 || f = 0x14 then some (foneS n)
    else if f = 0x13 then some (if n then fzero else fone)
    else some (if n then fzeroS true else finf false)
  | .fin n m _ =>
    if m = 0 then
      if f = 0x0A || f = 0x0B || f = 0x21 then some (finf n)
      else if f = 0x0C || f = 0x0E || f = 0x20 || f = 0x11 then some fone
      else if f = 0x0D || f = 0x0F then some (finf true)
      else if f = 0x13 then some (f32 (.fin false 1 (-1)))
      else some (fzeroS n)
    else if n && (f = 0x0B || f = 0x21 || f = 0x0D || f = 0x0F) then some (f32 .nan)
    else none

/-- A function whose rounding R111 only bounds. -/
def vuApprox (f : Nat) (x : BitVec 32) : BitVec 32 := (vuSpecial f (fval x)).getD (approxFn f x)

/-- FUNC on FP32 operands (R162): a is T0, b is T1 or SCALAR_A, c is T3; lo and hi bound clamp. DESIGN CHOICE (log entry 55): compare
with a NaN operand gives 0, and select passes the operand it chooses, with a NaN selector the first. -/
def vuFloat (f : Nat) (a b c lo hi : BitVec 32) : BitVec 32 :=
  if f = 0x00 then fadd a b
  else if f = 0x01 then fsub a b
  else if f = 0x02 then fmul a b
  else if f = 0x03 then ffma a b c
  else if f = 0x04 then fmin a b
  else if f = 0x05 then fmax a b
  else if f = 0x06 then f32 (fval a).abs
  else if f = 0x07 then f32 (fval a).neg
  else if f = 0x08 then fdiv a b
  else if f = 0x09 then fsqrt a
  else if f = 0x18 then fmax a fzero
  else if f = 0x19 then fmin (fmax a lo) hi
  else if f = 0x1A then (if (fval c).isZero then b else a)
  else if f = 0x1B then (if (fval b).lt (fval a) then fone else fzero)
  else vuApprox f a

/-- FUNC on integers, where the integer row of R111 lists it. -/
def vuInt (f : Nat) (a b : Int) : Option Int :=
  if f = 0x00 then some (a + b) else if f = 0x01 then some (a - b) else if f = 0x02 then some (a * b)
  else if f = 0x04 then some (min a b) else if f = 0x05 then some (max a b) else none

/-- One element of ELTWISE (R111, R162). -/
def State.eltwiseAt (s : State) (r : Run) (u : RunUnit) (t0 o : Tensor) (c : Coord) : Except Nat (Nat × NumFlags) := do
  let f := dParam r.desc 7 0
  let lo := dParamF r.desc 32
  let hi := dParamF r.desc 64
  let unary := unaryFn f
  let a ← s.vuVal r u 0 t0 c
  let second := if unary then none else r.tensor 1
  let b ← match second with
    | some t => s.vuVal r u 1 t (bcast t t0 c)
    | none => .ok (fval lo)
  let x ← match r.tensor 3 with
    | some t => s.vuVal r u 3 t (bcast t t0 c)
    | none => .ok (valOfInt 0)
  let bothInt := fmtInt t0.fmt && (second.any fun t => fmtInt t.fmt)
  if f = 0x1C then .ok (encodeElem o.fmt a)
  else
    match (if bothInt then vuInt f a.toInt b.toInt else none) with
    | some v =>
      if (o.fmt = 0x9 || o.fmt = 0xC) && t0.fmt = o.fmt && second.any (fun t => t.fmt = o.fmt) then
        .ok (codeOfInt (fmtBits o.fmt) v, 0)
      else .ok (encodeElem o.fmt (valOfInt v))
    | none => .ok (encodeElem o.fmt (fval (vuFloat f (f32 a) (f32 b) (f32 x) lo hi)))

/-- Places of the line along a dimension through a position, within the valid extent of that dimension. -/
def lineCoords (t : Tensor) (ax : Nat) (c : Coord) : List Coord :=
  (List.range (t.extent ax)).map fun i => (List.range 5).map fun d => if d = ax then i else c.at d

/-- The line of slot 0 along a dimension through a position; a line out of extent reads as zero codes (R208). -/
def State.vuLine (s : State) (r : Run) (u : RunUnit) (t : Tensor) (ax : Nat) (c : Coord) : Except Nat (List Val) :=
  collect (s.vuVal r u 0 t) (lineCoords t ax c)

/-- The valid elements of a line, for REDUCE (R112). -/
def State.vuValid (s : State) (r : Run) (u : RunUnit) (t : Tensor) (ax : Nat) (c : Coord) : Except Nat (List Val) :=
  collect (s.vuVal r u 0 t) ((lineCoords t ax c).filter t.inExtent)

/-- Index of the first NaN, else the lowest index of the element no other beats (R112). -/
def argBest (better : Val → Val → Bool) (l : List Val) : Nat :=
  match findIdxOpt Val.isNan l with
  | some i => i
  | none => ((List.range l.length).foldl (fun (b : Nat × Val) i => let v := l.getD i .nan; if better v b.2 then (i, v) else b) (0, l.headD .nan)).1

/-- REDUCE of one line (R112, R161): `n` numbers the free order of its sums. -/
def reduceLine (op ofmt n : Nat) (ints : Bool) (l : List Val) : Nat × NumFlags :=
  let xs := l.map f32
  let sum := sumTerms n xs
  if l = [] then
    encodeElem ofmt (if op = 0 || op = 6 then .fin false 0 0 else if op = 5 then .nan else if op = 1 then .inf true
      else if op = 2 then .inf false else valOfInt (-1))
  else if op = 1 || op = 2 then
    if ints then encodeElem ofmt (valOfInt ((l.map Val.toInt).foldl (if op = 1 then max else min) (l.headD .nan).toInt))
    else encodeElem ofmt (fval (xs.foldl (if op = 1 then fmax else fmin) (xs.headD fzero)))
  else if op = 3 then encodeElem ofmt (valOfInt (argBest (fun a b => b.lt a) l : Nat))
  else if op = 4 then encodeElem ofmt (valOfInt (argBest (fun a b => a.lt b) l : Nat))
  else if op = 5 then encodeElem ofmt (fval (fdiv sum (fofInt l.length)))
  else if op = 6 then encodeElem ofmt (fval (sumTerms n (xs.map fun x => fmul x x)))
  else encodeElem ofmt (fval sum)

/-- SOFTMAX of one line: exp(SCALE x − max) over their sum (DEDUCED, log entry 10). -/
def softmaxLine (n : Nat) (scale : BitVec 32) (l : List (BitVec 32)) : List (BitVec 32) :=
  let t := l.map (fmul scale)
  let m := t.foldl fmax (t.headD fzero)
  let e := t.map fun x => vuApprox 0x20 (fsub x m)
  let sum := sumTerms n e
  e.map fun x => fdiv x sum

/-- NORM of one line before gain and bias (DEDUCED, log entry 10): layer normalisation, or RMS normalisation. -/
def normLine (n kind : Nat) (eps : BitVec 32) (l : List (BitVec 32)) : List (BitVec 32) :=
  let len := fofInt l.length
  let mean := if kind = 0 then fdiv (sumTerms n l) len else fzero
  let d := if kind = 0 then l.map fun x => fsub x mean else l
  let var := fdiv (sumTerms (n + 1) (d.map fun x => fmul x x)) len
  let k := vuApprox 0x21 (fadd var eps)
  d.map fun x => fmul x k

/-- One element of SOFTMAX or NORM: the line through it is run whole (R161). -/
def State.lineAt (s : State) (r : Run) (u : RunUnit) (t o : Tensor) (c : Coord) : Except Nat (Nat × NumFlags) := do
  let ax := dParam r.desc 10 8
  let n := s.free + (t.linear ((List.range 5).map fun d => if d = ax then 0 else c.at d)) * 2
  let l ← s.vuLine r u t ax c
  let xs := l.map f32
  let i := c.at ax
  if dOpcode r.desc = opSoftmax then
    .ok (encodeElem o.fmt (fval ((softmaxLine n (dParamF r.desc 32) xs).getD i fzero)))
  else
    let y := (normLine n (dParam r.desc 7 0) (dParamF r.desc 32) xs).getD i fzero
    let y ← match r.tensor 1 with
      | some g => (s.vuF r u 1 g (bcast g t c)).map fun v => fmul y v
      | none => .ok y
    let y ← match r.tensor 3 with
      | some b => (s.vuF r u 3 b (bcast b t c)).map fun v => fadd y v
      | none => .ok y
    .ok (encodeElem o.fmt (fval y))

/-- One element of QUANT (R61, R568). -/
def State.quantAt (s : State) (r : Run) (u : RunUnit) (t o : Tensor) (c : Coord) : Except Nat (Nat × NumFlags) := do
  let (sc, zp, esc, _) ← s.quantRec r u t c
  let x ← s.vuF r u 0 t c
  let e := quantise o.fmt x sc (zeroPoint o.fmt zp)
  .ok (e.1, e.2 ||| flagIf esc fEscIgnored)

/-- One element of DEQUANT (R61, R74 to R78, R568); out of extent it is 0.0 (R63). -/
def State.dequantAt (s : State) (r : Run) (u : RunUnit) (t o : Tensor) (c : Coord) : Except Nat (Nat × NumFlags) := do
  let (sc, zp, esc, _) ← s.quantRec r u t c
  let ign := flagIf (esc && 2 < t.fmt) fEscIgnored
  if !t.inExtent c then .ok (encodeElem o.fmt (.fin false 0 0))
  else
    let code ← s.operand r u 0 t c
    match ← s.dequantEscape r u t c code with
    | some i => (s.sideEntry r u i).map (encodeElem o.fmt)
    | none =>
      let x := encodeElem o.fmt (fval (dequantise t.fmt code sc (zeroPoint t.fmt zp)))
      .ok (x.1, x.2 ||| ign)

/-- One element of POOL (R222, R228, R229). -/
def State.poolAt (s : State) (r : Run) (u : RunUnit) (t o : Tensor) (c : Coord) : Except Nat (Nat × NumFlags) := do
  let w := windowOf r.desc
  let mode := dParam r.desc 97 96
  let z := zeroPoint t.fmt (Config.poolZp r.desc).toNat
  let n := s.free + o.linear c
  let taps := (List.range w.kh).flatMap fun ky => (List.range w.kw).map fun kx =>
    (((c.at 2 * w.sy : Nat) : Int) - (w.padT : Int) + (ky * w.dy : Nat), ((c.at 1 * w.sx : Nat) : Int) - (w.padL : Int) + (kx * w.dx : Nat))
  let codes ← collect (fun (p : Int × Int) =>
    let inside := 0 ≤ p.1 && p.1 < t.extent 2 && 0 ≤ p.2 && p.2 < t.extent 1
    match w.tap p.1 p.2 (t.extent 2) (t.extent 1) with
    | .zero => .ok none
    | .const => .ok (some (w.padConst, false, true))
    | .at y x =>
      let q := [c.at 0, x, y, c.at 3, c.at 4]
      (s.operandOr r u 0 t (zeroCode t.fmt z) q).map fun v => some (v, inside, t.inExtent q)) taps
  let got := codes.filterMap id
  let used := if mode = 2 then got.filter (·.2.1) else got
  let val := fun v : Nat => decodeElem t.fmt v
  if mode = 0 then
    match used with
    | [] => .ok (zeroCode o.fmt z, 0)
    | (v, _) :: rest =>
      if fmtInt t.fmt then .ok (encodeElem o.fmt (valOfInt (rest.foldl (fun a q => max a (val q.1).toInt) (val v).toInt)))
      else .ok (encodeElem o.fmt (fval (rest.foldl (fun a q => fmax a (f32 (val q.1))) (f32 (val v)))))
  else
    let count := if mode = 1 then w.kh * w.kw else used.length
    if count = 0 then .ok (zeroCode o.fmt z, 0)
    else if fmtInt t.fmt then
      match fval (fdiv (sumTerms n (used.map fun q => fofInt (if q.2.2 then (val q.1).toInt - z else 0))) (fofInt count)) with
      | .fin neg m e =>
        let (v, fl) := clampInt o.fmt (rneInt neg m e + z)
        .ok (codeOfInt (fmtBits o.fmt) v, fl)
      | _ => .ok (zeroCode o.fmt z, 0)
    else .ok (encodeElem o.fmt (fval (fdiv (sumTerms n (used.map fun q => f32 (val q.1))) (fofInt count))))

/-- One element of OPT_STEP: p, m and v after the step (R294), the corrections 1 − β^t within 2 ulp. -/
def optElem (d t pfmt : Nat) (p g m v : BitVec 32) : (Nat × NumFlags) × (Nat × NumFlags) × (Nat × NumFlags) :=
  let lr := dParamF d 0
  let b1 := dParamF d 32
  let b2 := dParamF d 64
  let eps := dParamF d 96
  let decay := dParamF d 128
  let c1 := optCorrection b1 t
  let c2 := optCorrection b2 t
  let m' := fadd (fmul b1 m) (fmul (fsub fone b1) g)
  let v' := fadd (fmul b2 v) (fmul (fsub fone b2) (fmul g g))
  let stepv := fadd (fdiv (fdiv m' c1) (fadd (fsqrt (fdiv v' c2)) eps)) (fmul decay p)
  let p' := fsub p (fmul lr stepv)
  (encodeElem pfmt (fval p'), encodeElem 0xD (fval m'), encodeElem 0xD (fval v'))

def State.optCodes (s : State) (r : Run) (u : RunUnit) (k : Nat) : Except Nat VuOut :=
  match r.tensor 0, r.tensor 1, r.tensor 2, r.tensor 3 with
  | some tp, some tg, some tm, some tv =>
    (collect (fun c => do
      let p ← s.vuF r u 0 tp c
      let g ← s.vuF r u 1 tg c
      let m ← s.vuF r u 2 tm c
      let v ← s.vuF r u 3 tv c
      .ok (c, optElem r.desc r.arg tp.fmt p g m v)) (boxCoords (tp.clip (r.gridBox k)))).map fun es =>
      ([(0, es.map fun e => (e.1, e.2.1.1)), (2, es.map fun e => (e.1, e.2.2.1.1)), (3, es.map fun e => (e.1, e.2.2.2.1))],
        orFlags (es.map fun e => e.2.1.2 ||| e.2.2.1.2 ||| e.2.2.2.2))
  | _, _, _, _ => .ok ([], 0)

/-- What a vector unit writes for a tile. -/
def State.vuCodes (s : State) (r : Run) (u : RunUnit) (k : Nat) : Except Nat VuOut :=
  let op := dOpcode r.desc
  if op = opOptStep then s.optCodes r u k
  else
    match r.tensor 0, r.tensor 2 with
    | some t, some o =>
      let at_ : Coord → Except Nat (Nat × NumFlags) :=
        if op = opPool then s.poolAt r u t o
        else if op = opEltwise then s.eltwiseAt r u t o
        else if op = opReduce then fun c =>
          (s.vuValid r u t (dParam r.desc 10 8) c).map (reduceLine (dParam r.desc 7 0) o.fmt (s.free + o.linear c) (fmtInt t.fmt))
        else if op = opQuant then s.quantAt r u t o
        else if op = opDequant then s.dequantAt r u t o
        else s.lineAt r u t o
      (collect (fun c => (at_ c).map fun e => (c, e)) (boxCoords (o.clip (r.gridBox k)))).map fun es =>
        ([(2, es.map fun e => (e.1, e.2.1))], orFlags (es.map (·.2.2)))
    | _, _ => .ok ([], 0)

/-- What the vector latches hold as a tile of a fused operation ends: the maximum and the sum of each line of SOFTMAX, the mean and
the variance's line of NORM by its first element, the moments of OPT_STEP (R114; log entry 56). -/
def State.vuLatches (s : State) (r : Run) (u : RunUnit) (k : Nat) (outs : List (Nat × List (Coord × Nat))) : List (BitVec 32) :=
  let op := dOpcode r.desc
  if op = opOptStep then
    (outs.filter fun o => o.1 ≠ 0).flatMap fun o => o.2.map fun e => BitVec.ofNat 32 e.2
  else if op = opSoftmax || op = opNorm then
    match r.tensor 0 with
    | none => []
    | some t =>
      let ax := dParam r.desc 10 8
      let heads := (boxCoords (t.clip (r.gridBox k))).filter fun c => c.at ax = 0
      heads.flatMap fun c =>
        match s.vuLine r u t ax c with
        | .ok l =>
          let xs := l.map f32
          [xs.foldl fmax (xs.headD fzero), sumTerms (s.free + t.linear c) xs]
        | .error _ => []
  else []

/-- Every input ring of a vector unit's tile has been read whole. -/
def RunUnit.fedWhole (u : RunUnit) (k : Nat) : Bool := u.rings.all fun g => g.readWhole k

/-- Every output ring of a vector unit has a free slot for its tile's first chunk (R254). -/
def RunUnit.outsFree (u : RunUnit) : Bool := u.rings.all fun g => !g.out || g.chunks.length < g.slots

end Sys2Proof.Machine
end

