-- ==== Sys2Proof/Machine/Haulers.lean ====
section
/-! DEFINITION. The haulers: the moves of HAUL, SPACE_TO_DEPTH, DEPTH_TO_SPACE, GATHER and SCATTER, and transfers as queues issue
and complete them (R163, R210, R226, R227, R235, R244 to R247, R252 to R256, R530 to R534, R543). -/
namespace Sys2Proof.Machine
open Sys2Proof

/- Memory as a transfer meets it. -/

/-- How a read of a transfer is answered: with bytes, or by a transaction of that tag. -/
inductive Fetch where
  | bytes (bs : List Byte)
  | waits (tag : Nat)
  deriving DecidableEq, Repr

/- The links' transactions (R521 to R523, R530, R531). -/

/-- Change a link. -/
def State.updLink (s : State) (k : LinkId) (f : Link → Link) : State := { s with linkUnits := upd s.linkUnits k f }

/-- Bytes of a transaction (R521). -/
def SentTxn.size (t : SentTxn) : Nat :=
  match t.kind with
  | .readReq | .time => 16
  | .write => 16 + t.txn.data.length
  | .readCpl => 8 + t.txn.data.length
  | .writeAck => 8
  | .pair => 64

/-- The receive buffer a transaction needs (R522, log entry 21). -/
def SentTxn.buffer (t : SentTxn) : Fin 4 :=
  Fin.ofNat 4 (bitN t.txn.vc1 1 + (if t.kind = .readCpl || t.kind = .writeAck then 1 else 0))

/-- 64-byte credits and flits it takes. -/
def SentTxn.units (t : SentTxn) : Nat := (t.size + 63) / 64
def SentTxn.flits (t : SentTxn) : Nat := (t.size + 231) / 232

/-- A sender sends while it holds credits for the whole transaction and the replay buffer has room (R522, R523). -/
def State.canSend (s : State) (t : SentTxn) : Bool :=
  let l := s.linkUnits[t.link]
  l.state = .up && !l.retraining && t.units ≤ l.credits[t.buffer] && l.unacked.length + t.flits ≤ 256

/-- A transaction goes out: its credits are spent and its flits stand in the replay buffer. -/
def State.sendNow (s : State) (t : SentTxn) : State :=
  let s := s.updLink t.link fun l =>
    { l with credits := upd l.credits t.buffer fun c => c - t.units
             unacked := l.unacked ++ (List.range t.flits).map fun i => l.txSeq + BitVec.ofNat 16 i
             txSeq := l.txSeq + BitVec.ofNat 16 t.flits }
  { s with grove := { s.grove with sent := some t } }

/-- Transactions that wait are sent in order, buffer by buffer. -/
def State.drainTxns (s : State) : State :=
  let r := s.grove.waiting.foldl (fun (x : List SentTxn × State) t =>
    if (x.1.any fun u => u.link = t.link && u.buffer = t.buffer) || !x.2.canSend t then (x.1 ++ [t], x.2)
    else (x.1, x.2.sendNow t)) ([], s)
  { r.2 with grove := { r.2.grove with waiting := r.1 } }

/-- A transaction is handed to a link. -/
def State.sendTxn (s : State) (t : SentTxn) : State :=
  ({ s with grove := { s.grove with waiting := s.grove.waiting ++ [t] } }).drainTxns

/-- The link a request to a member leaves on, and whether it may (R530, R535). -/
def State.linkTo (s : State) (m : Nat) : Option LinkId :=
  let e := nbits (s.regN .groveRoute) (4 * m + 3) (4 * m)
  if e < 4 && !(s.reg .groveMemberFence).getLsbD m && s.linkUnits[(Fin.ofNat 4 e)].state = .up then some (Fin.ofNat 4 e) else none

/-- A request through the grove window is sent, cut at 256 bytes (R521, R530, R531): the tag of its first transaction, or the
status it fails with here. -/
def State.groveSend (s : State) (c : ClaimId) (m : Fin 16) (a len : Nat) (data : Option (List Byte)) : Except Nat Nat × State :=
  if (s.claimState c).confidential && !(s.reg .peerClaims m.val).getLsbD c.val then (.error stAccess, s)
  else
    match s.linkTo m.val with
    | none => (.error stPeer, s)
    | some k =>
      let first := s.grove.nextTag
      let parts := (List.range ((len + 255) / 256)).map fun i => (first + i, a + 256 * i, min 256 (len - 256 * i), 256 * i)
      let outs : List Outstanding := parts.map fun (tag, b, n, _) => ⟨tag, first, some k, m.val, c, data.isSome, b, n, none, s.now⟩
      let vc := s.linkUnits[k].dateline
      let txns : List SentTxn := parts.map fun (tag, b, n, o) =>
        ⟨k, if data.isSome then .write else .readReq, ⟨Fin.ofNat 16 s.member, m, c, vc, tag, b, n, ((data.getD []).drop o).take n⟩, .ok⟩
      let s := { s with grove := { s.grove with nextTag := first + parts.length, outstanding := s.grove.outstanding ++ outs,
                                                waiting := s.grove.waiting ++ txns } }
      (.ok first, s.drainTxns)

/- The PCIe port (R541 to R543). -/

/-- The port that serves an offset of the outbound row (R542). -/
def State.pciePort (s : State) (off : Nat) : Fin 2 := if s.pcie.strap = 2 && 0x20000000000 ≤ off then 1 else 0

/-- The link that serves an offset of the outbound row is up (R543). -/
def State.pcieUp (s : State) (off : Nat) : Bool := s.pcie.strap ≠ 3 && s.pcie.up[s.pciePort off]

/-- The ECAM configuration space of a port's range: its top 256 MiB, in root-port mode (R542). -/
def State.inEcam (s : State) (off : Nat) : Bool :=
  if s.pcie.strap = 1 then 0x40000000000 - 0x10000000 ≤ off
  else if s.pcie.strap = 2 then 0x20000000000 - 0x10000000 ≤ off % 0x20000000000
  else false

/-- A hauler's access to the outbound row fails here: ECAM, or the link not up (R542, R543). -/
def State.pcieFails (s : State) (off n : Nat) : Option Nat :=
  if s.inEcam off || s.inEcam (off + n - 1) then some stAccess
  else if !s.pcieUp off then some stFenced
  else none

/-- A read of outbound PCIe memory is sent (R541, R543). -/
def State.pcieSend (s : State) (c : ClaimId) (a len : Nat) : Except Nat Nat × State :=
  match s.pcieFails a len with
  | some e => (.error e, s)
  | none =>
    let tag := s.grove.nextTag
    let o : Outstanding := ⟨tag, tag, none, 0, c, false, a, len, none, s.now⟩
    (.ok tag, { s with grove := { s.grove with nextTag := tag + 1, outstanding := s.grove.outstanding ++ [o] } })

/-- A posted write to the outbound row. -/
def State.pcieWrite (s : State) (a : Nat) (bs : List Byte) : State := { s with pcie := { s.pcie with lastWrite := some (a, bs) } }

/-- A job's read of n bytes at a device address. -/
def State.xferRead (s : State) (r : Run) (a n : Nat) : Except Nat Fetch × State :=
  let s := s.touchAddr r.queue r.seq a
  if !s.sameRegion a n then (.error stAccess, s)
  else
    match s.region a with
    | .localMem b p off =>
      if s.boughs[b].state.inReset then (.error stFenced, s)
      else if (wordsOf off n).any (s.wordPoisoned b (Fin.ofNat 6 p)) then (.error stUncorrectable, s)
      else (.ok (.bytes (s.mem.readBytes a n)), s)
    | .grove m d =>
      match s.groveSend r.claim m d n none with
      | (.ok t, s) => (.ok (.waits t), s)
      | (.error e, s) => (.error e, s)
    | .pcie off =>
      match s.pcieSend r.claim off n with
      | (.ok t, s) => (.ok (.waits t), s)
      | (.error e, s) => (.error e, s)
    | _ =>
      match s.readMem (.job r.claim) a n with
      | (.ok bs, s) => (.ok (.bytes bs), s)
      | (.error f, s) => (.error f.status, s)

/-- The old bits of a byte that a write merges with (R33, R210): zero in a lost segment, free where the contents are unspecified. -/
def State.oldByte (s : State) (a i : Nat) : Byte :=
  match s.region a with
  | .dram d => if (s.seg (d / 2 ^ 21)).lost then 0 else if s.rawBurst d then Config.freeByte (s.free + i) else s.mem.read d
  | _ => s.mem.read a

/-- A row that is reached by transactions, so that a merge reads it first (log entry 56). -/
def State.remote (s : State) (a : Nat) : Bool :=
  match s.region a with
  | .grove _ _ | .pcie _ => true
  | _ => false

/-- A job's write of one run of bytes: written at once, or sent by a transaction of that tag; a failure gives its status. `olds` holds
bytes read ahead of the write. -/
def State.writeRun (s : State) (r : Run) (olds : SMap (Option Byte)) (a : Nat) (l : List (Nat × Nat)) : Except Nat (List Nat) × State :=
  let s := s.touchAddr r.queue r.seq a
  let bs := mergeRun ((List.range l.length).map fun i => (SMap.get none olds (a + i)).getD (s.oldByte (a + i) i)) l
  let s := { s with free := s.free + l.length }
  if !s.sameRegion a bs.length then (.error stAccess, s)
  else
    match s.region a with
    | .localMem b p off =>
      if s.boughs[b].state.inReset then (.error stFenced, s) else (.ok [], s.localWrite b (Fin.ofNat 6 p) off bs)
    | .grove m d =>
      match s.groveSend r.claim m d bs.length (some bs) with
      | (.ok t, s) => (.ok [t], s)
      | (.error e, s) => (.error e, s)
    | .pcie off =>
      match s.pcieFails off bs.length with
      | some e => (.error e, s)
      | none => (.ok [], s.pcieWrite a bs)
    | _ =>
      match s.writeMem (.job r.claim) a bs with
      | (none, s) => (.ok [], s)
      | (some f, s) => (.error f.status, s)

/-- A job's element writes; the first failure ends them. The tags of the transactions sent. -/
def State.writePuts (s : State) (r : Run) (olds : SMap (Option Byte)) (ps : List Put) : Except Nat (List Nat) × State :=
  (byteRuns (putBytes ps)).foldl (fun (x : Except Nat (List Nat) × State) run =>
    match x.1 with
    | .error e => (.error e, x.2)
    | .ok ts =>
      match x.2.writeRun r olds run.1 run.2 with
      | (.ok ts', s) => (.ok (ts ++ ts'), s)
      | (.error e, s) => (.error e, s)) (.ok [], s)

/- The moves of a hauler's tile. -/

/-- A tensor with its base as a device address, for a claimant; none where a relative base names no branch. -/
def absTensor (u : Claimant) (t : Tensor) : Option Tensor :=
  if !t.rel then some t
  else (claimantBranch u).map fun p => { t with base := t.base + localBase (claimantBough u) p.val, rel := false }

/-- What a mover writes to an element: an element of the source, the source's zero code (R208), or code 0 (R226). -/
inductive MoveSrc where
  | at (c : Coord)
  | zero
  | blank
  deriving DecidableEq, Repr

/-- The source's coordinate, where there is one. -/
def MoveSrc.coord : MoveSrc → Option Coord
  | .at c => some c
  | _ => none

/-- An element movement: what it writes, and the destination's coordinate. -/
abbrev Pair := MoveSrc × Coord

/-- A source element, or the zero code where it lies out of extent (R208). -/
def sourceAt (t : Tensor) (c : Coord) : MoveSrc := if t.inExtent c then .at c else .zero

/-- Channel of a coordinate, and the coordinate of a channel, in PLAIN or blocked layout (R215, R226). -/
def chanOf (t : Tensor) (c : Coord) : Nat := if isBlocked t.layout then c.at 3 * blockOf t.layout + c.at 0 else c.at 0
def chanCount (t : Tensor) : Nat := if isBlocked t.layout then t.extent 3 * blockOf t.layout else t.extent 0
def atChan (t : Tensor) (ch x y b : Nat) : Coord :=
  if isBlocked t.layout then [ch % blockOf t.layout, x, y, ch / blockOf t.layout, b] else [ch, x, y, b]
def batchOf (t : Tensor) (c : Coord) : Nat := if isBlocked t.layout then c.at 4 else c.at 3

/-- Source of an output element of SPACE_TO_DEPTH or DEPTH_TO_SPACE (R226, R227); a surplus channel takes code 0. -/
def blockSource (d : Nat) (t o : Tensor) (c : Coord) : MoveSrc :=
  let b := dParam d 3 0 + 1
  let ch := chanOf o c
  if dOpcode d = opS2d then
    let n := chanCount t
    if n * b * b ≤ ch then .blank
    else
      let q := ch / n
      sourceAt t (atChan t (ch % n) (c.at 1 * b + q % b) (c.at 2 * b + q / b) (batchOf o c))
  else
    let n := chanCount t / (b * b)
    if n ≤ ch then .blank
    else
      let q := c.at 2 % b * b + c.at 1 % b
      sourceAt t (atChan t (q * n + ch) (c.at 1 / b) (c.at 2 / b) (batchOf o c))

/-- The place of a position's index. The spec does not give the index tensor's shape: DESIGN CHOICE (log entry 57), one index per
position along AXIS where the tensor has one dimension, else one per element. -/
def indexCoord (ti : Tensor) (ax : Nat) (c : Coord) : Coord := if ti.ndim = 1 then [c.at ax] else c

/-- The elements of a tile that GATHER or SCATTER takes an index for: output elements, or valid source elements (R163). -/
def indexedBy (r : Run) (t o : Tensor) (k : Nat) : List Coord :=
  boxCoords ((if dOpcode r.desc = opGather then o else t).clip (r.gridBox k))

/-- The pairs of GATHER and SCATTER from the indices read (R163): an index out of range fails. -/
def indexedPairs (t ti o : Tensor) (ax : Nat) (gather : Bool) (data : SMap (Option Nat)) : List Coord → Except Nat (List Pair)
  | [] => .ok []
  | c :: cs =>
    let p := indexCoord ti ax c
    let i := if ti.inExtent p then sInt 32 ((SMap.get none data (ti.linear p)).getD 0) else 0
    if i < 0 || (if gather then t.extent ax else o.extent ax) ≤ i.toNat then .error stData
    else
      let m : Coord := (List.range 5).map fun d => if d = ax then i.toNat else c.at d
      let one : List Pair := if gather then [(sourceAt t m, c)] else if o.inExtent m then [(.at c, m)] else []
      (indexedPairs t ti o ax gather data cs).map fun ps => one ++ ps

/-- Every element movement of a tile. -/
def Run.tilePairs (r : Run) (t o : Tensor) (ti : Option Tensor) (data : SMap (Option Nat)) (k : Nat) : Except Nat (List Pair) :=
  let op := dOpcode r.desc
  let outs := boxCoords (o.clip (r.gridBox k))
  if op = opS2d || op = opD2s then .ok (outs.map fun c => (blockSource r.desc t o c, c))
  else if op = opGather || op = opScatter then
    match ti with
    | some i => indexedPairs t i o (dParam r.desc 10 8) (op = opGather) data (indexedBy r t o k)
    | none => .error stData
  else .ok (outs.map fun c => (sourceAt t c, c))

/-- The next element lies right after the last (R245). -/
def follows (w p e : Nat) : Bool := e = p + w || (w = 3 && p < e && e ≤ p + w + 5)

/-- Pairs cut into transfers: contiguous at both ends, at most 64 KiB and within a segment (R245). -/
def cutPairs (t o : Tensor) : List (Coord × Coord) → List (List (Coord × Coord)) → List (List (Coord × Coord))
  | [], acc => (acc.map List.reverse).reverse
  | e :: es, acc =>
    match acc with
    | (p :: ps) :: rest =>
      let first := (p :: ps).getLastD p
      let ok := follows t.width (t.bitAddr p.1) (t.bitAddr e.1) && follows o.width (o.bitAddr p.2) (o.bitAddr e.2) &&
        (t.bitAddr e.1 + t.width + 7) / 8 ≤ transferEnd (t.bitAddr first.1 / 8) &&
        (o.bitAddr e.2 + o.width + 7) / 8 ≤ transferEnd (o.bitAddr first.2 / 8)
      if ok then cutPairs t o es ((e :: p :: ps) :: rest) else cutPairs t o es ([e] :: (p :: ps) :: rest)
    | acc => cutPairs t o es ([e] :: acc)

/-- The main writes of a mover's elements, in order, then the zero bits of R50. -/
def moverPuts (o : Tensor) (cs : List Coord) : List Put :=
  let ps := cs.map fun c => o.putsAt 0 c 0
  (ps.filterMap List.head?) ++ (ps.flatMap fun l => l.drop 1)

/-- The transfers of a mover whose destination is not zero-compressed; `zc` is what the zero code becomes in the destination. -/
def moverMoves (t o : Tensor) (zc : Nat) (ps : List Pair) : List Move :=
  let some_ := ps.filterMap fun p => p.1.coord.map fun c => (c, p.2)
  let none_ := ps.filterMap fun p => if p.1.coord.isNone then some (p.2, if p.1 = .zero then zc else 0) else none
  let reads :=
    if isZc t.layout then
      (t.zcBlocks (some_.map (·.1))).map fun (a, es) =>
        let mine := some_.filter fun p => es.contains p.1
        (⟨some (a, 2112), mine.map fun p => (t.linear p.1, 0), moverPuts o (mine.map (·.2)), some (es.map t.linear)⟩ : Move)
    else
      (cutPairs t o some_ []).map fun run =>
        let es := run.map fun p => (t.linear p.1, t.bitAddr p.1)
        ⟨some (coverBytes t.width es), es, moverPuts o (run.map (·.2)), none⟩
  reads ++ o.writeMoves 0 none_

/-- A code moved between formats (R157): as it stands where they are the same, else converted. -/
def moveCode (t o : Tensor) (code : Nat) : Nat × NumFlags :=
  if t.layout = 5 then (code, 0)
  else if t.fmt = o.fmt then (code, nanFlag o.fmt code)
  else encodeElem o.fmt (decodeElem t.fmt code)

/-- What the zero code of a mover's source becomes in its destination (R63, R157, R208; log entry 9). -/
def Run.moverZero (r : Run) (t o : Tensor) : Nat × NumFlags :=
  moveCode t o (zeroCode t.fmt (zeroPoint t.fmt (Config.poolZp r.desc).toNat))

/-- The tensors of a mover's tile, with device addresses. -/
def Run.moverTensors (r : Run) (who : Claimant) : Option (Tensor × Tensor) :=
  match (r.tensor 0).bind (absTensor who), (r.tensor 2).bind (absTensor who) with
  | some t, some o => some (t, o)
  | _, _ => none

/-- A chunk of elements that a tile reads ahead of its transfers. -/
def stageChunk (k : Nat) (t : Tensor) (cs : List Coord) : Chunk := { tile := k, idx := 0, todo := t.readMoves 0 cs, out := 0, data := [] }

/-- A queue's tile that fails is dropped with the transfers it has not issued. -/
def State.failTile (s : State) (r : Run) (who : Claimant) (e : Nat) : State :=
  (s.updUnit r.id who fun x => { x with running := none, todo := [], stage := none }).failRun r e (claimantBough who).val

/-- The writes of a zero-compressed destination from the source elements staged (R234, R239). -/
def State.stageOut (s : State) (r : Run) (who : Claimant) (t o : Tensor) (ps : List Pair) (data : SMap (Option Nat)) : State :=
  let es := ps.map fun p =>
    match p.1 with
    | .blank => (p.2, (0, (0 : NumFlags)))
    | .zero => (p.2, r.moverZero t o)
    | .at q => (p.2, moveCode t o ((SMap.get none data (t.linear q)).getD 0))
  (s.addFlags r (orFlags (es.map fun e => e.2.2))).updUnit r.id who fun x =>
    { x with stage := none, todo := o.movesOut 0 0 (es.map fun e => (e.1, e.2.1)) }

/-- A queue's tile, its indices known: the transfers it has to issue, or the source elements it reads first; or its failure. -/
def State.moveTile (s : State) (r : Run) (who : Claimant) (t o : Tensor) (ti : Option Tensor) (data : SMap (Option Nat)) (k : Nat) : State :=
  match r.tilePairs t o ti data k with
  | .error e => s.failTile r who e
  | .ok ps =>
    if isZc o.layout then
      let src := ps.filterMap fun p => p.1.coord
      if src = [] then s.stageOut r who t o ps []
      else s.updUnit r.id who fun x => { x with indices := data, stage := some (.elements, stageChunk k t src) }
    else
      let z := r.moverZero t o
      let s := if ps.any fun p => p.1 = .zero then s.addFlags r z.2 else s
      s.updUnit r.id who fun x => { x with stage := none, todo := moverMoves t o z.1 ps }

/-- A hauler's claimant starts its tile: indices first, as transfers of its queue, where it takes any (R163; log entry 56). -/
def State.startTile (s : State) (id : Nat) (who : Claimant) : State :=
  match s.run? id with
  | none => s
  | some r =>
    match (r.units.find? fun u => u.who = who).bind fun u => u.running with
    | none => s
    | some k =>
      if !isHaulOp (dOpcode r.desc) then s
      else
        match r.moverTensors who with
        | none => s.failTile r who stAccess
        | some (t, o) =>
          match (r.tensor 1).bind (absTensor who) with
          | none => s.moveTile r who t o none [] k
          | some ti =>
            let cs := ti.valid (((indexedBy r t o k).map (indexCoord ti (dParam r.desc 10 8))).eraseDups)
            if cs = [] then s.moveTile r who t o (some ti) [] k
            else s.updUnit id who fun x => { x with stage := some (.indices, stageChunk k ti cs) }

/-- What a tile reads ahead has all come. -/
def State.stageDone (s : State) (id : Nat) (who : Claimant) : State :=
  match s.run? id with
  | none => s
  | some r =>
    match r.units.find? (fun u => u.who = who), r.moverTensors who with
    | some u, some (t, o) =>
      match u.running, u.stage with
      | some k, some (kind, c) =>
        let ti := (r.tensor 1).bind (absTensor who)
        if !c.filled then s
        else if kind = .indices then s.moveTile r who t o ti c.data k
        else
          match r.tilePairs t o ti u.indices k with
          | .error e => s.failTile r who e
          | .ok ps => s.stageOut r who t o ps c.data
      | _, _ => s
    | _, _ => s

/- Queues. -/

/-- Outstanding transfers of a queue. -/
def State.queueXfers (s : State) (h : HaulQueue) : List Xfer := s.hub.xfers.filter fun x => x.queue = h

/-- Two queues of one hauler. -/
def sameHauler : HaulQueue → HaulQueue → Bool
  | .branch b r _, .branch c q _ => b = c && r = q
  | .bough b _, .bough c _ => b = c
  | _, _ => false

/-- The limits of R246. -/
def State.queueLimit (s : State) : HaulQueue → Nat
  | .branch b r q => s.regN .branchHaulerLimit b.val r.val q.val
  | .bough b q => s.regN .boughHaulerLimit b.val 0 q.val
def haulerTotal : HaulQueue → Nat
  | .branch _ _ _ => 128
  | .bough _ _ => 256

/-- A claimant's own hauler queue. -/
def claimantQueue : Claimant → Option HaulQueue
  | .branchQueue b r q => some (.branch b r q)
  | .boughQueue b q => some (.bough b q)
  | _ => none

/-- The hauler queue that moves a claimant's ring. -/
def ringQueue (u : Claimant) (g : SubRing) : Option HaulQueue :=
  match claimantQueue u, claimantBranch u with
  | some h, _ => some h
  | none, some p => some (.branch (claimantBough u) p g.queue)
  | none, none => none

/- What a transfer belongs to, beside slots 0 to 4 of rings: 9 a queue's own tile, 8 a load of ACC_OUT, 7 what a tile reads ahead. -/

/-- Chunks of a ring that have a slot. -/
def SubRing.slotted (g : SubRing) : List Chunk := if g.out then g.chunks.take g.slots else g.chunks

/-- The first chunk of a list with a transfer to issue. -/
def nextOf (slot : Nat) (l : List Chunk) : Option (Move × Nat × Nat × Nat) :=
  l.findSome? fun c => c.todo.head?.map fun m => (m, slot, c.tile, c.idx)

/-- The next transfer a claimant has for a queue: of its tile, of what the tile reads ahead, of a chunk of a ring, by slot and
direction, or of a load; with its slot, tile and chunk. -/
def RunUnit.nextMove (u : RunUnit) (h : HaulQueue) : Option (Move × Nat × Nat × Nat) :=
  let own := claimantQueue u.who = some h
  (if own then u.todo.head?.map fun m => (m, 9, 0, 0) else none) <|>
  (if own then nextOf 7 (u.stage.toList.map (·.2)) else none) <|>
  (u.rings.findSome? fun g => if ringQueue u.who g = some h then nextOf g.slot g.slotted else none) <|>
  (u.rings.findSome? fun g => if g.out && ringQueue u.who g = some h then nextOf 8 u.loads else none)

/-- The next transfer of a queue: descriptors in the order of their start. -/
def State.nextTransfer (s : State) (h : HaulQueue) : Option (Run × RunUnit × Move × Nat × Nat × Nat) :=
  s.hub.runs.findSome? fun r => r.units.findSome? fun u => (u.nextMove h).map fun p => (r, u, p)

/-- Change one chunk of a claimant: of a ring, of a load, or what its tile reads ahead. -/
def State.updChunk (s : State) (id : Nat) (who : Claimant) (slot : Nat) (out : Bool) (tile idx : Nat) (f : Chunk → Chunk) : State :=
  let one := fun c : Chunk => if c.tile = tile && c.idx = idx then f c else c
  s.updUnit id who fun u =>
    if slot = 9 then { u with todo := u.todo.drop 1 }
    else if slot = 8 then { u with loads := u.loads.map one }
    else if slot = 7 then { u with stage := u.stage.map fun p => (p.1, one p.2) }
    else { u with rings := u.rings.map fun g => if g.slot = slot && g.out = out then { g with chunks := g.chunks.map one } else g }

/-- The elements of a move from the bytes read (R235). -/
def decodeMove (w : Nat) (m : Move) (bs : List Byte) : Except Nat (List (Nat × Nat)) :=
  match m.block, m.src with
  | some ids, some _ =>
    (zcDecode bs ids.length).map fun codes =>
      let all := ids.zip codes
      if m.puts = [] then all else m.elems.filterMap fun e => all.find? fun p => p.1 = e.1
  | _, some (a, _) => .ok (m.elems.map fun e => (e.1, bitsOfBytes bs (e.2 - 8 * a) w))
  | _, none => .ok []

/-- Bytes a zero-compressed block takes by its header, of its first word (R235); 64 where the header is wrong. -/
def zcLength (bs : List Byte) (e : Nat) : Nat :=
  let h := leNat (slice bs 0 4)
  let nnz := nbits h 15 0
  if nbits h 31 25 ≠ 0 then 64
  else if h.testBit 24 then (if nnz = e then 4 + e else 64)
  else if 1852 < nnz then 64 else 260 + nnz

/-- Width of the elements a transfer reads. -/
def moveWidth (r : Run) (u : RunUnit) (slot : Nat) : Nat :=
  if slot = 4 then 16
  else
    let n := if slot = 9 then 0 else if slot = 8 then 2
      else if slot = 7 then (if (u.stage.map (·.1)) = some .indices then 1 else 0) else slot
    ((r.tensor n).map Tensor.width).getD 8

/-- The bytes of a move as its transfer begins: bytes at once, or the transaction that brings them; a block's header first (R235). -/
def State.moveRead (s : State) (r : Run) (m : Move) : Except Nat (Fetch × XferPhase) × State :=
  match m.src, m.block with
  | none, _ => (.ok (.bytes [], .landed), s)
  | some (a, n), none =>
    match s.xferRead r a n with
    | (.ok f, s) => (.ok (f, .read), s)
    | (.error e, s) => (.error e, s)
  | some (a, _), some ids =>
    match s.xferRead r a 64 with
    | (.ok (.bytes bs), s) =>
      let n := zcLength bs ids.length
      if n ≤ 64 then (.ok (.bytes bs, .read), s)
      else
        match s.xferRead r (a + 64) (n - 64) with
        | (.ok (.bytes cs), s) => (.ok (.bytes (bs ++ cs), .read), s)
        | (.ok (.waits t), s) => (.ok (.waits t, .body), s)
        | (.error e, s) => (.error e, s)
    | (.ok (.waits t), s) => (.ok (.waits t, .header), s)
    | (.error e, s) => (.error e, s)

/-- A queue has a transfer to issue and is below its own limit. -/
def State.canIssue (s : State) (h : HaulQueue) : Bool := (s.queueXfers h).length < s.queueLimit h && (s.nextTransfer h).isSome

/-- A queue that meets its hauler's total waits, behind those that wait already (R246). -/
def State.haulWait (s : State) (h : HaulQueue) : State :=
  if s.canIssue h then s.updHub fun w => { w with haulWaits := if w.haulWaits.contains h then w.haulWaits else w.haulWaits ++ [h] } else s

/-- What the code of local memory finds in a word that a transfer reads (R108). -/
def State.sourceError (s : State) (m : Move) (e : WordError) : State :=
  match m.src with
  | none => s
  | some (a, n) =>
    match s.region a with
    | .localMem b p off => s.wordError b (Fin.ofNat 6 p) (errorIf e (errorIn e off n))
    | _ => s

/-- TRANSFER_ISSUE (R246): the queue issues its next transfer, where its limits leave room and no queue of its hauler has waited
longer. -/
def transferIssue (h : HaulQueue) (e : WordError) (s : State) : State :=
  let s := s.updHub fun w => { w with haulWaits := w.haulWaits.filter s.canIssue }
  if s.queueLimit h ≤ (s.queueXfers h).length then s
  else if haulerTotal h ≤ (s.hub.xfers.filter fun x => sameHauler x.queue h).length ||
      (s.hub.haulWaits.find? fun q => sameHauler q h).any (· ≠ h) then s.haulWait h
  else
    match s.nextTransfer h with
    | none => s
    | some (r, u, m, slot, tile, idx) =>
      let s := s.updHub fun w => { w with haulWaits := w.haulWaits.filter (· ≠ h) }
      let s := s.updChunk r.id u.who slot m.src.isNone tile idx fun x => { x with todo := x.todo.drop 1, out := x.out + 1 }
      let s := s.sourceError m e
      let blank : Xfer := { queue := h, run := r.id, who := u.who, slot := slot, tile := tile, idx := idx, puts := m.puts, move := m }
      let (x, s) : Xfer × State := match s.moveRead r m with
        | (.error e, s) => ({ blank with fail := some e }, s)
        | (.ok (.waits t, ph), s) => ({ blank with phase := ph, tags := [t] }, s)
        | (.ok (.bytes bs, _), s) =>
          match decodeMove (moveWidth r u slot) m bs with
          | .ok es => ({ blank with brings := es }, s)
          | .error e => ({ blank with fail := some e }, s)
      s.updHub fun w => { w with xfers := w.xfers ++ [x] }

def execTransferIssue (h : HaulQueue × WordError) (s : State) : Host.Outcome State Fault Refusal := done s (transferIssue h.1 h.2 s)

/- Completion. -/

/-- The status of a peer's answer (R534). -/
def peerStatus : PeerAnswer → Option Nat
  | .ok => none
  | .access | .unmapped => some stAccess
  | .uncorrectable => some stUncorrectable
  | .lost | .fenced => some stPeer

/-- A request's transactions have all been answered; a PCIe completion comes when its transfer completes (R543). -/
def State.tagReady (s : State) (tag : Nat) : Bool :=
  (s.grove.outstanding.filter fun o => o.first = tag).all fun o => o.link.isNone || o.answer.isSome

/-- The answer of a request: the bytes of its transactions in order, or the first failure. A PCIe completion brings free data, or
fails, which the completer decides (R543). -/
def State.tagAnswer (s : State) (tag : Nat) : Except Nat (List Byte) × State :=
  let parts := s.grove.outstanding.filter fun o => o.first = tag
  let drop := fun s : State => { s with grove := { s.grove with outstanding := s.grove.outstanding.filter fun o => o.first ≠ tag } }
  match parts with
  | [] => (.error stPeer, s)
  | o :: _ =>
    if o.link.isNone then
      match o.answer with
      | none =>
        let (fails, s) := s.drawChoice
        let (poisoned, s) := s.drawChoice
        if fails then (.error (if poisoned then stUncorrectable else stAccess), drop s)
        else
          let (bs, s) := s.drawBytes o.len
          (.ok bs, drop s)
      | some (.fenced, _) => (.error stFenced, drop s)
      | some (.uncorrectable, _) => (.error stUncorrectable, drop s)
      | some _ => (.error stAccess, drop s)
    else
      match parts.findSome? fun o => o.answer.bind fun a => peerStatus a.1 with
      | some e => (.error e, drop s)
      | none => (.ok (parts.flatMap fun o => slice ((o.answer.map (·.2)).getD []) 0 o.len), drop s)

/-- The answers of several requests, once all have come: their bytes request by request, or the first failure. -/
def State.answers (s : State) (tags : List Nat) : Option (Except Nat (List (List Byte))) × State :=
  if tags.all s.tagReady then
    let (res, s) := tags.foldl (fun (x : Except Nat (List (List Byte)) × State) t =>
      let (a, s) := x.2.tagAnswer t
      (match x.1, a with
       | .ok l, .ok bs => .ok (l ++ [bs])
       | .error e, _ => .error e
       | _, .error e => .error e, s)) (.ok [], s)
    (some res, s)
  else (none, s)

/-- SCATTER with ADD. -/
def Run.adds (r : Run) : Bool := dOpcode r.desc = opScatter && dParam r.desc 16 16 = 1

/-- What a mover writes for the elements it read, with flags (R157); SCATTER with ADD adds into the destination's old element, each sum
rounded by itself (R163). -/
def moverCodes (r : Run) (t o : Tensor) (x : Xfer) (olds : SMap (Option Byte)) : List Put × NumFlags :=
  let one := fun (p : Put × (Nat × Nat)) =>
    let code := p.2.2
    let e :=
      if r.adds then
        let a := p.1.bit / 8
        let n := (p.1.bit % 8 + p.1.width + 7) / 8
        let old := bitsOfBytes ((List.range n).map fun i => (SMap.get none olds (a + i)).getD 0) (p.1.bit % 8) p.1.width
        if fmtInt o.fmt then encodeElem o.fmt (valOfInt ((decodeElem o.fmt old).toInt + (decodeElem t.fmt code).toInt))
        else encodeElem o.fmt (fval (fadd (f32 (decodeElem o.fmt old)) (f32 (decodeElem t.fmt code))))
      else moveCode t o code
    ({ p.1 with code := e.1 }, e.2)
  let es := ((x.puts.take x.brings.length).zip x.brings).map one
  (es.map (·.1) ++ x.puts.drop x.brings.length, orFlags (es.map (·.2)))

/-- The ranges that a transfer's writes read first: a SCATTER's destination with ADD (R163), and in a row reached by transactions the
runs that write part of a byte (R210). -/
def State.oldRanges (s : State) (r : Run) (x : Xfer) : List (Nat × Nat) :=
  let all := r.adds && x.slot = 9
  (byteRuns (putBytes (if all then x.puts.take x.brings.length else x.puts))).filterMap fun run =>
    if all || (s.remote run.1 && run.2.any fun m => m.1 ≠ 255) then some (run.1, run.2.length) else none

/-- Bytes by address. -/
def byteMap (ranges : List (Nat × Nat)) (bss : List (List Byte)) : SMap (Option Byte) :=
  (ranges.zip bss).foldl (fun m p =>
    (List.range p.2.length).foldl (fun m i => SMap.set none m (p.1.1 + i) (p.2[i]?)) m) []

/-- The transfer stays outstanding. -/
def State.requeue (s : State) (x : Xfer) : State := s.updHub fun w => { w with xfers := w.xfers ++ [x] }

/-- An output chunk loses a transfer; one that has none left leaves its slot (R254). -/
def State.chunkLess (s : State) (x : Xfer) : State :=
  if x.slot = 9 then s
  else
    let mine := fun c : Chunk => c.tile = x.tile && c.idx = x.idx
    s.updUnit x.run x.who fun u => { u with rings := u.rings.map fun y =>
      if y.slot = x.slot && y.out then
        { y with chunks := (y.chunks.map fun c => if mine c then { c with out := c.out - 1 } else c).filter fun c => !(mine c && c.filled) }
      else y }

/-- A transfer fails: the job fails, and a queue's tile is dropped. -/
def State.xferFail (s : State) (r : Run) (x : Xfer) (e : Nat) : State :=
  let s := if x.move.src.isNone then s.chunkLess x else s
  if claimantQueue x.who = some x.queue then s.failTile r x.who e else s.failRun r e (claimantBough x.who).val

/-- A transfer's elements are written, its old bytes known; a remote write waits for its acknowledgement (R534). -/
def State.xferWrite (s : State) (r : Run) (x : Xfer) (olds : SMap (Option Byte)) : State :=
  match r.moverTensors x.who with
  | none => if x.slot = 9 then s.xferFail r x stAccess else go s x.puts
  | some (t, o) =>
    if x.slot = 9 && x.move.src.isSome then
      let (ps, fl) := moverCodes r t o x olds
      go (s.addFlags r fl) ps
    else go s x.puts
where
  go (s : State) (ps : List Put) : State :=
    match s.writePuts r olds ps with
    | (.error e, s) => s.xferFail r x e
    | (.ok [], s) => s.chunkLess x
    | (.ok ts, s) => s.requeue { x with phase := .ack, tags := ts }

/-- Reads of the ranges that a write merges with. -/
def State.readOlds (s : State) (r : Run) : List (Nat × Nat) → Except Nat (List Fetch) × State
  | [] => (.ok [], s)
  | (a, n) :: rest =>
    match s.xferRead r a n with
    | (.error e, s) => (.error e, s)
    | (.ok f, s) =>
      match s.readOlds r rest with
      | (.ok fs, s) => (.ok (f :: fs), s)
      | x => x

/-- A transfer's data has come: it fills its chunk, or it is written. -/
def State.xferData (s : State) (r : Run) (u : RunUnit) (x : Xfer) : State :=
  if x.move.src.isSome && x.slot ≠ 9 then
    let s := s.updChunk r.id x.who x.slot false x.tile x.idx fun c =>
      { c with out := c.out - 1, data := x.brings.foldl (fun m p => SMap.set none m p.1 (some p.2)) c.data }
    match u.rings.find? fun g => g.slot = x.slot && !g.out && g.chunks.any fun c => c.tile = x.tile && c.idx = x.idx with
    | some g => s.fillSlot x.who g x.idx
    | none => s
  else
    let ranges := s.oldRanges r x
    match s.readOlds r ranges with
    | (.error e, s) => s.xferFail r x e
    | (.ok fs, s) =>
      let tags := fs.filterMap fun f => match f with
        | .waits t => some t
        | .bytes _ => none
      if tags = [] then
        s.xferWrite r x (byteMap ranges (fs.map fun f => match f with
          | .bytes bs => bs
          | .waits _ => []))
      else s.requeue { x with phase := .olds, tags := tags }

/-- Bytes of a transfer have come whole. -/
def State.xferBytes (s : State) (r : Run) (u : RunUnit) (x : Xfer) (bs : List Byte) : State :=
  match decodeMove (moveWidth r u x.slot) x.move bs with
  | .ok es => s.xferData r u { x with phase := .landed, tags := [], got := [], brings := es }
  | .error e => s.xferFail r x e

/-- What an answer makes of an outstanding transfer, by where it stands. -/
def State.xferStep (s : State) (r : Run) (u : RunUnit) (x : Xfer) (bss : List (List Byte)) : State :=
  match x.phase with
  | .landed => s.xferData r u x
  | .header =>
    let bs := bss.flatten
    let n := zcLength bs ((x.move.block.map List.length).getD 0)
    if n ≤ 64 then s.xferBytes r u x bs
    else
      match s.xferRead r ((x.move.src.map (·.1)).getD 0 + 64) (n - 64) with
      | (.ok (.waits t), s) => s.requeue { x with phase := .body, tags := [t], got := bs }
      | (.ok (.bytes cs), s) => s.xferBytes r u x (bs ++ cs)
      | (.error e, s) => s.xferFail r x e
  | .body | .read => s.xferBytes r u x (x.got ++ bss.flatten)
  | .olds => s.xferWrite r { x with phase := .landed, tags := [] } (byteMap (s.oldRanges r x) bss)
  | .ack => s.chunkLess x

/-- Remove the i-th outstanding transfer of a queue. -/
def State.dropXfer (s : State) (h : HaulQueue) (i : Nat) : State :=
  s.updHub fun w => { w with xfers :=
    (w.xfers.foldl (fun (acc : Nat × List Xfer) x =>
      if x.queue = h then (acc.1 + 1, if acc.1 = i then acc.2 else acc.2 ++ [x]) else (acc.1, acc.2 ++ [x])) (0, [])).2 }

/-- A read-modify-write of another transfer is under way on bytes that this one reads and writes back: each is indivisible (R163,
R210). -/
def State.mergeWaits (s : State) (r : Run) (x : Xfer) : Bool :=
  x.phase = .landed && x.fail.isNone &&
  (s.oldRanges r x).any fun p => s.hub.xfers.any fun y => (y.phase = .olds || y.phase = .ack) &&
    y.puts.any fun q => p.1 ≤ q.bit / 8 && q.bit / 8 < p.1 + p.2

/-- TRANSFER_COMPLETE (R246): the i-th outstanding transfer of the queue is written and acknowledged, or fails; the requests of the
branch's ports in the handshake reach its banks (R106). -/
def transferComplete (h : HaulQueue) (i : Nat) (ws : List PortRequest) (s : State) : State :=
  let s := match h with
    | .branch b p _ => s.bankRound b p ws
    | .bough _ _ => s
  match (s.queueXfers h)[i]? with
  | none => s
  | some x =>
    match s.run? x.run with
    | none => if x.tags.all s.tagReady then (s.answers x.tags).2.dropXfer h i else s
    | some r =>
      match r.units.find? (fun u => u.who = x.who) with
      | none => s.dropXfer h i
      | some u =>
        if s.mergeWaits r x then s
        else
          let (ans, s) : Option (Except Nat (List (List Byte))) × State := match x.fail with
            | some e => (some (.error e), s)
            | none => s.answers x.tags
          match ans with
          | none => s
          | some res =>
            let s := s.dropXfer h i
            let s := match res with
              | .error e => s.xferFail r x e
              | .ok bss => s.xferStep r u x bss
            (((s.stageDone x.run x.who).settleUnits x.run).advance x.run).wake

def execTransferComplete (h : HaulQueue) (i : Nat × List PortRequest) (s : State) : Host.Outcome State Fault Refusal :=
  done s (transferComplete h i.1 i.2 s)

end Sys2Proof.Machine
end

