-- ==== Sys2Proof/Machine/Dispatchers.lean ====
section
/-! DEFINITION. The dispatchers: what a descriptor latches and checks at its start, the limb and engines it runs on, joins, claims
of tiles, ends of tiles and of descriptors (R21 to R24, R125, R132, R136 to R139, R146, R164 to R168, R195, R199 to R206, R213,
R248 to R251, R267). -/
namespace Sys2Proof.Machine
open Sys2Proof

/- Latching (R125, R126, R155). -/

/-- Valid extents of a tensor-table entry. -/
def State.latchExts (s : State) (j : Job) (e : Nat) : List Nat → Except Nat (List Nat) × State
  | [] => (.ok [], s)
  | n :: ns =>
    let (v, s) : Except Nat Nat × State :=
      if eNdim e ≤ n then (.ok 1, s)
      else if eExt e n = 0 then (.ok (eDim e n), s)
      else
        match s.argWord j (eExt e n) with
        | (.ok w, s) => (if eDim e n < w then .error stData else .ok w, s)
        | x => x
    match v with
    | .error st => (.error st, s)
    | .ok w =>
      match s.latchExts j e ns with
      | (.ok ws, s) => (.ok (w :: ws), s)
      | x => x

/-- The tensor of a table index; 0xFFFF names none. -/
def State.latchTensor (s : State) (p : BucketProg) (j : Job) (i : Nat) : Except Nat (Option Tensor) × State :=
  if i = 0xFFFF then (.ok none, s)
  else
    let e := p.tensors.getD i 0
    match s.latchExts j e (List.range 5) with
    | (.error st, s) => (.error st, s)
    | (.ok xs, s) =>
      let size := fun n => if n < eNdim e then eDim e n else 1
      (.ok (some ⟨eBase e, eRel e, eNdim e, eFormat e, eLayout e, eBufSize e, (List.range 5).map size,
        (List.range 5).map fun n => if n < eNdim e then eStride e n else 0, xs⟩), s)

def State.latchTensors (s : State) (p : BucketProg) (j : Job) : List Nat → Except Nat (List (Option Tensor)) × State
  | [] => (.ok [], s)
  | i :: is =>
    match s.latchTensor p j i with
    | (.error st, s) => (.error st, s)
    | (.ok t, s) =>
      match s.latchTensors p j is with
      | (.ok ts, s) => (.ok (t :: ts), s)
      | x => x

/-- Tensor indices of slots 0 to 3, the side list, the bias and the scratch tensor. -/
def slotIndices (d : Nat) : List Nat :=
  let op := dOpcode d
  let slots := (List.range 4).map (dT d)
  let slots := if isDispatchOp op && op ≠ opIndirect then List.replicate 4 0xFFFF else slots
  if isMatmul op || op = opConv then slots ++ [(leafParams d).sideT, (leafParams d).biasT, 0xFFFF]
  else if op = opDequant then slots ++ [dParam d 111 96, 0xFFFF, 0xFFFF]
  else if isSortOp op then slots ++ [0xFFFF, 0xFFFF, dParam d 31 16]
  else slots ++ [0xFFFF, 0xFFFF, 0xFFFF]

/-- Argument word that a parameter block names; 0 where it names none. -/
def argField (d : Nat) : Nat :=
  if dOpcode d = opAttention then dParam d 151 144 else if dOpcode d = opOptStep then dParam d 167 160 else 0

/- Checks at the start (R157, R161, R221, R226, R227, R241, R276, R294). -/

/-- Extents agree along every dimension that is not broadcast (R161). -/
def extsAgree (t t0 : Tensor) : Bool :=
  (List.range 5).all fun d => (t.dim d = 1 && 1 < t0.dim d) || t.extent d = t0.extent d

def startOk (d : Nat) (ts : List (Option Tensor)) (arg : Nat) : Bool :=
  let op := dOpcode d
  let slot := fun n => ts.getD n none
  match slot 0, slot 1, slot 2, slot 3 with
  | some t0, t1, t2, t3 =>
    if isMatmul op then
      t1.all fun b => t0.extent (if op = opMatmulTa then 1 else 0) = b.extent (if op = opMatmulTb then 1 else 0)
    else if op = opConv || op = opPool then
      let w := windowOf d
      (t2.map fun o =>
        o.extent 2 ≤ windowOut (t0.extent 2) w.padT w.padB w.kh w.dy w.sy &&
        o.extent 1 ≤ windowOut (t0.extent 1) w.padL w.padR w.kw w.dx w.sx && o.extent 4 ≤ t0.extent 4).getD true
    else if op = opEltwise || op = opNorm then
      ((op = opEltwise && unaryFn (dParam d 7 0)) || (t1.map (extsAgree · t0)).getD true) && (t3.map (extsAgree · t0)).getD true
    else if op = opAttention then
      let g := dParam d 139 136 + 1
      match t1, t2, t3 with
      | some k, some v, some o =>
        k.extent 1 = v.extent 1 && t0.extent 1 % g = 0 && o.extent 1 % g = 0 &&
        t0.extent 2 = k.extent 2 && t0.extent 2 = v.extent 2 && t0.extent 2 = o.extent 2
      | _, _, _ => true
    else if op = opOptStep then
      1 ≤ arg && [t1, t2, t3].all fun t => t.all fun t => t.ext = t0.ext
    else if op = opS2d then
      let b := dParam d 3 0 + 1
      (t2.map fun o =>
        o.extent 1 = (t0.extent 1 + b - 1) / b && o.extent 2 = (t0.extent 2 + b - 1) / b &&
        o.extent 3 = (chanCount t0 * b * b + blockOf o.layout - 1) / blockOf o.layout).getD true
    else if op = opD2s then
      let b := dParam d 3 0 + 1
      (t2.map fun o => o.extent 1 = t0.extent 1 * b && o.extent 2 = t0.extent 2 * b).getD true
    else if op = opNms then t1.all fun q => t0.extent 1 = q.extent 0
    else true
  | none, _, _, _ => true

/-- Tiles along the grid's dimensions (R195). -/
def gridOf (d : Nat) (ts : List (Option Tensor)) : Nat × Nat × Nat :=
  match ts.getD (dGridSlot d) none with
  | none => (0, 0, 0)
  | some t =>
    let n := fun dim tile => if dim < 5 then (t.extent dim + tile - 1) / max 1 tile else 1
    (n (dGridX d) (dTileX d), n (dGridY d) (dTileY d), if dGridO d < 5 then t.extent (dGridO d) else 1)

/- Limbs and capacity. -/

/-- Where a descriptor could run: the boughs it is posted to, and its branch and leaf. -/
structure Place where
  boughs : List BoughId
  branch : Option BranchPos
  leaf : Option LeafPos
  deriving DecidableEq, Repr

/-- Boughs ready or running (R22). -/
def State.readyBoughs (s : State) : List BoughId := [0, 1, 2, 3].filter fun b : BoughId => s.boughs[b].state = .ready

/-- Present branches of a bough, in ascending number. -/
def State.branchList (s : State) : List BranchPos := (List.range (branchesOf s.grade)).map (Fin.ofNat 6)

/-- Limbs that a target names, lowest-numbered first (R21, R132). -/
def State.places (s : State) (t : Nat) : List Place :=
  let up := s.readyBoughs
  let mine := fun (b : BoughId) => if tAny t then tAnyCrown t || (tLevel t = 1) || b.val = tBough t else b.val = tBough t
  if tLevel t = 0 then (if up = [] then [] else [⟨up, none, none⟩])
  else if tLevel t = 1 then (up.filter mine).map fun b => ⟨[b], none, none⟩
  else
    (up.filter mine).flatMap fun b =>
      let brs := s.branchList.filter fun p => (tAny t && (tAnyCrown t || tLevel t = 2)) || p.val = tBranch t
      brs.flatMap fun p =>
        if tLevel t = 2 then [⟨[b], some p, none⟩]
        else (([0, 1, 2, 3] : List LeafPos).filter fun l => tAny t || l.val = tLeaf t).map fun l => ⟨[b], some p, some l⟩

/-- Boughs whose dispatcher slots a running descriptor holds (R136, R205). -/
def Run.held (r : Run) : List BoughId :=
  if hasGrid (dOpcode r.desc) then r.shares.map (·.bough)
  else if r.level = 0 && isDispatchOp (dOpcode r.desc) then [] else r.posted

def State.slotFree (s : State) (b : BoughId) : Bool := (s.hub.runs.filter fun r => r.held.contains b).length < 64
def State.hubFree (s : State) : Bool :=
  (s.hub.runs.filter fun r => r.level = 0 && isDispatchOp (dOpcode r.desc)).length < 256

/-- Claimants that a descriptor has on a branch (R92, R200, R244, R251). -/
def claimantsOn (d : Nat) (leaf : Option LeafPos) (b : BoughId) (p : BranchPos) : List Claimant :=
  let op := dOpcode d
  if isLeafOp op then
    match leaf with
    | some l => [.leafGroup b p l]
    | none =>
      if dGang d = 0 then [.leafGroup b p 0, .leafGroup b p 1, .leafGroup b p 2, .leafGroup b p 3]
      else if dGang d = 1 then [.leafGroup b p 0, .leafGroup b p 1] else [.leafGroup b p 0]
  else if isVuOp op then [.vectorUnit b p]
  else if op = opHaul then [.branchQueue b p (Fin.ofNat 16 (dParam d 4 0))]
  else [.branchQueue b p 15]

/-- The hauler queue of a bough that serves a descriptor (R244). -/
def boughClaimant (d : Nat) (b : BoughId) : Claimant :=
  .boughQueue b (if dOpcode d = opHaul then Fin.ofNat 32 (dParam d 4 0) else 31)

/-- Leaves that a claimant occupies. -/
def claimantLeaves (d : Nat) : Claimant → List LeafPos
  | .leafGroup _ _ j => groupLeaves (dGang d) j.val
  | _ => []

/-- A claimant occupies its branch's vector unit: ATTENTION has its leaves and the vector unit (R137). -/
def claimantVector (d : Nat) : Claimant → Bool
  | .leafGroup _ _ _ => dOpcode d = opAttention
  | .vectorUnit _ _ => true
  | _ => false

/-- Two claimants need one engine (R137). -/
def clash (d : Nat) (u : Claimant) (d' : Nat) (u' : Claimant) : Bool :=
  u = u' ||
  (claimantBough u = claimantBough u' && claimantBranch u = claimantBranch u' && (claimantBranch u).isSome &&
    ((claimantVector d u && claimantVector d' u') || (claimantLeaves d u).any (claimantLeaves d' u').contains))

/-- Rings that a descriptor names (R131). -/
def ringsNamed (d : Nat) : List Nat := ((List.range 5).map (dRing d)).filter (· ≠ 0)

/-- A claimant holds a ring: until it leaves the descriptor; after a failure until the ring's queue holds none of its transfers and no
output waits in it (R255, R256). -/
def State.ringHeld (s : State) (r : Run) (u : RunUnit) (g : SubRing) : Bool :=
  !r.stopped || g.chunks ≠ [] || s.hub.xfers.any fun x => x.run = r.id && x.who = u.who && x.slot = g.slot

/-- The engines of a branch that a descriptor needs are free there, its rings among them (R137, R138, R255). -/
def State.enginesFree (s : State) (d : Nat) (us : List Claimant) (b : BoughId) (p : BranchPos) : Bool :=
  s.hub.runs.all fun r => r.units.all fun u =>
    us.all (fun v => !clash d v r.desc u.who) &&
    (claimantBough u.who ≠ b || claimantBranch u.who ≠ some p ||
      u.rings.all fun g => !(ringsNamed d).contains g.ring || !s.ringHeld r u g)

/-- No rotation holds the branch ring of a bough (R137, R258). -/
def State.rotationFree (s : State) (bs : List BoughId) : Bool :=
  s.hub.runs.all fun r => dOpcode r.desc ≠ opRotate || bs.all fun b => !r.posted.contains b

/-- A descriptor finds capacity at a place (R136 to R139). -/
def State.capacity (s : State) (d : Nat) (p : Place) : Bool :=
  let op := dOpcode d
  (if tLevel (dTarget d) = 0 && isDispatchOp op then s.hubFree else p.boughs.all s.slotFree) &&
  (!hasGrid op || p.boughs.all fun b => (s.ctrHolder b (dWorkCounter d)).isNone) &&
  (op ≠ opRotate || s.rotationFree p.boughs) &&
  (match p.boughs, p.branch with
   | [b], some r => s.enginesFree d (claimantsOn d p.leaf b r) b r
   | [b], none => !isHaulOp op || s.hub.runs.all fun r => r.units.all fun u => u.who ≠ boughClaimant d b
   | _, _ => true)

/- Joining (R248 to R251, R267). -/

/-- The slots of a ring for a slot number: whether it takes an input ring, an output ring, or both. -/
def ringDirs (op n : Nat) : List Bool :=
  if n = 4 then [false]
  else if op = opOptStep && n ≠ 1 then [false, true]
  else [slotWritten op n]

/-- Bytes that a pool's buffer adds to a slot's addresses (R267), or FAILED_DATA. -/
def State.poolShift (s : State) (j : Job) (b : BoughId) (rec : Nat) (t : Tensor) : Except Nat Nat :=
  if !rPoolEn rec then .ok 0
  else
    let q : HqPos := Fin.ofNat 32 (rPoolQ rec)
    let h := s.boughs[b].hqs[q]
    let idx := if j.take = some (b, q) then j.taken.map fun w => w.toNat % 64 else if j.post = some (b, q) then j.reserved else none
    match idx with
    | none => .error stData
    | some i => if h.base ≤ t.base && t.base + t.bufSize ≤ h.base + h.stride then .ok (i * h.stride) else .error stData

/-- The sub-rings of one slot for claimant j of n. -/
def State.joinRing (s : State) (r : Run) (job : Job) (b : BoughId) (p : BranchPos) (n j slot : Nat) : Except Nat (List SubRing) :=
  let ring := dRing r.desc slot
  match r.tensor slot with
  | none => .ok []
  | some t =>
    if ring = 0 then .ok []
    else
      match s.localBits b p (8 * (0x3FF800 + 16 * ring)) 128 with
      | .error e => .error e
      | .ok rec =>
        let per := rSlots rec / n
        let bytes := rSlotBlks rec * 2048
        let dirs := ringDirs (dOpcode r.desc) slot
        if !rReservedOk rec || rSlots rec < 3 || rSlotBlks rec = 0 || 2047 < rBaseBlk rec + rSlots rec * rSlotBlks rec ||
            !(dirs.contains (rDir rec)) || ((ringsNamed r.desc).filter (· = ring)).length ≠ 1 || per = 0 || !r.chunkFits bytes slot then
          .error stData
        else
          (s.poolShift job b rec t).map fun sh => dirs.map fun o =>
            { slot := slot, ring := ring, queue := Fin.ofNat 16 (rHqueue rec), out := o, slots := per, slotBytes := bytes,
              base := rBaseBlk rec * 2048 + j * per * bytes, shift := sh }

/-- A claimant of a branch as it joins. -/
def State.joinUnit (s : State) (r : Run) (job : Job) (b : BoughId) (p : BranchPos) (n j : Nat) (u : Claimant) : Except Nat RunUnit :=
  (collect (s.joinRing r job b p n j) (List.range 5)).map fun gs => { who := u, rings := gs.flatten }

/-- A branch joins a running descriptor, or the job fails with FAILED_DATA and it takes no tile (R250). -/
def State.join (s : State) (r : Run) (b : BoughId) (p : BranchPos) : State :=
  match s.job? r.queue r.seq with
  | none => s
  | some job =>
    let us := claimantsOn r.desc r.leaf b p
    let n := if r.leaf.isSome then 4 else us.length
    match collect (fun i => s.joinUnit r job b p n (match r.leaf with
        | some l => l.val
        | none => i) (us.getD i (.vectorUnit b p))) (List.range us.length) with
    | .error e => (s.updRun r.id fun x => { x with joined := x.joined ++ [(b, p)] }).failRun r e b.val
    | .ok new => s.updRun r.id fun x => { x with joined := x.joined ++ [(b, p)], units := x.units ++ new }

/-- A branch of a bough whose run is empty claims and is answered with the sentinel; it takes no engine (R205). -/
def State.joinEmpty (s : State) (r : Run) (b : BoughId) (p : BranchPos) : State :=
  (s.updRun r.id fun x => { x with joined := x.joined ++ [(b, p)] }).count (claimantsOn r.desc none b p).length .wcSentinels b.val

/-- BRANCH_JOIN (R137): the branch joins the first running descriptor of its bough that waits for it and whose engines are free. -/
def branchJoin (b : BoughId) (p : BranchPos) (s : State) : State :=
  if branchesOf s.grade ≤ p.val then s
  else
    match s.hub.runs.find? fun r =>
        r.branch.isNone && (isLeafOp (dOpcode r.desc) || isVuOp (dOpcode r.desc)) && !r.stopped && !r.ready &&
        r.posted.contains b && !r.joined.contains (b, p) &&
        s.enginesFree r.desc (claimantsOn r.desc none b p) b p with
    | none => s
    | some r => if r.shares.any fun h => h.bough = b then s.join r b p else s.joinEmpty r b p

def execBranchJoin (b : BoughId) (r : BranchPos) (s : State) : Host.Outcome State Fault Refusal := done s (branchJoin b r s)

/- Starting. -/

/-- Shares of the boughs (R22, R199): contiguous runs, remainder tiles to the lowest-numbered boughs. -/
def sharesOf (n : Nat) (bs : List BoughId) : List Share :=
  let m := max 1 bs.length
  let lo := fun i => i * (n / m) + min i (n % m)
  (List.range bs.length).map fun i => { bough := bs.getD i 0, lo := lo i, hi := lo (i + 1) }

/-- EVENT's operation (R143, R164). -/
def State.eventOp (s : State) (d : Nat) : State :=
  let ec := dParam d 11 0
  let v := dParam d 63 32
  if dParam d 12 12 = 0 then s.addEc ec v else s.setEvent (Fin.ofNat 4 (ec / 1024)) (ec % 1024) (BitVec.ofNat 32 v)

/-- Repeat a change n times. -/
def iterate (f : State → State) : Nat → State → State
  | 0, s => s
  | n + 1, s => iterate f n (f s)

/-- The bits of a descriptor or of an instance: with TARGET_BY_HANDLE the template's BOUGH is the handle's (R165, R167). -/
def State.descBits (s : State) (j : Job) (x : JDesc) : Nat :=
  let d := s.jobDesc j x.key.id
  match x.key.inst with
  | none => d
  | some _ =>
    let t := s.jobDesc j (dParam d 23 0)
    if dParam d 42 42 = 1 then
      let b := x.handle / 2 ^ dParam d 46 43 % 4
      t - tBough (dTarget t) * 2 ^ (256 + 5) + b * 2 ^ (256 + 5)
    else t

/-- Ask for 32-bit words of a tensor: each comes at once, or by a transaction. -/
def State.pullWords (s : State) (r : Run) (t : Tensor) : List Coord → Except Nat (List Pull) × State
  | [] => (.ok [], s)
  | c :: cs =>
    if t.rel then (.error stAccess, s)
    else
      match s.xferRead r (t.bitAddr c / 8) 4 with
      | (.error e, s) => (.error e, s)
      | (.ok f, s) =>
        let p : Pull := match f with
          | .bytes bs => .got (leNat bs)
          | .waits t => .waits t
        match s.pullWords r t cs with
        | (.ok ps, s) => (.ok (p :: ps), s)
        | x => x

/-- Words whose transactions have been answered. -/
def State.pollPulls (s : State) : List Pull → Except Nat (List Pull) × State
  | [] => (.ok [], s)
  | p :: ps =>
    let (q, s) : Except Nat Pull × State := match p with
      | .got w => (.ok (.got w), s)
      | .waits t =>
        if s.tagReady t then
          match s.tagAnswer t with
          | (.ok bs, s) => (.ok (.got (leNat bs)), s)
          | (.error e, s) => (.error e, s)
        else (.ok (.waits t), s)
    match q with
    | .error e => (.error e, s)
    | .ok q =>
      match s.pollPulls ps with
      | (.ok qs, s) => (.ok (q :: qs), s)
      | x => x

/-- The words of a list that has come whole. -/
def pulledWords : List Pull → Option (List Nat)
  | [] => some []
  | .got w :: ps => (pulledWords ps).map (w :: ·)
  | .waits _ :: _ => none

/-- A running descriptor leaves: its engines, slots and counters are free; the counters keep its figures (R213); the latches that its
fused operation used lose their contents (R114). -/
def State.release (s : State) (r : Run) : State :=
  let s := s.updHub fun h => { h with runs := h.runs.filter fun x => x.id ≠ r.id }
  let s := r.units.foldl (fun s u =>
    match claimantBranch u.who with
    | some p => if claimantVector r.desc u.who then s.setLatches (claimantBough u.who) p [] else s
    | none => s) s
  r.shares.foldl (fun s h => s.updCtr h.bough (dWorkCounter r.desc) fun c => { c with busy := false }) s

/-- An INDIRECT fails: it leaves with its job's stop (R166). -/
def State.failIndirect (s : State) (r : Run) (e : Nat) : State := (s.failRun r e 15).release r

/-- An INDIRECT whose handles are latched issues its instances in list order (R167, R168); one whose template's count is 0 does no work
and completes (R148). -/
def State.issueInstances (s : State) (r : Run) (job : Job) (hs : List Nat) : State :=
  let d := r.desc
  let tmpl := s.jobDesc job (dParam d 23 0)
  let (c, s) := if dRepeatArg tmpl = 0 then (Except.ok (dRepeat tmpl), s) else s.argWord job (dRepeatArg tmpl)
  match c with
  | .error e => s.failIndirect r e
  | .ok c =>
    if dRepeat tmpl < c then s.failIndirect r stData
    else
      let stamp := s.hub.nextStamp
      let insts := (List.range hs.length).map fun i =>
        ({ key := ⟨r.key.id, some i⟩, phase := .startable stamp c, waitMet := true, handle := hs.getD i 0 } : JDesc)
      let s := (s.updJob r.queue r.seq fun j => { j with descs := j.descs ++ insts }).updHub fun h => { h with nextStamp := stamp + 1 }
      let s := s.updRun r.id fun x => { x with iter := 1 }
      if c = 0 then
        insts.foldl (fun s x =>
          let b := s.descBits job x
          s.completeDesc r.queue r.seq x.key b (if tLevel (dTarget b) = 0 then [] else [Fin.ofNat 4 (tBough (dTarget b))])) s
      else s

/-- An INDIRECT reads its count and its handles, and issues its instances once all have come (R165, R166). DESIGN CHOICE (log entry
57): a count with COUNT_MODE 1 that the list's valid extent does not hold fails like one above MAX_COUNT, and a count or handle with
bit 31 set is read as unsigned. -/
def State.indirectStep (s : State) (id : Nat) : State :=
  match s.run? id with
  | none => s
  | some r =>
    match s.job? r.queue r.seq, r.tensor 0, pulledWords r.pulls with
    | some job, some t, some ws =>
      let d := r.desc
      let first := dParam d 41 41
      let ask := fun cs => match s.pullWords r t cs with
        | (.error e, s) => s.failIndirect r e
        | (.ok ps, s) => s.updRun id fun x => { x with pulls := x.pulls ++ ps }
      if r.iter = 1 then s
      else if first = 1 && ws = [] then ask [[0]]
      else
        let n := if first = 1 then ws.headD 0 else t.extent 0
        let hs := ws.drop first
        if dParam d 40 32 < n || t.extent 0 < n + first then s.failIndirect r stData
        else if n = 0 then (s.release r).completeDesc r.queue r.seq r.key d r.posted
        else if hs.length < n then ask ((List.range n).map fun i => [first + i])
        else if hs.any fun h => dParam d 95 64 ≤ h then s.failIndirect r stData
        else s.issueInstances r job hs
    | _, none, _ => s.failIndirect r stData
    | _, _, _ => s

/-- The steps of an INDIRECT that nothing holds up: count, handles, instances. -/
def State.issueIndirect (s : State) (id : Nat) : State := ((s.indirectStep id).indirectStep id).indirectStep id

/-- An INDIRECT whose words come by transactions takes those that have come. -/
def State.pollIndirect (s : State) (r : Run) : State :=
  if dOpcode r.desc ≠ opIndirect || (pulledWords r.pulls).isSome then s
  else
    match s.pollPulls r.pulls with
    | (.error e, s) => s.failIndirect r e
    | (.ok ps, s) => (s.updRun r.id fun x => { x with pulls := ps }).issueIndirect r.id

/-- The tensors of an instance: each slot's BASE by its SLOT_MODE (R167). -/
def instTensors (ind : Nat) (i h : Nat) (ts : List (Option Tensor)) : List (Option Tensor) :=
  (List.range ts.length).map fun n =>
    (ts.getD n none).map fun t =>
      if 4 ≤ n then t
      else
        let mode := dParam ind (97 + 2 * n) (96 + 2 * n)
        let stride := sInt 32 (dParam ind (159 + 32 * n) (128 + 32 * n))
        let sh := dParam ind 46 43
        if mode = 1 then t.shift (h * stride)
        else if mode = 2 then t.shift (i * stride)
        else if mode = 3 then t.shift ((h / 2 ^ sh * 0x800000000 : Nat) + (h % 2 ^ sh : Nat) * stride)
        else t

/-- Startable descriptors in the order of R139. -/
def State.candidates (s : State) : List (Job × JDesc × Nat) :=
  let old := fun j : Job => s.hub.runs.any fun r => r.queue = j.queue && r.seq = j.seq && r.stopped
  let all := s.hub.jobs.flatMap fun j => if j.decision.isSome || j.pendingReset ≠ 0 || old j then [] else j.descs.filterMap fun x =>
    match x.phase with
    | .startable n c => some (n, j, x, c)
    | _ => none
  let key := fun (p : Nat × Job × JDesc × Nat) => (p.1, p.2.1.order, p.2.2.1.key.id, (p.2.2.1.key.inst.map (· + 1)).getD 0)
  let lt := fun (a b : Nat × Nat × Nat × Nat) =>
    a.1 < b.1 || (a.1 = b.1 && (a.2.1 < b.2.1 || (a.2.1 = b.2.1 && (a.2.2.1 < b.2.2.1 || (a.2.2.1 = b.2.2.1 && a.2.2.2 < b.2.2.2)))))
  let ins := fun (l : List (Nat × Job × JDesc × Nat)) p => l.filter (fun q => lt (key q) (key p)) ++ [p] ++ l.filter (fun q => !lt (key q) (key p))
  (all.foldl ins []).map fun p => p.2

/-- A descriptor starts at a place (R125, R146, R199, R205). -/
def State.startAt (s : State) (j : Job) (x : JDesc) (count : Nat) (pl : Place) : State :=
  let d := s.descBits j x
  let op := dOpcode d
  match s.jobProg j with
  | none => s
  | some prog =>
    let s := s.updJob j.queue j.seq fun j => { j with started := true }
    let s := pl.boughs.foldl (fun s b => s.touch j.queue j.seq b) s
    let s := s.updDesc j.queue j.seq x.key fun y => { y with phase := .running }
    let fail := fun (s : State) st => s.failJob j.queue j.seq st x.key.id (match pl.boughs with
      | [b] => b.val
      | _ => 15)
    match s.latchTensors prog j (slotIndices d) with
    | (.error st, s) => fail s st
    | (.ok ts, s) =>
      let (arg, s) : Except Nat Nat × State := if argField d = 0 then (.ok 0, s) else s.argWord j (argField d)
      match arg with
      | .error st => fail s st
      | .ok arg =>
        if !startOk d ts arg then fail s stData
        else
          let ts := match x.key.inst with
            | some i => instTensors (s.jobDesc j x.key.id) i x.handle ts
            | none => ts
          let id := s.hub.nextRun
          let (tx, ty, o) := if hasGrid op then gridOf d ts else (0, 0, 0)
          let shares := if hasGrid op then sharesOf (tx * ty * o) pl.boughs else []
          let nring := branchesOf s.grade
          let turns := if op = opRotate then pl.boughs.map fun b => (b, dParam d 2 0 % nring) else []
          let r : Run :=
            { id := id, queue := j.queue, seq := j.seq, claim := j.claim, handle := j.handle, key := x.key, desc := d,
              level := tLevel (dTarget d), branch := pl.branch, leaf := pl.leaf, posted := pl.boughs, tens := ts, arg := arg,
              count := count, tx := tx, ty := ty, shares := shares.filter fun h => h.lo < h.hi, passes := turns }
          let s := shares.foldl (fun s h => s.updCtr h.bough (dWorkCounter d) fun _ =>
            ⟨h.lo, h.hi, 0, h.hi ≠ h.lo, 0, j.handle.val, dId d⟩) s
          if isDispatchOp op && op ≠ opIndirect then
            let s := iterate (fun s =>
              let s := if op = opEvent then s.eventOp d else s
              if dSignalEach d then s.signal d else s) count s
            s.completeDesc j.queue j.seq x.key d pl.boughs
          else
            let s := s.updHub fun h => { h with runs := h.runs ++ [r], nextRun := id + 1 }
            if op = opIndirect then s.issueIndirect id
            else if isSortOp op then
              match pl.boughs with
              | [b] => s.updBough b fun q => { q with sortWait := q.sortWait ++ [id] }
              | _ => s
            else if op = opRotate then
              if turns.all fun p => p.2 = 0 then
                (iterate (fun s => if dSignalEach d then s.signal d else s) count s).updRun id fun x => { x with ready := true }
              else s
            else
              let s := match pl.boughs, pl.branch with
                | [b], some p => s.join r b p
                | [b], none =>
                  if isHaulOp op then s.updRun id fun x => { x with units := [{ who := boughClaimant d b }] } else s
                | _, _ => s
              s.advance id

/-- DESCRIPTOR_START (R137, R139): the first startable descriptor that finds capacity starts. -/
def descriptorStart (s : State) : State :=
  match s.candidates.findSome? fun (j, x, c) =>
      ((s.places (dTarget (s.descBits j x))).find? (s.capacity (s.descBits j x))).map fun p => (j, x, c, p) with
  | none => s
  | some (j, x, c, p) => (s.startAt j x c p).wake

def execDescriptorStart (s : State) : Host.Outcome State Fault Refusal := done s (descriptorStart s)

/- Claims and ends of tiles. -/

/-- A claim is answered with a tile or with the sentinel (R200, R201, R206). -/
def State.answerClaim (s : State) (who : Claimant) : State :=
  match s.unitOf who with
  | none => s
  | some (r, u) =>
    let b := claimantBough who
    match r.shares.find? fun h => h.bough = b with
    | none => s.giveSentinel r u
    | some h =>
      let c := s.ctr b (dWorkCounter r.desc)
      if r.stopped || h.hi ≤ c.next then s.giveSentinel r u
      else
        let s := s.updCtr b (dWorkCounter r.desc) fun c => { c with next := c.next + 1 }
        let s := s.count 1 .wcClaims b.val
        let s := if c.next = h.lo then s else s.count (pointsSkipped c.next r.tx r.ty) .wcPointsSkipped b.val
        let s := s.updUnit r.id who fun x => x.take c.next
        let s := if u.running.isNone then s.startTile r.id who else s
        s.settleUnits r.id

/-- WORK_CLAIM (R200 to R203): a claimant that may claim is answered; before the counter has sought its start the claim waits, and is
never dropped. -/
def workClaim (who : Claimant) (s : State) : State :=
  match s.unitOf who with
  | none => s
  | some (r, u) =>
    let b := claimantBough who
    if u.sentinel || r.ready || (u.running.isSome && u.held.isSome) then s
    else if !r.stopped && r.shares.any fun h => h.bough = b && !h.seeked then
      s.updShare r.id b fun h => { h with claims := if h.claims.contains who then h.claims else h.claims ++ [who] }
    else s.answerClaim who

def execWorkClaim (u : Claimant) (s : State) : Host.Outcome State Fault Refusal := done s (workClaim u s)

/-- COUNTER_SEEK (R199): the counter stands at the tile of its start, and the claims that wait are answered in their order. -/
def counterSeek (b : BoughId) (c : Nat) (s : State) : State :=
  match s.ctrHolder b c with
  | none => s
  | some r =>
    match r.shares.find? fun h => h.bough = b with
    | none => s
    | some h =>
      if h.seeked then s
      else
        let s := (s.updShare r.id b fun h => { h with seeked := true, claims := [] }).count (seekSkipped h.lo r.tx r.ty) .wcPointsSkipped b.val
        h.claims.foldl State.answerClaim s

def execCounterSeek (b : BoughId) (c : BitVec 8) (s : State) : Host.Outcome State Fault Refusal := done s (counterSeek b c.toNat s)

/-- A claimant's tile ends and the tile it holds begins. -/
def State.nextTile (s : State) (r : Run) (who : Claimant) : State :=
  let s := (s.tileDone r (claimantBough who)).updUnit r.id who RunUnit.next
  (((s.startTile r.id who).settleUnits r.id).advance r.id)

/-- TILE_FINISH of a leaf group: the oldest stepped tile whose sets are all written. -/
def State.finishLeaf (s : State) (r : Run) (u : RunUnit) (b : BoughId) (p : BranchPos) (j : LeafPos) : State :=
  match u.finishing with
  | [] => s
  | k :: rest =>
    let busy := (groupLeaves (dGang r.desc) j.val).any fun l =>
      let x := s.leaf b p l
      (x.drain.any fun y => y.tile = k) || (x.fill.any fun y => y.tile = k)
    if busy then s
    else ((s.tileDone r b).updUnit r.id u.who fun x => { x with finishing := rest }).advance r.id

/-- TILE_FINISH of a vector unit: its tile's operands have come, the output is computed and written or given to its rings; the tile
ends when its last output chunk has found a slot (R254). -/
def State.finishVector (s : State) (r : Run) (u : RunUnit) (b : BoughId) (p : BranchPos) (e : WordError) : State :=
  let ends := fun s : State =>
    match s.unitOf u.who with
    | some (r, u) => if u.outHeld then s.nextTile r u.who else s
    | none => s
  match u.running with
  | none => s
  | some k =>
    if u.emitted then ends s
    else if !u.fedWhole k || !u.outsFree then s
    else
      let s := s.wordError b p e
      let drop := fun s : State => s.updUnit r.id u.who fun x => { x with running := none }
      match e with
      | .uncorrectable _ => (drop s).failRun r stUncorrectable b.val
      | _ =>
        match s.vuCodes r u k with
        | .error st => (drop s).failRun r st b.val
        | .ok (outs, fl) =>
          let s := s.setLatches b p (s.vuLatches r u k outs)
          let s := { s with free := s.free + 2 ^ 40 }
          let s := s.addFlags r fl
          let s := outs.foldl (fun s o =>
            match r.tensor o.1 with
            | some t => s.emit r u o.1 k t o.2
            | none => s) s
          ends (s.updUnit r.id u.who fun x => { x with emitted := true })

/-- TILE_FINISH of a hauler queue: every transfer of its tile is done. -/
def State.finishMover (s : State) (r : Run) (u : RunUnit) : State :=
  if u.running.isNone || u.todo ≠ [] || u.stage.isSome || (s.xfersOf r.id).any (fun x => x.who = u.who) then s
  else s.nextTile r u.who

/-- TILE_FINISH (R204). -/
def tileFinish (who : Claimant) (e : WordError) (s : State) : State :=
  match s.unitOf who with
  | none => s
  | some (r, u) =>
    (match who with
     | .leafGroup b p j => s.finishLeaf r u b p j
     | .vectorUnit b p => s.finishVector r u b p e
     | .branchQueue _ _ _ | .boughQueue _ _ => s.finishMover r u).wake

def execTileFinish (u : Claimant) (e : WordError) (s : State) : Host.Outcome State Fault Refusal := done s (tileFinish u e s)

/- Completion. -/

/-- A descriptor whose work is all done completes; one of a stopped job that is idle leaves. -/
def State.endRun (s : State) (r : Run) : State :=
  let s := if r.stopped then r.posted.foldl (fun s b => s.updBough b fun x => { x with sortWait := x.sortWait.filter (· ≠ r.id) }) s else s
  let whole := r.ready || (dOpcode r.desc = opIndirect && (s.job? r.queue r.seq).any fun j =>
    j.descs.all fun x => x.key.inst.isNone || x.key.id ≠ r.key.id || x.phase = .done)
  if whole && !r.stopped then ((s.release r).completeDesc r.queue r.seq r.key r.desc r.posted).wake
  else if r.stopped && s.runIdle r then (s.release r).wake
  else s

/-- DESCRIPTOR_COMPLETE (R24, R168, R206); an INDIRECT that has not issued its instances takes the words that have come (R166). -/
def descriptorComplete (q : QueueId) (seq : BitVec 32) (id : Nat) (inst : Option Nat) (s : State) : State :=
  match s.hub.runs.find? fun r => r.queue = q && r.seq = seq && r.key = ⟨id, inst⟩ with
  | none => s
  | some r => if dOpcode r.desc = opIndirect && r.iter ≠ 1 then (s.pollIndirect r).wake else s.endRun r

def execDescriptorComplete (q : QueueId) (seq : BitVec 32) (id : Nat) (inst : Option Nat) (s : State) : Host.Outcome State Fault Refusal :=
  done s (descriptorComplete q seq id inst s)

end Sys2Proof.Machine
end

