-- ==== Sys2Proof/Machine/Sorting.lean ====
section
/-! DEFINITION. The sort unit, ROTATE, and the clear objects of the counters (R115 to R122, R214, R240 to R243, R258 to R260, R373). -/
namespace Sys2Proof.Machine
open Sys2Proof

/-- A key: its index, its bits, and its number where it is an FP32 score (R116). -/
structure SortKey where
  idx : Nat
  bits : Nat
  score : Option Val
  deriving DecidableEq, Repr

/-- Whether a later key goes before an earlier one: strictly by the order, a NaN never before anything (R116). -/
def keyBefore (desc : Bool) (a b : SortKey) : Bool :=
  match a.score, b.score with
  | some x, some y => !x.isNan && (y.isNan || (if desc then y.lt x else x.lt y))
  | _, _ => if desc then b.bits < a.bits else a.bits < b.bits

/-- Put a key into a sorted list after every key it does not go before. -/
def insertKey (desc : Bool) (k : SortKey) : List SortKey → List SortKey
  | [] => [k]
  | x :: xs => if keyBefore desc k x then k :: x :: xs else x :: insertKey desc k xs

/-- The stable order of R116. -/
def sortKeys (desc : Bool) (l : List SortKey) : List SortKey := l.foldl (fun acc k => insertKey desc k acc) []

/-- Words of a box that are in extent (R208): its four corners stand along dimension 0. -/
def boxWords (t : Tensor) : Nat := min 4 (t.extent 0)

/-- The words a sort operation reads from its slots, in order: only positions within the valid extent take part (R116). -/
def Run.sortPlaces (r : Run) : List (Tensor × List Coord) :=
  match r.tensor 0 with
  | none => []
  | some t =>
    if dOpcode r.desc = opNms then
      (t, t.valid ((List.range (t.extent 1)).flatMap fun i => (List.range 4).map fun j => [j, i])) ::
        ((r.tensor 1).toList.map fun q => (q, q.valid ((List.range (q.extent 0)).map fun i => [i])))
    else if t.fmt = 0xD then [(t, t.valid ((List.range (t.extent 0)).map fun i => [i]))]
    else [(t, (List.range (t.extent 1)).flatMap fun i => if t.inExtent [0, i] && t.inExtent [1, i] then [[0, i], [1, i]] else [])]

/-- Keys that are FP32 scores, and U64 keys, from their words. -/
def scoreKeys (ws : List Nat) : List SortKey := (List.range ws.length).map fun i => let w := ws.getD i 0; ⟨i, w, some (fp32.decode w)⟩
def wideKeys (ws : List Nat) : List SortKey :=
  (List.range (ws.length / 2)).map fun i => ⟨i, ws.getD (2 * i) 0 + ws.getD (2 * i + 1) 0 * 2 ^ 32, none⟩

/-- Element writes of a list of 32-bit words to places of a tensor, those in extent (R210). -/
def wordPuts (t : Tensor) (es : List (Coord × Nat)) : List Put :=
  (es.filter fun e => t.inExtent e.1).flatMap fun e => t.putsAt 0 e.1 e.2

/-- Element writes of keys. -/
def keyPuts (t : Tensor) (ks : List SortKey) : List Put :=
  wordPuts t ((List.range ks.length).flatMap fun i =>
    let k := ks.getD i ⟨0, 0, none⟩
    if k.score.isSome then [([i], k.bits)] else [([0, i], k.bits % 2 ^ 32), ([1, i], k.bits / 2 ^ 32)])

/-- Element writes of S32 indices, from position `start` on. -/
def indexPuts (t : Tensor) (start : Nat) (l : List Int) : List Put :=
  wordPuts t ((List.range l.length).map fun i => ([start + i], codeOfInt 32 (l.getD i 0)))

/-- A box and the two quantities of R243. -/
structure Box where
  x1 : BitVec 32
  y1 : BitVec 32
  x2 : BitVec 32
  y2 : BitVec 32
  deriving DecidableEq, Repr

def Box.area (q : Box) : BitVec 32 := fmul (fmax fzero (fsub q.x2 q.x1)) (fmax fzero (fsub q.y2 q.y1))

/-- A kept box a suppresses a candidate b (R243). -/
def suppresses (iou : BitVec 32) (a b : Box) : Bool :=
  let w := fmax fzero (fsub (fmin a.x2 b.x2) (fmax a.x1 b.x1))
  let h := fmax fzero (fsub (fmin a.y2 b.y2) (fmax a.y1 b.y1))
  let inter := fmul w h
  let union := fsub (fadd a.area b.area) inter
  (fval (fmul iou union)).lt (fval inter)

/-- NMS over candidates in order (R242). -/
def nmsKeep (iou : BitVec 32) (m : Nat) (boxOf : Nat → Box) : List SortKey → List SortKey → List SortKey
  | [], kept => kept
  | c :: cs, kept =>
    if m ≤ kept.length then kept
    else if kept.any fun k => suppresses iou (boxOf k.idx) (boxOf c.idx) then nmsKeep iou m boxOf cs kept
    else nmsKeep iou m boxOf cs (kept ++ [c])

/-- NAN_WRITTEN where a sort operation writes a NaN to a floating output (R58). -/
def sortFlags (o : Tensor) (ps : List Put) : NumFlags := orFlags (ps.map fun p => nanFlag o.fmt p.code)

/-- What a sort operation writes to its output and to its indices, from the words read (R116, R240 to R243). -/
def Run.sortPuts (r : Run) (ws : List Nat) : List Put × List Put :=
  let d := r.desc
  let desc := dParam d 0 0 = 1
  let m := dParam d 42 32
  let idxOf := fun (n : Nat) (l : List Int) => ((r.tensor n).map fun t => indexPuts t 0 l).getD []
  match r.tensor 0, r.tensor 2 with
  | some t, some o =>
    if dOpcode d = opNms then
      let nb := ((r.sortPlaces.headD (t, [])).2).length
      let keys := scoreKeys (ws.drop nb)
      let lo := fval (dParamF d 80)
      let cand := keys.filter fun k => (k.score.map fun v => !v.isNan && !lo.isNan && !v.lt lo).getD false
      let b := fun i j => if j < boxWords t && i * boxWords t + j < nb then BitVec.ofNat 32 (ws.getD (i * boxWords t + j) 0) else fzero
      let kept := nmsKeep (dParamF d 48) m (fun i => ⟨b i 0, b i 1, b i 2, b i 3⟩) (sortKeys true cand) []
      let boxes := wordPuts o ((List.range kept.length).flatMap fun n =>
        let i := (kept.getD n ⟨0, 0, none⟩).idx
        (List.range 4).map fun j => ([j, n], (b i j).toNat))
      (boxes, idxOf 3 ((kept.length : Int) :: kept.map fun k => (k.idx : Int)))
    else
      let fp := t.fmt = 0xD
      let out := sortKeys desc (if fp then scoreKeys ws else wideKeys ws)
      if dOpcode d = opSort then (keyPuts o out, idxOf 3 (out.map fun k => (k.idx : Int)))
      else
        let fill : SortKey := if fp then ⟨0, (f32 (.inf desc)).toNat, some (.inf desc)⟩ else ⟨0, if desc then 0 else 2 ^ 64 - 1, none⟩
        let top := out.take m
        let pad := m - top.length
        (keyPuts o (top ++ List.replicate pad fill), idxOf 3 ((top.map fun k => (k.idx : Int)) ++ List.replicate pad (-1)))
  | _, _ => ([], [])

/-- Bytes of scratch an operation uses (R117). -/
def scratchBytes (d n : Nat) : Nat := if dOpcode d = opTopk then 32 * dParam d 42 32 else 16 * n

/-- Steps an operation takes at most (R118). -/
def sortBound (d n : Nat) : Nat :=
  let lg := fun x => if x ≤ 1 then 0 else Nat.log2 (x - 1) + 1
  let up := fun a b => (a + b - 1) / b
  let sort := up n 16 * (lg n + 1) + 32
  let m := dParam d 42 32
  if dOpcode d = opSort then sort
  else if dOpcode d = opTopk then up n 16 + up m 16 * (lg m + 1) + 32
  else sort + n * max 1 (up m 64)

/-- Keys that take part (R116): scores, pairs of words, or boxes by their scores. -/
def Run.sortCount (r : Run) : Nat :=
  let n := ((r.sortPlaces.getLast?).map fun p => p.2.length).getD 0
  if dOpcode r.desc ≠ opNms && (r.tensor 0).any fun t => t.fmt ≠ 0xD then n / 2 else n

/-- Where the scratch tensor of an operation lies: its branch and offset (R117). -/
def State.scratchAt (s : State) (r : Run) (b : BoughId) : Option (BoughId × BranchPos × Nat) :=
  (r.tensor 6).bind fun t =>
    if t.rel then some (b, Fin.ofNat 6 (dParam r.desc 45 43), t.base)
    else
      match s.region t.base with
      | .localMem c p off => some (c, Fin.ofNat 6 p, off)
      | _ => none

/-- The scratch tensor's contents afterwards are not stated: they are free. -/
def State.useScratch (s : State) (r : Run) (b : BoughId) : State :=
  match s.scratchAt r b with
  | none => s
  | some (c, p, off) =>
    let (bs, s) := s.drawBytes (scratchBytes r.desc r.sortCount)
    s.localWrite c p off bs

/-- SORT_UNIT_START (R119): the oldest request begins where the unit performs none. -/
def sortUnitStart (b : BoughId) (s : State) : State :=
  let x := s.boughs[b]
  match x.sortBusy, x.sortWait with
  | none, id :: rest => s.updBough b fun x => { x with sortBusy := some id, sortWait := rest }
  | _, _ => s

def execSortUnitStart (b : BoughId) (s : State) : Host.Outcome State Fault Refusal := done s (sortUnitStart b s)

/-- An iteration of a descriptor without a grid ends. -/
def State.passEnd (s : State) (r : Run) (again : State → State) : State :=
  let s := if dSignalEach r.desc then s.signal r.desc else s
  if r.iter + 1 < r.count && !r.stopped then again (s.updRun r.id fun x => { x with iter := x.iter + 1 })
  else s.updRun r.id fun x => { x with ready := true }

/-- The sort unit is free, and what its operation's end brings. -/
def State.sortFree (s : State) (b : BoughId) : State := s.updBough b fun x => { x with sortBusy := none }

/-- An operation whose writes are acknowledged ends its iteration (R146). -/
def State.sortEnd (s : State) (r : Run) (b : BoughId) : State :=
  ((s.sortFree b).updRun r.id fun x => { x with pulls := [], acks := [] }).passEnd { r with pulls := [], acks := [] } fun s =>
    s.updBough b fun x => { x with sortWait := x.sortWait ++ [r.id] }

/-- An operation fails. -/
def State.sortFail (s : State) (r : Run) (b : BoughId) (e : Nat) : State :=
  ((s.sortFree b).updRun r.id fun x => { x with pulls := [], acks := [] }).failRun r e b.val

/-- An operation whose words have all come: its results are written; writes of other members wait for their acknowledgements. -/
def State.sortWrite (s : State) (r : Run) (b : BoughId) (ws : List Nat) : State :=
  let (w, s) := s.drawWord
  let s := (s.count 1 .sortOps b.val).count (1 + w.toNat % max 1 (sortBound r.desc r.sortCount)) .sortBusySteps b.val
  let s := s.useScratch r b
  let ps := r.sortPuts ws
  let s := s.addFlags r (((r.tensor 2).map fun o => sortFlags o ps.1).getD 0)
  match s.writePuts r [] (ps.1 ++ ps.2) with
  | (.error e, s) => s.sortFail r b e
  | (.ok [], s) => s.sortEnd r b
  | (.ok ts, s) => s.updRun r.id fun x => { x with acks := ts }

/-- The words that a sort operation reads. -/
def State.pullAll (s : State) (r : Run) : List (Tensor × List Coord) → Except Nat (List Pull) × State
  | [] => (.ok [], s)
  | (t, cs) :: rest =>
    match s.pullWords r t cs with
    | (.error e, s) => (.error e, s)
    | (.ok ps, s) =>
      match s.pullAll r rest with
      | (.ok qs, s) => (.ok (ps ++ qs), s)
      | x => x

/-- The operation's reads: asked for at once, taken as they come, and the results written when all have come. -/
def State.sortRead (s : State) (r : Run) (b : BoughId) : State :=
  match (if r.pulls = [] then s.pullAll r r.sortPlaces else s.pollPulls r.pulls) with
  | (.error e, s) => s.sortFail r b e
  | (.ok ps, s) =>
    match pulledWords ps with
    | some ws => s.sortWrite r b ws
    | none => s.updRun r.id fun x => { x with pulls := ps }

/-- SORT_UNIT_DONE (R118): the operation's results are written; it goes on while answers of other members are outstanding. What the code
of local memory finds counts where the word is the scratch tensor's (R108, R117). -/
def sortUnitDone (b : BoughId) (q : BranchPos) (e : WordError) (s : State) : State :=
  match s.boughs[b].sortBusy with
  | none => s
  | some id =>
    match s.run? id with
    | none => s.sortFree b
    | some r =>
      if r.acks ≠ [] then
        match s.answers r.acks with
        | (none, s) => s
        | (some (.error e), s) => s.sortFail r b e
        | (some (.ok _), s) => s.sortEnd r b
      else
        match s.scratchAt r b with
        | none => s.sortRead r b
        | some (c, p, off) =>
          let e := errorIf e (c = b && p = q && errorIn e off (scratchBytes r.desc r.sortCount))
          let s := s.wordError c p e
          match e with
          | .uncorrectable _ => s.sortFail r b stUncorrectable
          | _ => s.sortRead r b

def execSortUnitDone (b : BoughId × BranchPos × WordError) (s : State) : Host.Outcome State Fault Refusal := done s (sortUnitDone b.1 b.2.1 b.2.2 s)

/-- One pass of a bough's ring: the branch at position p receives the shard of position p − 1 (R258, R259). -/
def State.rotateOnce (s : State) (b : BoughId) (off len : Nat) : State :=
  let n := branchesOf s.grade
  let old := (List.range n).map fun p => s.mem.readBytes (localBase b p + off) len
  (List.range n).foldl (fun s p => s.localWrite b (Fin.ofNat 6 p) off (old.getD ((p + n - 1) % n) [])) s

/-- ROTATE_PASS (R260): the first rotation of the bough with passes left makes one; a poisoned word of a shard fails it (R108). -/
def rotatePass (b : BoughId) (p : BranchPos) (e : WordError) (s : State) : State :=
  match s.hub.runs.find? fun r => r.passes.any fun p => p.1 = b && 0 < p.2 with
  | none => s
  | some r =>
    match r.tensor 0 with
    | none => s
    | some t =>
      let s := s.wordError b p (errorIf e (p.val < branchesOf s.grade && errorIn e t.base t.bufSize))
      let bad := s.branchList.any fun p => (wordsOf t.base t.bufSize).any (s.wordPoisoned b p)
      if bad then
        (s.updRun r.id fun x => { x with passes := x.passes.map fun p => (p.1, 0) }).failRun r stUncorrectable b.val
      else
        let s := s.rotateOnce b t.base t.bufSize
        let s := s.updRun r.id fun x => { x with passes := x.passes.map fun p => if p.1 = b then (p.1, p.2 - 1) else p }
        match s.run? r.id with
        | none => s
        | some r' =>
          if r'.passes.all fun p => p.2 = 0 then
            s.passEnd r' fun s => s.updRun r.id fun x =>
              { x with passes := x.posted.map fun b => (b, dParam x.desc 2 0 % branchesOf s.grade) }
          else s

def execRotatePass (b : BoughId × BranchPos × WordError) (s : State) : Host.Outcome State Fault Refusal := done s (rotatePass b.1 b.2.1 b.2.2 s)

/- Clears (R121, R214, R373). -/

/-- Objects of a group, with their place. -/
def groupObs : CounterGroup → List (Ob × Nat × Nat)
  | .branch b r => [.leafSteps, .leafFrozenFeed, .leafFrozenDrain, .leafFrozenEscape, .leafFrozenGang, .bankConflicts].map fun o => (o, b.val, r.val)
  | .sort b => [.sortOps, .sortBusySteps].map fun o => (o, b.val, 0)
  | .work b => [.wcClaims, .wcSentinels, .wcPointsSkipped].map fun o => (o, b.val, 0)
  | .slice k => [.sliceHits, .sliceMisses, .sliceWritebacks, .sliceCe, .sliceUe].map fun o => (o, k.val, 0)

/-- The clear object of a group. -/
def groupClear : CounterGroup → Ob × Nat × Nat
  | .branch b r => (.branchCountersClear, b.val, r.val)
  | .sort b => (.sortCountersClear, b.val, 0)
  | .work b => (.wcCountersClear, b.val, 0)
  | .slice k => (.sliceCountersClear, k.val, 0)

/-- Every counter of the group is zero at once. -/
def State.clearGroup (s : State) (g : CounterGroup) : State := (groupObs g).foldl (fun s o => s.setReg o.1 0 o.2.1 o.2.2) s

/-- When the last confidential claim is released, every counter of R122 reads zero. -/
def State.clearStats (s : State) : State :=
  let gs : List CounterGroup := ([0, 1, 2, 3] : List BoughId).flatMap (fun b =>
    [.sort b, .work b] ++ ([0, 1, 2, 3, 4, 5] : List BranchPos).map fun r => .branch b r) ++
    ([0, 1, 2, 3, 4, 5, 6, 7] : List (Fin 8)).map .slice
  gs.foldl State.clearGroup s

end Sys2Proof.Machine
end

