-- ==== Sys2Proof/Machine/Queues.lean ====
section
/-! DEFINITION. Work queues, acceptance, the journal, completion records, cancels and deadlines, and the handles of jobs
(R192, R262 to R270, R375 to R394). -/
namespace Sys2Proof.Machine
open Sys2Proof

/- Handle queues (R262 to R266). -/

/-- Change handle queue (b, q). -/
def State.updHq (s : State) (b : BoughId) (q : HqPos) (f : HandleQueue → HandleQueue) : State :=
  s.updBough b fun x => { x with hqs := upd x.hqs q f }

def State.hq (s : State) (b : BoughId) (q : HqPos) : HandleQueue := (s.boughs[b]).hqs[q]

/-- A handle of a source, a tag and a buffer (R262). -/
def handleWord (source tag index : Nat) : BitVec 64 := BitVec.ofNat 64 (index % 64 + tag % 2 ^ 28 * 2 ^ 32 + source * 2 ^ 60)

/-- The buffer of a handle. -/
def handleIndex (h : BitVec 64) : Nat := h.toNat % 64

/-- A posted buffer enters its queue (R264), or is refused while the bough is fenced or resetting (R269). `mine` takes the buffer
out of the list it stood in. -/
def State.hqPut (s : State) (b : BoughId) (q : HqPos) (h : BitVec 64) (mine : HandleQueue → HandleQueue) : State :=
  if s.boughs[b].state.inReset then
    (s.updHq b q fun x => let y := mine x; { y with free := y.free ++ [handleIndex h] }).bump .hqDrops b.val q.val
  else (s.updHq b q fun x => let y := mine x; { y with queued := y.queued ++ [h] }).bump .hqPosts b.val q.val

/-- The oldest job that waits for a queue, in acceptance order (R266). -/
def State.oldestWaiting (s : State) (p : Job → Bool) : Option Job := s.hub.jobs.find? fun j => j.decision.isNone && p j

/-- JOB_HANDLE_TAKE (R266). -/
def jobHandleTake (b : BoughId) (q : HqPos) (s : State) : State :=
  match s.oldestWaiting fun j => j.take = some (b, q) && j.taken.isNone, (s.hq b q).queued with
  | some j, h :: rest =>
    let s := s.updHq b q fun x => { x with queued := rest, held := x.held ++ [handleIndex h] }
    ((s.updJob j.queue j.seq fun j => { j with taken := some h }).touch j.queue j.seq b).wake
  | _, _ => s

def execJobHandleTake (b : BoughId) (q : HqPos) (s : State) : Host.Outcome State Fault Refusal := done s (jobHandleTake b q s)

/-- A producer that asked for a FREE buffer of a queue still needs it. -/
def State.stillAsks (s : State) (b : BoughId) (q : HqPos) (p : Producer) : Bool :=
  let dec := fun (jpeg : Bool) => s.decoder.run.any fun r =>
    (r.op = 2) = jpeg && r.bough = b && r.queue = q && r.pictures ≠ [] && r.buffer.isNone
  match p with
  | .videoDecoder => dec false
  | .jpegDecoder => dec true
  | .samplePipe => s.sample.state = .waiting && bits (s.reg .spTarget) 8 7 = b.val && bits (s.reg .spTarget) 4 0 = q.val
  | .ipipe0 | .ipipe1 => false

/-- The producers that wait for a FREE buffer of a queue, oldest first. -/
def State.asking (s : State) (b : BoughId) (q : HqPos) : List (Producer × Nat) := (s.hq b q).asks.filter fun a => s.stillAsks b q a.1

/-- Jobs that wait to reserve a buffer of a queue. -/
def State.reserving (s : State) (b : BoughId) (q : HqPos) : List Job :=
  s.hub.jobs.filter fun j => j.decision.isNone && j.post = some (b, q) && j.reserved.isNone

/-- JOB_BUFFER_RESERVE (R266, R268): the oldest job that waits takes the oldest FREE buffer, unless a producer has waited longer. -/
def jobBufferReserve (b : BoughId) (q : HqPos) (s : State) : State :=
  match s.oldestWaiting fun j => j.post = some (b, q) && j.reserved.isNone, (s.hq b q).free with
  | some j, i :: rest =>
    if (s.asking b q).any fun a => a.2 ≤ j.order then s
    else
      let s := s.updHq b q fun x => { x with free := rest, held := x.held ++ [i] }
      ((s.updJob j.queue j.seq fun j => { j with reserved := some i }).touch j.queue j.seq b).wake
  | _, _ => s

def execJobBufferReserve (b : BoughId) (q : HqPos) (s : State) : Host.Outcome State Fault Refusal := done s (jobBufferReserve b q s)

/-- A binding's refusal (R263, R270). -/
def State.hqBindCodes (s : State) (b : BoughId) (q : HqPos) : List Nat :=
  let shape := s.reg .hqPoolShape b.val q.val
  let base := s.regN .hqPoolBase b.val q.val
  let stride := bits shape 31 0
  let count := bits shape 39 32
  let c : ClaimId := Fin.ofNat 16 (bits shape 47 44)
  if (s.hq b q).bound then []
  else
    codeIf (stride = 0 || stride % 2048 ≠ 0 || count < 2 || 64 < count ||
      !(s.rangeGrants c base (count * stride) true true || (c = 0 && s.rangeEarly base (count * stride)))) 0xA300

/-- HQ_BIND (R263): every buffer FREE, in index order; a bound queue stays as it is. -/
def State.hqBindFx (s : State) (b : BoughId) (q : HqPos) : State :=
  if (s.hq b q).bound then s
  else
    let shape := s.reg .hqPoolShape b.val q.val
    s.updHq b q fun _ =>
      { bound := true, claim := Fin.ofNat 16 (bits shape 47 44), base := s.regN .hqPoolBase b.val q.val,
        stride := bits shape 31 0, count := bits shape 39 32, free := List.range (bits shape 39 32) }

/-- HQ_UNBIND (R270). -/
def State.hqUnbindCodes (s : State) (b : BoughId) (q : HqPos) : List Nat :=
  let h := s.hq b q
  codeIf (h.filling ≠ [] || h.held ≠ []) 0xA400

def State.hqUnbindFx (s : State) (b : BoughId) (q : HqPos) : State := s.updHq b q fun _ => {}

/-- HQ_POST (R265): the codes of a host post. -/
def State.hqPostCodes (s : State) (b : BoughId) (q : HqPos) (v : Word) : List Nat :=
  let h := s.hq b q
  codeIf (bits v 63 60 ≠ 0 || bits v 31 6 ≠ 0) 0xA300 ++
  codeIf (!h.bound || !h.free.contains (handleIndex v) || s.boughs[b].state.inReset) 0xA400 ++
  codeIf (h.bound && (s.claimState h.claim).confidential) 0xA202

/-- A refused post at a fenced or resetting bough is counted (R269). -/
def State.hqPostRefused (s : State) (b : BoughId) (q : HqPos) : State :=
  if s.boughs[b].state.inReset then s.bump .hqDrops b.val q.val else s

def State.hqPostFx (s : State) (b : BoughId) (q : HqPos) (v : Word) : State :=
  s.hqPut b q v fun h => { h with free := h.free.filter (· ≠ handleIndex v) }

/- Rings of a queue (R375 to R377). -/

def State.wqClaim (s : State) (q : QueueId) : ClaimId := Fin.ofNat 16 (bits (s.reg .wqShape q.val) 27 24)
def State.wqSubLog (s : State) (q : QueueId) : Nat := bits (s.reg .wqShape q.val) 3 0
def State.wqCompLog (s : State) (q : QueueId) : Nat := bits (s.reg .wqShape q.val) 7 4

/-- The PCIe outbound row (R29). -/
def inPcieRow (a len : Nat) : Bool := 0x40000000000 ≤ a && a + len ≤ 0x80000000000

/-- Change a queue. -/
def State.updWq (s : State) (q : QueueId) (f : WorkQueue → WorkQueue) : State := s.updHub fun h => { h with queues := upd h.queues q f }

def State.wq (s : State) (q : QueueId) : WorkQueue := s.hub.queues[q]

/-- A ring may stand where it is (R376). -/
def State.ringOk (s : State) (c : ClaimId) (a len : Nat) (read : Bool) : Bool :=
  s.rangeGrants c a len read (!read) || (c = 0 && s.rangeEarly a len) || inPcieRow a len

/-- WQ_ENABLE (R376). -/
def State.wqEnableCodes (s : State) (q : QueueId) : List Nat :=
  let c := s.wqClaim q
  let sl := s.wqSubLog q
  let cl := s.wqCompLog q
  let sb := s.regN .wqSubBase q.val
  let cb := s.regN .wqCompBase q.val
  codeIf (sl < 4 || 12 < sl || cl < 4 || 12 < cl || cl < sl || sb % 64 ≠ 0 || cb % 64 ≠ 0 ||
    !s.ringOk c sb (2 ^ sl * 64) true || !s.ringOk c cb (2 ^ cl * 32) false) 0xA300 ++
  codeIf (!s.ready rWorkHub || !(s.claimState c).isOpen) 0xA400

def State.wqEnableFx (s : State) (q : QueueId) : State :=
  s.updWq q fun w => { w with enabled := true, acceptIndex := 0, compWrite := 0, compRead := 0, refusal := 0, refusedAt := 0 }

/-- WQ_DISABLE (R376). -/
def State.wqDisableCodes (s : State) (q : QueueId) : List Nat := codeIf (s.hub.jobs.any fun j => j.queue = q) 0xA400

def State.wqDisableFx (s : State) (q : QueueId) : State := s.updWq q fun w => { w with enabled := false }

/-- A refused access to a queue's window returns the abort; port_status names the queue's index (log entry 16). -/
def State.refuseWindow (s : State) (r : Requester) (q : QueueId) (code : Nat) : State :=
  s.refuse r (objNum (0x2000 + 16 * q.val) 0) false code

/-- The window is reached by host cores and through PCIe BAR2 (R377). -/
def reachesWindow (r : Requester) : Bool := r = .host || r = .pcie

/- Acceptance (R378 to R380). -/

/-- A job record's fields, its 64 bytes as one number. -/
def recReservedOk (v : Nat) : Bool :=
  nbits v 511 256 = 0 && nbits v 191 176 = 0 && nbits v 127 103 = 0 && nbits v 95 89 = 0 && nbits v 78 72 = 0 && nbits v 63 54 = 0
def recHq (v lo : Nat) : BoughId × HqPos := (Fin.ofNat 4 (nbits v (lo + 6) (lo + 5)), Fin.ofNat 32 (nbits v (lo + 4) lo))

/-- Memory a ring lies in, read for a queue's claim; the outbound row brings free bytes. -/
def State.ringRead (s : State) (c : ClaimId) (a len : Nat) : Except Nat (List Byte) × State :=
  if inPcieRow a len then
    if s.pcieUp (a - 0x40000000000) then
      let (bs, s) := s.drawBytes len
      (.ok bs, s)
    else (.error stFenced, s)
  else
    match s.readMem (.job c) a len with
    | (.ok bs, s) => (.ok bs, s)
    | (.error f, s) => (.error f.status, s)

/-- The shape words of a job, read once in order (R192). -/
def State.shapeWords (s : State) (j : Job) : List Nat → Except Nat (List Nat) × State
  | [] => (.ok [], s)
  | n :: ns =>
    match s.argWord j n with
    | (.error e, s) => (.error e, s)
    | (.ok w, s) =>
      match s.shapeWords j ns with
      | (.ok ws, s) => (.ok (w :: ws), s)
      | x => x

/-- The lowest bucket in which every word is within its bound (R192). -/
def pickBucket (bounds : List (List Nat)) (ws : List Nat) : Option Nat :=
  findIdxOpt (fun row => (List.range ws.length).all fun i => ws.getD i 0 ≤ row.getD i 0) bounds

/-- Descriptors of a job's entry that are not templates, waiting. -/
def State.freshDescs (s : State) (j : Job) : List JDesc :=
  match s.jobEntry j with
  | none => []
  | some e =>
    (((List.range (e.last + 1 - e.first)).map (e.first + ·)).filter fun i => !dTemplate (s.jobDesc j i)).map fun i => { key := ⟨i, none⟩ }

/-- Why a record is refused, if it is (R380): the code and its abort, in the order of the codes. -/
def State.recordRefusal (s : State) (q : QueueId) (v : Nat) : Option (Nat × Nat) :=
  let c := s.wqClaim q
  let arg := nbits v 47 0
  let w := s.wq q
  let takes := v.testBit 80
  let posts := v.testBit 81
  let t := recHq v 82
  let p := recHq v 96
  let hqs := (if takes then [s.hq t.1 t.2] else []) ++ (if posts then [s.hq p.1 p.2] else [])
  if !recReservedOk v || arg % 64 ≠ 0 then some (0x04, 0xA300)
  else
    match s.bundle? (Fin.ofNat 64 (nbits v 53 48)) with
    | none => some (0x05, 0xA400)
    | some b =>
      if b.claim ≠ c then some (0x06, 0xA400)
      else
        match (b.buckets.head?.bind fun g => g.entries[nbits v 71 64]?) with
        | none => some (0x07, 0xA300)
        | some e =>
          if !s.rangeGrants c arg (4 * e.argWords) true false then some (0x08, 0xA300)
          else if hqs.any fun h => !h.bound then some (0x09, 0xA400)
          else if hqs.any fun h => h.claim ≠ c then some (0x0A, 0xA400)
          else if takes && posts && t = p then some (0x0B, 0xA300)
          else if 4096 ≤ s.hub.jobs.length then some (0x0C, 0xA500)
          else if (w.acceptIndex - w.compRead).toNat = 2 ^ s.wqCompLog q then some (0x0D, 0xA500)
          else none

/-- A record that passes every check is accepted: its journal entry, its bucket, and what decides it at once (R379, R380). -/
def State.acceptJob (s : State) (q : QueueId) (v : Nat) : State :=
  let w := s.wq q
  let timeout := nbits v 175 128
  let h : Fin 64 := Fin.ofNat 64 (nbits v 53 48)
  let j : Job :=
    { queue := q, seq := w.acceptIndex, claim := s.wqClaim q, handle := h, entry := nbits v 71 64, argAddr := nbits v 47 0,
      userTag := BitVec.ofNat 64 (nbits v 255 192), deadline := if timeout = 0 then none else some (s.now.toNat + timeout),
      replayable := v.testBit 79, take := if v.testBit 80 then some (recHq v 82) else none,
      post := if v.testBit 81 then some (recHq v 96) else none, order := s.hub.nextOrder, bucket := 0 }
  let s := s.updHub fun x => { x with jobs := x.jobs ++ [j], nextOrder := x.nextOrder + 1 }
  let s := (s.updWq q fun w => { w with acceptIndex := w.acceptIndex + 1 }).bump .wqAccepted q.val
  match s.bundle? h with
  | none => s
  | some b =>
    if b.lost then s.decide q j.seq stLostInput
    else
      match s.shapeWords j b.varWords with
      | (.error e, s) => s.decide q j.seq e
      | (.ok ws, s) =>
        match pickBucket b.bounds ws with
        | none => s.decide q j.seq stData
        | some i =>
          let j' := { j with bucket := i }
          s.updJob q j.seq fun x => { x with bucket := i, descs := s.freshDescs j' }

/-- The work hub examines records in ring order until one is refused (R379). -/
def State.acceptLoop (r : Requester) (q : QueueId) : Nat → State → State
  | 0, s => s
  | n + 1, s =>
    let i := (s.wq q).acceptIndex
    let refuse := fun (s : State) code abort =>
      (s.updWq q fun w => { w with refusal := code, refusedAt := i }).refuseWindow r q abort
    match s.ringRead (s.wqClaim q) (s.regN .wqSubBase q.val + i.toNat % 2 ^ s.wqSubLog q * 64) 64 with
    | (.error _, s) => refuse s 0x03 0xA400
    | (.ok bs, s) =>
      match s.recordRefusal q (leNat bs) with
      | some (code, abort) => refuse s code abort
      | none => State.acceptLoop r q n (s.acceptJob q (leNat bs))

/-- DOORBELL (R379, R380). -/
def doorbell (r : Requester) (q : QueueId) (v : BitVec 32) (s : State) : State :=
  let w := s.wq q
  let n := (v - w.acceptIndex).toNat
  let whole := fun code abort => (s.updWq q fun w => { w with refusal := code, refusedAt := w.acceptIndex }).refuseWindow r q abort
  if !reachesWindow r then s
  else if !w.enabled then whole 0x01 0xA400
  else if n = 0 then s
  else if 2 ^ s.wqSubLog q < n then whole 0x02 0xA300
  else (State.acceptLoop r q n s).wake

def execDoorbell (r : Requester) (q : QueueId) (v : BitVec 32) (s : State) : Host.Outcome State Fault Refusal := done s (doorbell r q v s)

/-- COMP_READ_WRITE (R377). -/
def compReadWrite (r : Requester) (q : QueueId) (v : BitVec 32) (s : State) : State :=
  let w := s.wq q
  if !reachesWindow r then s
  else if (w.compWrite - w.compRead).toNat < (v - w.compRead).toNat then s.refuseWindow r q 0xA300
  else s.updWq q fun w => { w with compRead := v }

def execCompReadWrite (r : Requester) (q : QueueId) (v : BitVec 32) (s : State) : Host.Outcome State Fault Refusal :=
  done s (compReadWrite r q v s)

/- Cancels and deadlines (R389, R390). -/

def State.cancelJob (s : State) (q : QueueId) (seq : BitVec 32) : State := (s.decide q seq stCancelled).wake

/-- Every undecided job that a test names, one after another in acceptance order. -/
def State.cancelWhere (s : State) (p : Job → Bool) : State :=
  ((s.hub.jobs.filter p).foldl (fun s j => s.decide j.queue j.seq stCancelled) s).wake

/-- JOB_DEADLINE (R390): at the deadline tick the deadline enters the job's element. -/
def jobDeadline (q : QueueId) (seq : BitVec 32) (s : State) : State :=
  match s.job? q seq with
  | none => s
  | some j =>
    if j.deadline.any fun d => d ≤ s.now.toNat then
      (s.decide q seq (if j.started || 0 < j.replays then stTimedOut else stTimedOutUnstarted)).wake
    else s

def execJobDeadline (q : QueueId) (seq : BitVec 32) (s : State) : Host.Outcome State Fault Refusal := done s (jobDeadline q seq s)

/- Completion records (R387, R388). -/

/-- STATE of wq_oldest (R383). -/
def State.jobState (s : State) (j : Job) : Nat :=
  let busy := s.hub.runs.any fun r => r.queue = j.queue && r.seq = j.seq
  if j.decision.isSome then (if busy then 4 else 5)
  else if !j.settled then 1
  else if !j.started then 2
  else 3

/-- The oldest unrecorded job of a queue. -/
def State.oldestJob (s : State) (q : QueueId) : Option Job := s.hub.jobs.find? fun j => j.queue = q

/-- The bytes of a completion record (R387). -/
def recordBytes (j : Job) (d : Decision) (epoch : BitVec 64) (compWrite compLog : Nat) : List Byte :=
  leBytes 32 (bitN (compWrite / 2 ^ compLog % 2 = 0) 0 + d.status * 2 ^ 16 + j.flags.toNat * 2 ^ 32 + j.replays % 256 * 2 ^ 40 +
    epoch.toNat % 2 ^ 16 * 2 ^ 48 + j.seq.toNat * 2 ^ 64 + j.bucket % 8 * 2 ^ 96 + d.failBough % 16 * 2 ^ 100 +
    d.failDesc % 2 ^ 24 * 2 ^ 104 + d.time.toNat * 2 ^ 128 + j.userTag.toNat * 2 ^ 192)

/-- The handles of a recorded job settle (R264, R266). -/
def State.settleHandles (s : State) (j : Job) (status : Nat) : State :=
  let tag := (j.taken.map fun h => bits h 59 32).getD 0
  let s := match j.take, j.taken with
    | some (b, q), some h => s.updHq b q fun x =>
        { x with held := x.held.filter (· ≠ handleIndex h), free := x.free ++ [handleIndex h] }
    | _, _ => s
  match j.post, j.reserved with
  | some (b, q), some i =>
    let out := fun x : HandleQueue => { x with held := x.held.filter (· ≠ i) }
    if status ≤ 1 then s.hqPut b q (handleWord 1 tag i) out
    else s.updHq b q fun x => let y := out x; { y with free := y.free ++ [i] }
  | _, _ => s

/-- The record of the queue's oldest job is written, or its write is refused and waits (R388). -/
def recordWrite (q : QueueId) (s : State) : State :=
  match s.oldestJob q with
  | none => s
  | some j =>
    match j.decision with
    | none => s
    | some d =>
      if s.jobState j ≠ 5 then s
      else
        let w := s.wq q
        let log := s.wqCompLog q
        let a := s.regN .wqCompBase q.val + w.compWrite.toNat % 2 ^ log * 32
        let bs := recordBytes j d s.hub.epoch w.compWrite.toNat log
        let (ok, s) : Bool × State :=
          if inPcieRow a 32 then
            if s.pcieUp (a - 0x40000000000) then (true, s.pcieWrite a bs) else (false, s)
          else
            match s.writeMem (.job j.claim) a bs with
            | (none, s) => (true, s)
            | (some _, s) => (false, s)
        if !ok then s.updWq q fun w => { w with recordBlocked := true, triedAt := s.now }
        else
          let s := s.updWq q fun w => { w with compWrite := w.compWrite + 1, recordBlocked := false }
          let s := s.bump .wqRecorded q.val
          let s := s.settleHandles j d.status
          let s := s.updHub fun h => { h with jobs := h.jobs.filter fun x => !(x.queue = q && x.seq = j.seq) }
          s.msixSend (Fin.ofNat 65 q.val)

/-- COMPLETION_RECORD_WRITE (R388). -/
def execCompletionRecordWrite (q : QueueId) (s : State) : Host.Outcome State Fault Refusal :=
  done s (if (s.wq q).recordBlocked then s else recordWrite q s)

/-- COMPLETION_RECORD_RETRY (R388): the write that waits is tried again every 10 µs. -/
def execCompletionRecordRetry (q : QueueId) (s : State) : Host.Outcome State Fault Refusal :=
  done s (if (s.wq q).recordBlocked && 10000 ≤ (s.now - (s.wq q).triedAt).toNat then recordWrite q s else s)

end Sys2Proof.Machine
end

