-- ==== Sys2Proof/Machine/BoughReset.lean ====
section
/-! DEFINITION. The reset of a bough: fence, drain, resolution, reset, ready (R109, R188, R256, R269, R340, R346, R348, R363, R372,
R395 to R403, R486). -/
namespace Sys2Proof.Machine
open Sys2Proof

/- The system cache's lines of a bough (R358, R363). -/

/-- Slices of bough b. -/
def slicesOf (b : BoughId) : List (Fin 8) := [Fin.ofNat 8 (2 * b.val), Fin.ofNat 8 (2 * b.val + 1)]

/-- Change a slice. -/
def State.updSlice (s : State) (k : Fin 8) (f : Slice → Slice) : State := { s with slices := upd s.slices k f }

/-- The lines a slice holds. -/
def Slice.held (q : Slice) : List Line := q.lines.filterMap (·.2)

/-- A slice drops every line without writing it back: the seam keeps what it held (R363). -/
def State.dropLines (s : State) (k : Fin 8) : State :=
  let s := (s.slices[k].held).foldl (fun s l =>
    if l.dirty then
      [0, 64].foldl (fun (s : State) o => s.updSeam (seamOf l.addr) fun q =>
        let g := burstOf (l.addr + o)
        { q with poisoned := if l.poison.contains g && !q.poisoned.contains g then q.poisoned ++ [g] else q.poisoned,
                 written := if l.unwritten.contains g then q.written.erase g else q.written })
        { s with mem := s.mem.writeBytes l.addr l.under }
    else s) s
  s.updSlice k fun q => { q with lines := [] }

/-- A slice writes back and drops every line (R363): memory already shows what it writes. -/
def State.flushLines (s : State) (k : Fin 8) : State :=
  let n := ((s.slices[k].held).filter (·.dirty)).length
  (s.count n .sliceWritebacks k.val).updSlice k fun q => { q with lines := [] }

/- Fencing (R396, R398). -/

/-- Segments of bough b. -/
def segInBough (b : BoughId) (n : Nat) : Bool := n / 16384 = b.val

/-- Engines whose work touches the bough's segments are struck (R188, R486). -/
def State.strike (s : State) (b : BoughId) : State :=
  let s := s.updHub fun h => { h with load := h.load.map fun l =>
    if (l.locks ++ segsOf l.image (max 64 l.size) ++ segsOf l.place 1 ++ segsOf l.regionTable (8 * l.regionCount)).any (segInBough b) then { l with hit := true } else l }
  { s with sec := { s.sec with crypt := s.sec.crypt.map fun c => if c.segs.any (segInBough b) then { c with lost := true } else c } }

/-- BOUGH_RESET's codes (R395, R402): reset only from READY or RUNNING. -/
def State.boughResetCodes (s : State) (b : BoughId) (v : Word) : List Nat :=
  codeIf (v ≠ 1) 0xA300 ++ codeIf (s.boughs[b].state ≠ .ready) 0xA400 ++ codeIf (!s.foremanRuns 4) 0xA500

/-- The fence (R398 step 1): affected jobs are marked and their descriptors stop. -/
def State.fence (s : State) (b : BoughId) (full : Bool) : State :=
  let s := s.updBough b fun x => 
    { x with state := .fencing, fullTrain := full, limitPassed := false, drainAt := s.now + s.reg .fenceDrainLimit }
  let s := (s.leaveService (rBough b.val)).bump .boughResets b.val
  let s := s.alert aBoughReset
  let hit := s.hub.jobs.filter fun j => j.decision.isNone && j.touched.getLsbD b.val
  let s := hit.foldl (fun s j => s.updJob j.queue j.seq fun x => { x with pendingReset := setBit x.pendingReset b.val true }) s
  let s := (s.hub.runs.filter fun r => hit.any fun j => j.queue = r.queue && j.seq = r.seq).foldl State.stopRun s
  s.strike b

/-- Whether a transfer is a request to the bough or from its haulers. -/
def Xfer.touches (s : State) (b : BoughId) (x : Xfer) : Bool :=
  claimantBough x.who = b || (x.move.src.any fun p => s.boughOfAddr p.1 = some b) || x.puts.any fun p => s.boughOfAddr (p.bit / 8) = some b

/-- BOUGH_DRAIN_LIMIT (R398 step 2): requests still outstanding are answered FENCED. -/
def boughDrainLimit (b : BoughId) (s : State) : State :=
  if s.boughs[b].state ≠ .fencing || s.now.toNat < s.boughs[b].drainAt.toNat then s
  else
    let s := s.updBough b fun x => { x with limitPassed := true }
    s.updHub fun h => { h with xfers := h.xfers.map fun x => if x.touches s b then { x with fail := some stFenced } else x }

def execBoughDrainLimit (b : BoughId) (s : State) : Host.Outcome State Fault Refusal := done s (boughDrainLimit b s)

/- Resolution (R399, R400). -/

/-- The boughs whose DRAM a job's read set includes. -/
def State.readSet (s : State) (j : Job) : BitVec 4 :=
  let ofAddr := fun (m : BitVec 4) a => if a < 2 ^ 37 then setBit m (boughOf a).val true else m
  let e := s.jobEntry j
  let m := (e.map (·.reads)).getD 0
  let args := (segsOf j.argAddr (4 * ((e.map (·.argWords)).getD 0))).map (· * 2 ^ 21)
  let buf := match j.take, j.taken with
    | some (b, q), some h =>
      let x := s.hq b q
      (segsOf (x.base + handleIndex h * x.stride) x.stride).map (· * 2 ^ 21)
    | _, _ => []
  let bundle := ((s.bundle? j.handle).map fun b => b.segs.map (· * 2 ^ 21)).getD []
  (args ++ buf ++ bundle).foldl ofAddr m

/-- A job is replayed from its first descriptor (R400). -/
def State.replay (s : State) (j : Job) : State :=
  (s.updJob j.queue j.seq fun x =>
    { x with replays := x.replays + 1, flags := 0, touched := 0, pendingReset := 0, started := false, descs := s.freshDescs j }).bump .jobsReplayed

/-- A reset-pending job is replayed or decided (R399). -/
def State.resolve (s : State) (b : BoughId) (j : Job) : State :=
  let hits := s.readSet j &&& j.pendingReset ≠ 0
  let opt := ((s.jobEntry j).map (·.optStep)).getD false
  if j.replayable && !opt && !hits && j.replays < s.regN .replayLimit then s.replay j
  else s.decide j.queue j.seq (if hits then stLostInput else stFenced) 0xFFFFFF b.val

/-- Affected jobs that no other bough still holds back are resolved at this step 3. -/
def State.resolveAll (s : State) (b : BoughId) : State :=
  (s.hub.jobs.filter fun j => j.decision.isNone && j.pendingReset.getLsbD b.val).foldl (fun s j =>
    let waits := ([0, 1, 2, 3] : List BoughId).any fun c => c ≠ b && j.pendingReset.getLsbD c.val && s.boughs[c].state = .fencing
    if waits then s else s.resolve b j) s

/- The reset itself (R398 step 4). -/

/-- The bough's share of every running descriptor goes; a descriptor that ran there alone is gone. -/
def State.dropRuns (s : State) (b : BoughId) : State :=
  s.updHub fun h => { h with
    runs := (h.runs.map fun r => { r with
      units := r.units.filter fun u => claimantBough u.who ≠ b
      shares := r.shares.filter fun x => x.bough ≠ b
      passes := r.passes.filter fun p => p.1 ≠ b }).filter fun r => !(r.posted = [b])
    xfers := h.xfers.filter fun x => claimantBough x.who ≠ b }

/-- Handle queues are emptied (R269): bindings and HELD buffers stay. -/
def State.emptyQueues (s : State) (b : BoughId) : State :=
  (List.range 32).foldl (fun s i =>
    let q : HqPos := Fin.ofNat 32 i
    let h := s.hq b q
    let s := s.bumpBy .hqDrops h.queued.length b.val i
    s.updHq b q fun x => { x with queued := [], free := x.free ++ x.queued.map handleIndex }) s

/-- Local memory is zeroed with valid check bits (R109). -/
def State.zeroLocal (s : State) (b : BoughId) : State :=
  let s := s.updBough b fun x => { x with branches := Vector.replicate 6 {}, zeroed := true }
  { s with mem := s.mem.clear (localBase b 0) (localBase b 0 + 0x2000000) }

/-- Every segment of the bough is marked lost (R398, R481). -/
def State.loseSegs (s : State) (b : BoughId) : State :=
  s.updSegs ((s.sec.segs.map (·.1)).filter (segInBough b)) fun e => { e with lost := true }

/-- A seam's queues and bank states are emptied: what still waits for data is answered FENCED (R351, R398), and writes have been
acknowledged and are visible. -/
def Seam.emptied (q : Seam) : Seam :=
  let reads := (q.banks.toList.flatMap (·.queue)).filter (fun r => !r.write) ++ q.inflight.filter fun r => !r.write && !r.scrub
  { q with banks := Vector.replicate 8 {}, front := [], inflight := [], backs := [], acts := [], lastCol := none,
           wrEnds := Vector.replicate 2 none, busWrites := false, scrubPromoted := false,
           answers := (q.front.map (·.stamp) ++ reads.map (·.stamp)).map fun n => (n, .fails .fenced) }

/-- A seam starts again (R346): it trains in full, or is reinitialised with its saved values. -/
def State.seamRestart (s : State) (sm : SeamId) (full : Bool) : State :=
  s.updSeam sm fun q =>
    { q.emptied with state := .training, tries := 0, trainFull := full || !q.saved, passDone := Vector.replicate 8 false, outPending := false }

/-- Seams of a bough. -/
def seamsOf (b : BoughId) : List SeamId := (List.range 4).map fun i => Fin.ofNat 16 (4 * b.val + i)

/-- Step 4 of R398. -/
def State.resetBough (s : State) (b : BoughId) : State :=
  let s := (slicesOf b).foldl State.dropLines s
  let s := s.dropRuns b
  let s := s.emptyQueues b
  let s := s.updBough b fun x =>
    { x with state := .resetting, events := [], counters := x.counters.map fun p => (p.1, { p.2 with busy := false }), sortWait := [], sortBusy := none }
  let s := s.zeroLocal b
  let s := s.loseSegs b
  let s := s.updHub fun h => { h with bundles := h.bundles.map fun x => if x.segs.any (segInBough b) then { x with lost := true } else x }
  (seamsOf b).foldl (fun s q => (s.leaveService (rSeam q.val)).seamRestart q s.boughs[b].fullTrain) s

/-- The bough reset that a foreman decides (R348, R402): a bough that serves or trains is fenced and reset; one that is being reset already
trains its seams in full; the seams of a bough that is DOWN wait for it to come up. -/
def State.hubReset (s : State) (b : BoughId) : State :=
  match s.boughs[b].state with
  | .ready | .training => s.fence b true
  | .fencing | .fenced => s.updBough b fun x => { x with fullTrain := true }
  | .resetting => (seamsOf b).foldl (fun s q => if s.seams[q].state = .failed then s.seamRestart q true else s) s
  | .down | .absent => s

/-- BOUGH_DRAIN_END (R398 steps 3 and 4): once nothing to the bough is outstanding, or the drain limit has passed, affected jobs are
resolved and the bough is reset. -/
def boughDrainEnd (b : BoughId) (s : State) : State :=
  if s.boughs[b].state ≠ .fencing then s
  else if !s.boughs[b].limitPassed && s.hub.xfers.any (Xfer.touches s b) then s
  else
    let s := s.resolveAll b
    let s := s.updBough b fun x => { x with state := .fenced }
    (s.resetBough b).wake

def execBoughDrainEnd (b : BoughId) (s : State) : Host.Outcome State Fault Refusal := done s (boughDrainEnd b s)

/-- BOUGH_RESET_DONE (R398 step 5): with its seams in service the bough reports ready, and descriptors that wait for it may start. -/
def boughResetDone (b : BoughId) (s : State) : State :=
  if s.boughs[b].state = .resetting && (seamsOf b).all fun q => s.seams[q].state.inService then
    ((s.updBough b fun x => { x with state := .ready, fullTrain := false }).reportReady (rBough b.val)).wake
  else s

def execBoughResetDone (b : BoughId) (s : State) : Host.Outcome State Fault Refusal := done s (boughResetDone b s)

end Sys2Proof.Machine
end

