-- ==== Sys2Proof/Machine/Image.lean ====
section
/-! DEFINITION. What an image pipeline computes: its stages, the pyramid, the output formats, and the frame header (R303 to R308). -/
namespace Sys2Proof.Machine
open Sys2Proof

/-- n / d rounded to nearest, ties to even (R51). -/
def rneDiv (n : Int) (d : Nat) : Int :=
  let q := n / d
  let r := (n % d).toNat
  if 2 * r < d then q else if d < 2 * r then q + 1 else if q % 2 = 0 then q else q + 1

/-- A value held between two bounds. -/
def clampI (lo hi v : Int) : Nat := (max lo (min hi v)).toNat

/-- Three components at a place. -/
abbrev Pixel := Nat × Nat × Nat
/-- An image at full resolution: column, row. -/
abbrev Img := Int → Int → Pixel

/-- A coordinate at the frame's edge repeats the edge pixel (R304). -/
def edge (n : Nat) (i : Int) : Nat := clampI 0 (n - 1 : Int) i

/-- The parameter record (R303). -/
structure PipeParams where
  bytes : List Byte

/-- An n-bit field at bit o of the record, unsigned and signed. -/
def PipeParams.u (p : PipeParams) (o : Nat) : Nat := leAt p.bytes (o / 8) 2
def PipeParams.i (p : PipeParams) (o : Nat) : Int := (BitVec.ofNat 16 (p.u o)).toInt

def PipeParams.black (p : PipeParams) (n : Nat) : Nat := p.u (16 * n)
def PipeParams.gain (p : PipeParams) (n : Nat) : Nat := p.u (64 + 16 * n)
def PipeParams.ccm (p : PipeParams) (r c : Nat) : Int := p.i (128 + 16 * (3 * r + c))
def PipeParams.offset (p : PipeParams) (c : Nat) : Int := p.i (272 + 16 * c)
def PipeParams.defect (p : PipeParams) : Nat := p.u 320
def PipeParams.strength (p : PipeParams) : Nat := p.u 336 % 16
def PipeParams.tone (p : PipeParams) (n : Nat) : Nat := p.u (512 + 16 * n)

/-- Bits of a raw code (R297). -/
def rawBits (dt : Nat) : Nat :=
  if dt = 0x2A then 8 else if dt = 0x2B then 10 else if dt = 0x2C then 12 else if dt = 0x2D then 14 else 16

/-- The accepted data types (R297). -/
def dtOk (dt : Nat) : Bool := [0x1E, 0x24, 0x2A, 0x2B, 0x2C, 0x2D, 0x2E].contains dt

/-- Codes of a line per pixel: one of a raw type, three of RGB888, two of YUV422 8-bit (U, Y, V, Y). -/
def codesPerPixel (dt : Nat) : Nat := if dt = 0x24 then 3 else if dt = 0x1E then 2 else 1

/-- What a pipeline takes of a frame. -/
structure FrameIn where
  dt : Nat
  w : Nat
  h : Nat
  bayer : Nat
  params : PipeParams
  lines : List (List (BitVec 16))

/-- A code of a line. -/
def FrameIn.code (f : FrameIn) (i y : Nat) : Nat := ((f.lines.getD y []).getD i 0).toNat

/-- Position of a pixel in the Bayer pattern: 2 × (row mod 2) + (column mod 2). -/
def posOf (x y : Nat) : Nat := 2 * (y % 2) + x % 2

/-- Stages 1 and 2. -/
def FrameIn.stage2 (f : FrameIn) (x y : Int) : Nat :=
  let x := edge f.w x
  let y := edge f.h y
  f.code x y % 2 ^ rawBits f.dt * 2 ^ (16 - rawBits f.dt) - f.params.black (posOf x y)

/-- A green position of the Bayer order. -/
def isGreen (bayer n : Nat) : Bool := if bayer = 0 || bayer = 3 then n = 1 || n = 2 else n = 0 || n = 3

/-- The 8 nearest neighbours of the same colour. -/
def sameColour (green : Bool) : List (Int × Int) :=
  [(-2, 0), (2, 0), (0, -2), (0, 2)] ++
  if green then [(-1, -1), (1, -1), (-1, 1), (1, 1)] else [(-2, -2), (2, -2), (-2, 2), (2, 2)]

/-- A number put into a rising list. -/
def insertNat (n : Nat) : List Nat → List Nat
  | [] => [n]
  | m :: ms => if n ≤ m then n :: m :: ms else m :: insertNat n ms

/-- The median of 8 values: between the fourth and the fifth (log entry 23). -/
def medianOf8 (l : List Nat) : Nat :=
  let r := l.foldl (fun a n => insertNat n a) []
  let lo := r.getD 3 0
  let hi := r.getD 4 0
  lo + Config.median8 lo hi % (hi - lo + 1)

/-- Stages 3 and 4. -/
def FrameIn.stage4 (f : FrameIn) (x y : Int) : Nat :=
  let x := edge f.w x
  let y := edge f.h y
  let n := posOf x y
  let v := f.stage2 x y
  let m := medianOf8 ((sameColour (isGreen f.bayer n)).map fun d => f.stage2 (x + d.1) (y + d.2))
  let far := f.params.defect < (if v ≤ m then m - v else v - m)
  let v := if f.params.defect ≠ 0 && far then m else v
  clampI 0 65535 (rneDiv (v * f.params.gain n : Nat) 4096)

/-- The 5 × 5 window about a place, row by row. -/
def window5 {α : Type} (at_ : Int → Int → α) (x y : Int) : List α :=
  ([-2, -1, 0, 1, 2] : List Int).flatMap fun dy => ([-2, -1, 0, 1, 2] : List Int).map fun dx => at_ (x + dx) (y + dy)

/-- Each component of a pixel through a function. -/
def mapPixel (g : Nat → Nat) (p : Pixel) : Pixel := (g p.1, g p.2.1, g p.2.2)

/-- Stages 5 and 6. -/
def FrameIn.stage6 (f : FrameIn) (x y : Int) : Pixel :=
  let x := edge f.w x
  let y := edge f.h y
  let (r, g, b) := mapPixel (· % 65536) (Config.demosaic f.bayer (posOf x y) (window5 f.stage4 x y))
  let row := fun c => clampI 0 65535
    (rneDiv (r * f.params.ccm c 0 + g * f.params.ccm c 1 + b * f.params.ccm c 2 + 4096 * f.params.offset c) 4096)
  (row 0, row 1, row 2)

/-- Stage 7. -/
def FrameIn.stage7 (f : FrameIn) (x y : Int) : Pixel :=
  if f.params.strength = 0 then f.stage6 x y
  else mapPixel (· % 65536) (Config.edgeFilter f.params.strength (window5 f.stage6 x y))

/-- Stage 8: the tone curve. -/
def PipeParams.toneAt (p : PipeParams) (x : Nat) : Nat :=
  let i := x / 256
  clampI 0 65535 (rneDiv (256 * (p.tone i : Int) + ((p.tone (i + 1) : Int) - p.tone i) * (x % 256 : Nat)) 256)

/-- What leaves stage 8: RGB in 16 bits, or, where stages 1 to 8 are bypassed, YUV in 8 bits. -/
inductive Full where
  | rgb (p : Pixel)
  | yuv (p : Pixel)

def FrameIn.stage8 (f : FrameIn) (x y : Int) : Full :=
  let x := edge f.w x
  let y := edge f.h y
  if f.dt = 0x1E then
    let chroma := fun o => (List.range (f.w / 2)).map fun i => f.code (4 * i + o) y % 256
    .yuv (f.code (2 * x + 1) y % 256, (Config.chroma444 (chroma 0) x).toNat, (Config.chroma444 (chroma 2) x).toNat)
  else if f.dt = 0x24 then
    .rgb (mapPixel (fun c => f.params.toneAt (Config.rgb16 c).toNat)
      (f.code (3 * x) y % 256, f.code (3 * x + 1) y % 256, f.code (3 * x + 2) y % 256))
  else .rgb (mapPixel f.params.toneAt (f.stage7 x y))

/-- Stage 9 to YUV: BT.709, limited range, in 8 or 10 bits (R304; the matrix is BT.709's, log entry 25). -/
def toYuv (ten : Bool) : Full → Pixel
  | .yuv p => mapPixel (fun c => if ten then 4 * c else c) p
  | .rgb (r, g, b) =>
    let k : Nat := if ten then 4 else 1
    let y : Int := (2126 * r + 7152 * g + 722 * b : Nat)
    let top : Int := if ten then 1023 else 255
    (clampI 0 top (rneDiv (k * (16 * 10000 * 65535 + 219 * y)) (10000 * 65535)),
     clampI 0 top (rneDiv (k * (128 * 18556 * 65535 + 224 * (10000 * (b : Int) - y))) (18556 * 65535)),
     clampI 0 top (rneDiv (k * (128 * 15748 * 65535 + 224 * (10000 * (r : Int) - y))) (15748 * 65535)))

/-- Stage 9 to RGB: full range, 8 bits. -/
def toRgb : Full → Pixel
  | .rgb p => mapPixel (fun c => clampI 0 255 (rneDiv c 257)) p
  | .yuv (y, u, v) =>
    let y : Int := (y : Int) - 16
    let u : Int := (u : Int) - 128
    let v : Int := (v : Int) - 128
    let d := 219 * 224 * 10000
    (clampI 0 255 (rneDiv (255 * (y * 2240000 + 15748 * 219 * v)) d),
     clampI 0 255 (rneDiv (255 * (y * 2240000 * 7152 - 219 * (2126 * 15748 * v + 722 * 18556 * u))) (d * 7152)),
     clampI 0 255 (rneDiv (255 * (y * 2240000 + 18556 * 219 * u)) d))

/-- Whether an output format is YUV (R307). -/
def fmtYuv (fmt : Nat) : Bool := fmt = 0 || fmt = 1 || fmt = 2 || fmt = 4

/-- Level 0 as stage 9 gives it. -/
def FrameIn.level0 (f : FrameIn) (fmt : Nat) : Img := fun x y => if fmtYuv fmt then toYuv (fmt = 2) (f.stage8 x y) else toRgb (f.stage8 x y)

/- The pyramid (R306). -/

/-- A dimension as an output format clears it. -/
def clearDim (fmt n : Nat) : Nat := if fmt = 1 || fmt = 2 then n / 2 * 2 else if fmt = 5 then n / 4 * 4 else n

/-- A dimension of the next level. -/
def nextDim (fmt ratio n : Nat) : Nat := clearDim fmt (n * ratio / 65536)

/-- Dimensions of every level from one on. -/
def levelDims (fmt w h : Nat) : List Nat → List (Nat × Nat)
  | [] => [(w, h)]
  | r :: rs => (w, h) :: levelDims fmt (nextDim fmt r w) (nextDim fmt r h) rs

/-- Source pixels of output pixel i along a dimension, each with its overlap in 16 fraction bits. -/
def overlaps (ratio i : Nat) : List (Nat × Nat) :=
  let first := i * 65536 / ratio
  let last := ((i + 1) * 65536 - 1) / ratio
  (List.range (last + 1 - first)).map fun k =>
    let j := first + k
    (j, (rneDiv ((min ((i + 1) * 65536) ((j + 1) * ratio) - max (i * 65536) (j * ratio)) * 65536 : Nat) ratio).toNat)

/-- One component of a resampled pixel. -/
def resampleAt (w h ratio : Nat) (g : Nat → Nat → Nat) (x y : Nat) : Nat :=
  if ratio = 32768 then
    (rneDiv (g (2 * x) (2 * y) + g (2 * x + 1) (2 * y) + g (2 * x) (2 * y + 1) + g (2 * x + 1) (2 * y + 1) : Nat) 4).toNat
  else
    let xs := overlaps ratio x
    let ys := overlaps ratio y
    let total := (xs.foldl (fun a p => a + p.2) 0) * ys.foldl (fun a p => a + p.2) 0
    let sum := ys.foldl (fun a q => a + q.2 * xs.foldl (fun b p => b + p.2 * g (min p.1 (w - 1)) (min q.1 (h - 1))) 0) 0
    (rneDiv sum (max 1 total)).toNat

/-- The next level's image. -/
def resample (w h ratio : Nat) (img : Img) : Img := fun x y =>
  let one := fun (c : Pixel → Nat) => resampleAt w h ratio (fun i j => c (img i j)) x.toNat y.toNat
  (one (·.1), one (·.2.1), one (·.2.2))

/-- Every level with its dimensions. -/
def levels (fmt : Nat) (w h : Nat) (img : Img) : List Nat → List (Nat × Nat × Img)
  | [] => [(w, h, img)]
  | r :: rs => (w, h, img) :: levels fmt (nextDim fmt r w) (nextDim fmt r h) (resample w h r img) rs

/- Output formats (R307). -/

def up64 (n : Nat) : Nat := (n + 63) / 64 * 64

/-- The line stride of a level. -/
def lineStride (fmt w : Nat) : Nat := if fmt = 2 then up64 (2 * w) else if fmt = 5 then up64 (4 * w) else up64 w

/-- The size of a level. -/
def levelSize (fmt w h : Nat) : Nat :=
  let s := lineStride fmt w
  if fmt = 0 then s * h else if fmt = 1 || fmt = 2 then s * h + s * (h / 2) else if fmt = 5 then 3 * s * (h / 4) else 3 * s * h

/-- Offsets of the levels in a buffer, and the end of the last (R308). -/
def levelOffsets (fmt : Nat) : Nat → List (Nat × Nat) → List Nat × Nat
  | at_, [] => ([], at_)
  | at_, (w, h) :: rest =>
    let (os, e) := levelOffsets fmt ((at_ + levelSize fmt w h + 2047) / 2048 * 2048) rest
    (at_ :: os, if rest = [] then at_ + levelSize fmt w h else e)

/-- The rows of a level, each at its offset; stride padding is not written. -/
def levelRows (fmt w h : Nat) (img : Img) : List (Nat × List Byte) :=
  let s := lineStride fmt w
  let px := fun (x y : Nat) => img x y
  let b := fun n => BitVec.ofNat 8 n
  let sample := fun n => if fmt = 2 then leBytes 2 (n * 64) else [b n]
  let plane := fun (o : Nat) (c : Pixel → Nat) =>
    (List.range h).map fun y => (o + y * s, (List.range w).flatMap fun x => sample (c (px x y)))
  if fmt = 0 then plane 0 (·.1)
  else if fmt = 1 || fmt = 2 then
    let mean := fun (c : Pixel → Nat) (x y : Nat) =>
      (rneDiv (c (px (2 * x) (2 * y)) + c (px (2 * x + 1) (2 * y)) + c (px (2 * x) (2 * y + 1)) + c (px (2 * x + 1) (2 * y + 1)) : Nat) 4).toNat
    plane 0 (·.1) ++ (List.range (h / 2)).map fun y =>
      (s * h + y * s, (List.range (w / 2)).flatMap fun x => sample (mean (·.2.1) x y) ++ sample (mean (·.2.2) x y))
  else if fmt = 5 then
    let comp := fun (p : Pixel) (c : Nat) => if c = 0 then p.1 else if c = 1 then p.2.1 else p.2.2
    (List.range 3).flatMap fun k => (List.range (h / 4)).map fun y =>
      (k * s * (h / 4) + y * s, (List.range (w / 4)).flatMap fun x => (List.range 16).map fun i =>
        let ch := 16 * k + i
        b (comp (px (4 * x + ch / 3 % 4) (4 * y + ch / 12)) (ch % 3)))
  else plane 0 (·.1) ++ plane (s * h) (·.2.1) ++ plane (2 * s * h) (·.2.2)

/-- A frame header (R308). -/
def frameHeader (fs fe : BitVec 64) (count : BitVec 32) (port : Nat) (fixed : Bool) (w h nlevels fmt : Nat) : List Byte :=
  leBytes 64 (fs.toNat + fe.toNat * 2 ^ 64 + count.toNat * 2 ^ 128 + port * 2 ^ 160 + bitN fixed 164 + w * 2 ^ 192 + h * 2 ^ 208 +
    nlevels * 2 ^ 224 + fmt * 2 ^ 228)

end Sys2Proof.Machine
end

