-- ==== Sys2Proof/Machine/Seams.lean ====
section
/-! DEFINITION. The seams (R323 to R355, R562): the seam front and its arbiter, the command scheduler under the DDR4 timings, the row
sweep, errors and scrub, training, and the DRAM groups. Times are in clock cycles of 0.625 ns. -/
namespace Sys2Proof.Machine
open Sys2Proof

/-- The clock cycle of a seam's island (R325): 1.6 cycles in a tick. -/
def State.cycle (s : State) : Nat := s.now.toNat * 8 / 5

def State.seam (s : State) (sm : SeamId) : Seam := s.seams[sm]

/-- Change a bank. -/
def Seam.updBank (q : Seam) (k : BankId) (f : Bank → Bank) : Seam := { q with banks := upd q.banks k f }

/-- Bank group of a bank (R324). -/
def bankGroup (k : BankId) : Nat := k.val / 4

def SeamReq.bank (r : SeamReq) : BankId := bankOfBurst r.burst
def SeamReq.row (r : SeamReq) : Nat := rowOfBurst r.burst

/- The arbiter (R367 to R370). -/

/-- A counter that has passed starve_warn: the point's flag and starve_last. -/
def State.starveWarn (s : State) (point input : Nat) : State :=
  let flags := s.reg .starveFlags
  let s := (s.setReg .starveFlags (setBit flags point true)).setReg .starveLast
    (BitVec.ofNat 64 (point * 2 ^ 56 + input * 2 ^ 48 + s.now.toNat % 2 ^ 48))
  if !flags.getLsbD point && (s.reg .starveAlertMask).getLsbD point then s.alert aStarve else s

/-- An input's oldest request loses a decision. -/
def State.loseAt (s : State) (point input : Nat) : State :=
  let n := SMap.get 0 s.waits (point * 256 + input) + 1
  let s := { s with waits := SMap.set 0 s.waits (point * 256 + input) n }
  if n = s.regN .starveWarn + 1 then s.starveWarn point input else s

/-- An input's request wins: its counter returns to 0; a win under step 3 is counted. -/
def State.winAt (s : State) (point input : Nat) (forced : Bool) : State :=
  let s := { s with waits := SMap.set 0 s.waits (point * 256 + input) 0 }
  if forced then s.count 1 .forcedWins else s

/-- What a decision of a point reads of a request: the number it has here, its input and its panic mark. -/
structure Bid where
  stamp : Nat
  input : Nat
  panic : Bool
  deriving DecidableEq, Repr

/-- The request that a point grants, of those it may, oldest first (R367; the control class carries no data): the oldest with a panic
mark, else the oldest whose input has lost starve_limit decisions, else the oldest. -/
def State.grants (s : State) (point : Nat) (l : List Bid) : Option (Bid × Bool) :=
  match l.find? (·.panic) with
  | some x => some (x, false)
  | none =>
    match l.find? fun x => s.regN .starveLimit ≤ SMap.get 0 s.waits (point * 256 + x.input) with
    | some x => some (x, true)
    | none => l.head?.map fun x => (x, false)

/-- A decision (R369): the winner's input wins, and every other input with a request that waits has lost. -/
def State.decides (s : State) (point : Nat) (l : List Bid) (x : Bid) (forced : Bool) : State :=
  (((l.map (·.input)).eraseDups).filter (· ≠ x.input)).foldl (fun s i => s.loseAt point i) (s.winAt point x.input forced)

/-- Whether the requester of a request has its panic asserted (R309): of the media engines the image pipelines mark their requests. -/
def State.marks (s : State) (m : MemRequest) : Bool :=
  match m.entry with
  | .media e => if e.val = 0 then s.pipes[(0 : Fin 2)].panic else e.val = 1 && s.pipes[(1 : Fin 2)].panic
  | _ => false

/-- The seam front's input of a request: slice 2b or 2b + 1 (R374). -/
def frontInput (r : MemRequest) : Nat := r.addr / 1024 % 2

/-- The front's requests as the arbiter reads them. -/
def FrontReq.bid (f : FrontReq) : Bid := ⟨f.stamp, frontInput f.req, f.panic⟩

/-- The decision of a seam front among the requests whose bank queues have a place (R327). -/
def State.frontPick (s : State) (sm : SeamId) : Option (FrontReq × Bool) :=
  let q := s.seam sm
  let able := q.front.filter fun f => (q.banks[(bankOfBurst (burstOf f.req.addr))]).queue.length < 32
  (s.grants sm.val (able.map FrontReq.bid)).bind fun x => (able.find? fun f => f.stamp = x.1.stamp).map fun f => (f, x.2)

/- Acceptance (R327 to R329, R333, R334, R345). -/

/-- The reads of a burst that a seam has still to answer learn of a write that replaces the burst (R328, R343). -/
def Seam.replace (q : Seam) (g stamp : Nat) : Seam :=
  let mark := fun (r : SeamReq) => if r.burst = g && (!r.write || r.merge) && r.replaced.isNone then { r with replaced := some stamp } else r
  { (q.updBank (bankOfBurst g) fun b => { b with queue := b.queue.map mark }) with inflight := q.inflight.map mark }

/-- A request enters its bank queue: a write is acknowledged and visible, a read holds the bytes as they stand. -/
def State.enterBank (s : State) (sm : SeamId) (m : MemRequest) (panic : Bool) : State :=
  let g := burstOf m.addr
  let k := bankOfBurst g
  let stamp := (s.seam sm).nextStamp
  let s := if panic then s.count 1 .seamPanicRequests sm.val else s
  let r : SeamReq := { stamp, write := false, burst := g, panic, who := m.who, data := [], off := m.addr % 64, poisoned := s.poisonedBurst m.addr }
  let join := fun (s : State) (r : SeamReq) => s.updSeam sm fun q =>
    { (q.updBank k fun b => { b with queue := b.queue ++ [r] }) with nextStamp := stamp + 1 }
  match m.kind with
  | .write bs =>
    let whole := bs.length = 64
    let merge := !whole && !(s.seg (m.addr / 2 ^ 21)).lost
    let s := if merge then s.count 1 .seamRmw sm.val else s.updSeam sm fun q => q.replace g stamp
    (join (s.storeBurst m.addr bs) { r with write := true, data := bs, merge }).updSeam sm fun q => { q with answers := q.answers ++ [(stamp, .acked)] }
  | _ =>
    let raw := s.rawBurst m.addr
    let (bs, s) := if raw then s.drawBytes m.len else (s.mem.readBytes m.addr m.len, s)
    let b := (s.seam sm).banks[k]
    let switches := !b.inOrder && b.queue.any fun x => x.write && x.row = r.row
    let s := if switches then s.count 1 .seamInOrderEvents sm.val else s
    (join s { r with data := bs, raw }).updSeam sm fun q => q.updBank k fun b => { b with inOrder := b.inOrder || switches }

/-- Bursts that the seam itself writes back enter their bank queues as ordinary writes, as soon as these have a place (R342, R343). -/
def State.enterBacks (s : State) (sm : SeamId) : State :=
  (s.seam sm).backs.foldl (fun s g =>
    s.updSeam sm fun q =>
      let k := bankOfBurst g
      if q.banks[k].queue.length < 32 then
        let r : SeamReq := { stamp := q.nextStamp, write := true, burst := g, panic := false, who := .host, data := s.mem.readBytes (addrOfBurst sm g) 64 }
        { (q.updBank k fun b => { b with queue := b.queue ++ [r] }) with nextStamp := q.nextStamp + 1 }
      else { q with backs := q.backs ++ [g] }) (s.updSeam sm fun q => { q with backs := [] })

/-- One decision of the front: the winner enters its bank queue, every other input whose oldest request could have lost. -/
def State.frontDecide (s : State) (sm : SeamId) : State :=
  match s.frontPick sm with
  | none => s
  | some (f, forced) =>
    let s := s.decides sm.val ((s.seam sm).front.map FrontReq.bid) f.bid forced
    (s.updSeam sm fun q => { q with front := q.front.filter fun x => x.stamp ≠ f.stamp }).enterBank sm f.req f.panic

/-- What a request does, for the segment check. -/
def kindAct : AccessKind → Act
  | .read => .read | .fetch => .fetch | .write _ => .write

/-- A request that a seam can take: of its own address range and within one burst. -/
def fitsSeam (sm : SeamId) (m : MemRequest) : Bool :=
  let n := match m.kind with
    | .write bs => bs.length
    | _ => m.len
  m.addr < 2 ^ 37 && seamOf m.addr = sm && 0 < n && m.addr % 64 + n ≤ 64

/-- Bytes of an image pipeline's write buffer at a sixteenth (R309). -/
def sixteenth : Nat := 8192

/-- Fill and panic of a pipeline's write buffer after a change: asserted from PANIC_ON sixteenths, released from PANIC_OFF (R309, R311). -/
def State.setFill (s : State) (q : Fin 2) (fill : Nat) : State :=
  let v := s.reg .ipipePanic q.val
  let was := s.pipes[q].panic
  let now := if bits v 11 8 * sixteenth ≤ fill then true else if fill ≤ bits v 3 0 * sixteenth then false else was
  let s := { s with pipes := upd s.pipes q fun x => { x with fill := fill, panic := now } }
  if now && !was then s.bump .ipipePanicEvents q.val else s

/-- A write of an image pipeline's that has been accepted drains its write buffer (R309). -/
def State.mediaDrain (s : State) (m : MemRequest) : State :=
  match m.entry, m.kind with
  | .media e, .write bs => if h : e.val < 2 then s.setFill ⟨e.val, h⟩ (s.pipes[(⟨e.val, h⟩ : Fin 2)].fill - bs.length) else s
  | _, _ => s

/-- A request arrives at a seam front (R327, R351): one that fails the segment check, or meets a seam out of service, is answered at
once. -/
def State.frontArrive (s : State) (sm : SeamId) (m : MemRequest) : State :=
  if !fitsSeam sm m then s
  else
    let stamp := (s.seam sm).nextStamp
    match s.checkDram m.who (kindAct m.kind) m.addr with
    | some f => s.updSeam sm fun q => { q with answers := q.answers ++ [(stamp, .fails f)], nextStamp := stamp + 1 }
    | none =>
      (s.updSeam sm fun q => { q with front := q.front ++ [⟨stamp, m, s.marks m⟩], nextStamp := stamp + 1 }).mediaDrain m

/-- SEAM_REQUEST (R327): requests arrive at the front in one handshake, and the front decides once. -/
def seamRequest (sm : SeamId) (ms : List MemRequest) (s : State) : State :=
  ((ms.foldl (fun s m => s.frontArrive sm m) (s.updSeam sm fun q => { q with answers := [] })).enterBacks sm).frontDecide sm

def execSeamRequest (sm : SeamId) (q : List MemRequest) (s : State) : Host.Outcome State Fault Refusal := done s (seamRequest sm q s)

/- Timing (R326, R505). -/

/-- At least n cycles after an event. -/
def since (t : Nat) (e : Option Nat) (n : Nat) : Bool := e.all fun x => x + n ≤ t

/-- An ACT of a bank is legal; `level` is the activate rate in force, where the ACT counts against it. -/
def Seam.actOk (q : Seam) (k : BankId) (t : Nat) (level : Option Nat) : Bool :=
  let b := q.banks[k]
  let spaced := match q.acts.head? with
    | some (c, j, _) => c + (if j / 4 = bankGroup k then 11 else 9) ≤ t
    | none => true
  b.openRow.isNone && since t b.preAt 22 && since t b.actAt 74 && spaced && since t (q.acts[3]?.map (·.1)) 48 && q.blockedUntil ≤ t &&
  level.all fun n => (q.acts.filter fun a => a.2.2 && t < a.1 + 192).length < n

/-- A PRE of a bank is legal. -/
def Seam.preOk (q : Seam) (k : BankId) (t : Nat) : Bool :=
  let b := q.banks[k]
  b.openRow.isSome && since t b.actAt 52 && since t b.rdAt 12 && since t b.wrAt 24 && q.blockedUntil ≤ t

/-- A column command of a bank is legal; a READ needs the DLL (tXS_DLL, log entry 44). -/
def Seam.colOk (q : Seam) (k : BankId) (t : Nat) (write : Bool) : Bool :=
  let b := q.banks[k]
  let ccd := q.lastCol.all fun c => c.1 + (if c.2 = bankGroup k then 8 else 4) ≤ t
  let wtr := write || (List.finRange 2).all fun g => since t q.wrEnds[g] (if g.val = bankGroup k then 12 else 4)
  since t b.actAt 22 && ccd && wtr && q.blockedUntil ≤ t && (write || q.dllAt ≤ t)

/- The scheduler (R330, R331). -/

/-- A command the scheduler may pick. -/
inductive Pick where
  | act (k : BankId) (row : Nat) (sweep counted : Bool)
  | pre (k : BankId)
  | col (k : BankId) (r : SeamReq)
  deriving DecidableEq, Repr

/-- Whether a request moves write data over the bus next: a merge reads first (R334). -/
def SeamReq.writes (r : SeamReq) : Bool := r.write && !r.merge

/-- Requests of a bank that may be served now (R328, R329, R334): all of them, or the oldest alone in in-order mode; none while an older
one to its burst waits, a merge under way among them. -/
def Bank.serves (b : Bank) : List SeamReq :=
  (if b.inOrder then b.queue.take 1 else b.queue).filter fun r =>
    !r.reading && !(b.queue.any fun x => x.stamp < r.stamp && x.burst = r.burst)

/-- A row has been open for its 60,000 ns (R332). -/
def Bank.expired (b : Bank) (now : Nat) : Bool := b.openRow.isSome && b.openedAt + 60000 ≤ now

/-- The command that a request needs next, if it is legal. -/
def Seam.need (q : Seam) (now t : Nat) (level : Option Nat) (r : SeamReq) : Option Pick :=
  let k := r.bank
  match q.banks[k].openRow with
  | none => if q.actOk k t level then some (.act k r.row false level.isSome) else none
  | some row =>
    if row = r.row && !q.banks[k].sweeping && !q.banks[k].expired now then
      (if q.busWrites = r.writes && q.colOk k t r.writes then some (.col k r) else none)
    else if q.preOk k t then some (.pre k) else none

/-- The next command of a sweep of a bank (R337). -/
def Seam.sweepNeed (q : Seam) (t : Nat) (level : Option Nat) (k : BankId) : Option Pick :=
  let b := q.banks[k]
  if b.openRow.isSome then (if q.preOk k t then some (.pre k) else none)
  else if q.actOk k t level then some (.act k b.pointer true level.isSome) else none

/-- Banks in rotating order, beginning after the bank of the last ACT. -/
def Seam.rotation (q : Seam) : List BankId := (List.range 8).map fun i => Fin.ofNat 8 (q.lastActBank + 1 + i)

/-- Requests in order of age. -/
def byAge (l : List SeamReq) : List SeamReq := l.mergeSort fun a b => a.stamp ≤ b.stamp

/-- Bursts of a seam (R323). -/
def burstsOf (g : Grade) : Nat := rowsOf g * 1024

/-- The burst that patrol scrub reads next: it skips segments marked lost (R344); none where all are. -/
def State.scrubTarget (s : State) (sm : SeamId) : Option Nat :=
  let n := (s.seam sm).scrubNext
  let per := 8192
  let seg := fun j => addrOfBurst sm (j * per) / 2 ^ 21
  let live := fun j => !(s.seg (seg j)).lost && !segAbsent s.grade (seg j)
  if live (n / per) then some n
  else ((List.range (burstsOf s.grade / per)).find? fun j => n / per < j && live j).map (· * per)

/-- When a burst's scrub read is due, in ns (R344): a pass visits every burst once in the period that it began with, evenly. -/
def State.scrubAt (s : State) (sm : SeamId) (g : Nat) : Nat :=
  let q := s.seam sm
  q.scrubStart + g * (q.scrubHours * 3600000000000) / burstsOf s.grade

/-- A scrub read has been due for some time. -/
def State.scrubDue (s : State) (sm : SeamId) (waited : Nat) : Bool := s.scrubAt sm (s.seam sm).scrubNext + waited ≤ s.now.toNat

/-- A scrub pass ends (R344, R354): the next begins when its period is over, with the scrub_period in force then. -/
def Seam.scrubPassEnd (q : Seam) (now hours : Nat) : Seam :=
  { q with scrubNext := 0, scrubPass := q.scrubPass + 1, scrubStart := max now (q.scrubStart + q.scrubHours * 3600000000000), scrubHours := hours }

/-- The scrub read as a request. -/
def scrubReq (g stamp : Nat) (data : List Byte) : SeamReq :=
  { stamp, write := false, burst := g, panic := false, who := .host, data, scrub := true }

/-- Forcing begins above the debt limit and ends at half of it (R339). The comparison takes a cycle's rises and sweeps together, so it
waits for the cycle to be over. -/
def Bank.compare (b : Bank) (t limit : Nat) : Bank :=
  if t ≤ b.changedAt then b
  else { b with forcing := if (limit : Int) < b.debt then true else if b.debt ≤ (limit / 2 : Nat) then false else b.forcing }

/-- A bank's debt changes on a cycle, once the cycles before it have been compared. -/
def Bank.owe (b : Bank) (t limit : Nat) (d : Int) : Bank := { b.compare t limit with debt := b.debt + d, changedAt := t }

/-- The direction of the data bus (R331). -/
def Seam.steer (q : Seam) : Bool :=
  let all := q.banks.toList.flatMap (·.queue)
  let w := (all.filter SeamReq.writes).length
  let r := all.length - w
  let back := q.busWrites && w ≤ 16
  let dir := if q.busWrites && !back then true else 64 ≤ w || (r = 0 && 0 < w)
  match byAge (q.banks.toList.flatMap fun b => b.serves.filter (·.panic)) with
  | p :: _ => p.writes
  | [] => dir

/-- An all-bank REF of the REF window is due (R340). -/
def Seam.refDue (q : Seam) (now : Nat) : Bool := q.state = .refWindow && q.refNext ≤ now

/-- The first command of R330 that is legal on this cycle; a REF that is due goes before them (log entry 44). -/
def State.seamPick (s : State) (sm : SeamId) (t : Nat) : Option Pick :=
  let q := s.seam sm
  let now := s.now.toNat
  let level := if 16 ≤ s.power.memLevel then none else some s.power.memLevel
  let counted := some (level.getD 1000)
  let rot := q.rotation
  let forced := (rot.filter fun k => q.banks[k].forcing).findSome? fun k => q.sweepNeed t none k
  let panics := (byAge (q.banks.toList.flatMap fun b => b.serves.filter (·.panic))).findSome? fun r => q.need now t none r
  let cols := (byAge (q.banks.toList.flatMap Bank.serves)).findSome? fun r =>
    match q.need now t counted r with
    | some (.col k r) => some (Pick.col k r)
    | _ => none
  let rows := rot.findSome? fun k => (q.banks[k].serves.head?).bind fun r =>
    match q.need now t counted r with
    | some (.col _ _) => none
    | p => p
  let scrub : Option Pick := if s.scrubDue sm 0 then (s.scrubTarget sm).bind fun g =>
    let r := { scrubReq g q.nextStamp (s.mem.readBytes (addrOfBurst sm g) 64) with poisoned := q.poisoned.contains g }
    { q with busWrites := false }.need now t counted r else none
  let promoted := if q.scrubPromoted then scrub else none
  let prefers := (rot.filter fun k => (q.banks[k].queue.isEmpty && -64 < q.banks[k].debt) || q.banks[k].sweeping).findSome? fun k =>
    q.sweepNeed t counted k
  if q.refDue now then none else forced <|> panics <|> cols <|> promoted <|> rows <|> prefers <|> scrub

/-- The pointer row of a bank has been swept (R337): the debt falls, the pointer advances; at the end of a pass the seam may return to
normal (R336), and the bank's pass of the REF window is complete (R340). -/
def State.rowSwept (s : State) (sm : SeamId) (k : BankId) : State :=
  let b := (s.seam sm).banks[k]
  let wraps := b.pointer + 1 = rowsOf s.grade
  let t := s.cycle
  let limit := s.regN .sweepDebtLimit
  let s := if b.forcing then s.count 1 .seamForcedSweeps sm.val else s
  s.updSeam sm fun q =>
    let q := q.updBank k fun b => { b.owe t limit (-1) with sweeping := false, pointer := if wraps then 0 else b.pointer + 1 }
    if wraps then
      let q := { q with passDone := q.passDone.set k true, hotWraps := upd q.hotWraps k (· + 1) }
      { q with hot := q.hot && q.hotWraps.toList.any (· < 2) }
    else q

/-- Column address of a burst (R324). -/
def colOf (g : Nat) : Nat := g % 128 * 8

/-- A command goes to the dies. -/
def State.seamIssue (s : State) (sm : SeamId) (t : Nat) (p : Pick) : State :=
  match p with
  | .act k row sweep counted =>
    s.updSeam sm fun q =>
      let q := q.updBank k fun b => { b with openRow := some row, openedAt := s.now.toNat, actAt := some t, sweeping := sweep }
      let keep := q.acts.filter fun a => t < a.1 + 192
      { q with acts := (t, k.val, counted) :: (if keep.length < 4 then q.acts.take 4 else keep), lastActBank := k.val,
               lastCmd := some (t, .act k.val row) }
  | .pre k =>
    let s := if ((s.seam sm).banks[k]).sweeping then s.rowSwept sm k else s
    s.updSeam sm fun q => { (q.updBank k fun b => { b with openRow := none, preAt := some t, sweeping := false }) with lastCmd := some (t, .pre k.val) }
  | .col k r =>
    let hours := s.regN .scrubPeriod
    s.updSeam sm fun q =>
      let settle := fun (b : Bank) =>
        { b with inOrder := b.inOrder && b.queue.any fun x => x.write && b.queue.any fun y => !y.write && y.row = x.row }
      let gone := fun (b : Bank) => b.queue.filter fun x => x.stamp ≠ r.stamp
      if r.writes then
        let q := q.updBank k fun b => settle { b with queue := gone b, wrAt := some (t + 20) }
        { q with lastCol := some (t, bankGroup k), wrEnds := upd q.wrEnds (Fin.ofNat 2 (bankGroup k)) fun _ => some (t + 20),
                 lastCmd := some (t, .wr k.val (colOf r.burst)) }
      else
        let held := fun (b : Bank) => b.queue.map fun x => if x.stamp = r.stamp then { x with reading := true } else x
        let q := q.updBank k fun b => settle { b with queue := if r.merge then held b else gone b, rdAt := some t }
        let q := { q with lastCol := some (t, bankGroup k), inflight := q.inflight ++ [r], lastCmd := some (t, .rd k.val (colOf r.burst)) }
        if r.scrub then
          let q := { q with scrubPromoted := false, nextStamp := q.nextStamp + 1 }
          if r.burst + 1 = burstsOf s.grade then q.scrubPassEnd s.now.toNat hours else { q with scrubNext := r.burst + 1 }
        else q

/-- A scrub pass with no burst left to read ends. -/
def State.scrubWrap (s : State) (sm : SeamId) : State :=
  if (s.scrubTarget sm).isNone && (s.seam sm).scrubNext ≠ 0 then s.updSeam sm fun q => q.scrubPassEnd s.now.toNat (s.regN .scrubPeriod) else s

/-- The command bus of a seam in service is free on this cycle: at most one command goes out (R330). -/
def State.busFree (s : State) (sm : SeamId) : Bool := (s.seam sm).state.inService && !(s.seam sm).lastCmd.any fun c => c.1 = s.cycle

/-- SEAM_COMMAND_ISSUE (R330): at most one command on a clock cycle. -/
def seamCommandIssue (sm : SeamId) (s : State) : State :=
  let t := s.cycle
  if !s.busFree sm then s
  else
    let limit := s.regN .sweepDebtLimit
    let s := (s.enterBacks sm).updSeam sm fun q => { q with banks := q.banks.map fun b => b.compare t limit }
    let s := s.updSeam sm fun q => { q with busWrites := q.steer }
    let s := s.scrubWrap sm
    match s.seamPick sm t with
    | none => s
    | some p => s.seamIssue sm t p

def execSeamCommandIssue (sm : SeamId) (s : State) : Host.Outcome State Fault Refusal := done s (seamCommandIssue sm s)

/- Read data and errors (R342, R343, R347). -/

/-- The record of a corrected error, unless one was written within 10^9 ticks (R342). -/
def State.logCe (s : State) (sm : SeamId) (g : Nat) : State :=
  let q := s.seam sm
  if q.lastCeLog.any fun t => (s.now - t).toNat < 1000000000 then s
  else (s.updSeam sm fun q => { q with lastCeLog := some s.now }).logOpen 0x3401 4 sm.val (some (BitVec.ofNat 64 (addrOfBurst sm g)))

/-- A correctable error of a scrub read condemns the row where an earlier pass has found one (R347). -/
def State.scrubCe (s : State) (sm : SeamId) (die : Nat) (g : Nat) : State :=
  let q := s.seam sm
  let key := rowKey g
  let again := q.ceRows.any fun c => c.1 = key && c.2 ≠ q.scrubPass
  let s := s.updSeam sm fun q =>
    { q with ceRows := if q.ceRows.any fun c => c.1 = key && c.2 = q.scrubPass then q.ceRows else q.ceRows ++ [(key, q.scrubPass)] }
  if again then s.condemn sm die (bankOfBurst g).val (rowOfBurst g) else s

/-- What the code makes of a burst (R341): one symbol in error in a codeword is corrected, and the die named is that of the first such
codeword (log entry 58); two are detected; more may be, or may pass as a corrected codeword or a clean one, whose 16 bytes are then free. -/
inductive Decoded where
  | clean
  | corrected (die : Nat)
  | uncorrectable
  | missed (words : List Nat) (bytes : List Byte) (die : Option Nat)
  deriving DecidableEq, Repr

/-- The die of a symbol: two byte lanes a die (R323, R341). -/
def symbolDie (i : Fin 20) : Nat := i.val % 10 / 2

/-- The code of R341. -/
def State.decodeBurst (s : State) (e : BurstErrors) : Decoded × State :=
  let n := e.toList.map fun l => l.eraseDups.length
  let three := (List.range 4).filter fun i => 3 ≤ n.getD i 0
  let single := e.toList.findSome? fun l => if l.eraseDups.length = 1 then l.head?.map symbolDie else none
  if n.contains 2 then (.uncorrectable, s)
  else if three = [] then (((single.map Decoded.corrected).getD .clean), s)
  else
    let (found, s) := s.drawChoice
    if found then (.uncorrectable, s)
    else
      let (seen, s) := s.drawChoice
      let (w, s) := s.drawWord
      let (bs, s) := s.drawBytes 64
      (.missed three bs (if seen then some (w.toNat % 5) else single), s)

/-- Bytes from an offset of a burst, with those of wrongly decoded codewords replaced. -/
def missedBytes (words : List Nat) (bytes : List Byte) (off : Nat) (data : List Byte) : List Byte :=
  data.zipIdx.map fun (x, i) => if words.contains ((off + i) / 16) then bytes.getD (off + i) 0 else x

/-- What is written over a burst in the order of acceptance from a request on (R328): the bytes of the writes that wait. -/
def Seam.covered (q : Seam) (r : SeamReq) (i : Nat) : Bool :=
  (r :: q.banks.toList.flatMap (·.queue)).any fun x =>
    x.write && x.burst = r.burst && r.stamp ≤ x.stamp && x.off ≤ i && i < x.off + x.data.length

/-- Wrongly decoded codewords that the seam writes back stand in the burst from now on, but for bytes written after the read. -/
def State.spoil (s : State) (sm : SeamId) (r : SeamReq) (words : List Nat) (bytes : List Byte) : State :=
  let a := addrOfBurst sm r.burst
  let old := s.mem.readBytes a 64
  let new := old.zipIdx.map fun (x, i) => if words.contains (i / 16) && !(s.seam sm).covered r i then bytes.getD i 0 else x
  if r.replaced.isSome then s else { s with mem := s.mem.writeBytes a new }

/-- A read's burst is found uncorrectable (R343, R334): reads that the front accepted after it and before the next write of the whole
burst fail with it, and the burst is left poisoned unless such a write has been accepted since (R328). -/
def State.readUe (s : State) (sm : SeamId) (r : SeamReq) (code : Nat) : State :=
  let hit := fun (x : SeamReq) =>
    if x.burst = r.burst && (!x.write || x.merge) && r.stamp < x.stamp && x.replaced = r.replaced then { x with poisoned := true } else x
  let s := s.updSeam sm fun q =>
    { q with banks := q.banks.map fun b => { b with queue := b.queue.map hit }, inflight := q.inflight.map hit }
  (if r.replaced.isSome then s else s.poisonBurst sm r.burst).countUe sm r.burst code

/-- A burst with a corrected error (R342): counted, logged at most once in 10^9 ticks, and of a scrub read remembered for its row. -/
def State.readCe (s : State) (sm : SeamId) (r : SeamReq) (die : Nat) : State :=
  let s := (s.bump .seamCe sm.val).setReg .seamLastError (lastErrorWord 1 die r.burst) sm.val
  let s := s.logCe sm r.burst
  if r.scrub then s.scrubCe sm die r.burst else s

/-- SEAM_READ_DATA (R334, R341 to R343): the data of the oldest read issued arrives and is decoded; a merge's read turns it into a write of
the burst; a corrected or failing burst is written back. -/
def seamReadData (sm : SeamId) (e : BurstErrors) (s : State) : State :=
  match (s.seam sm).inflight with
  | [] => s
  | r :: rest =>
    let g := r.burst
    let s := s.updSeam sm fun q => { q with inflight := rest }
    let reply := fun (a : MemAnswer) (s : State) => if r.scrub || r.merge then s else s.updSeam sm fun q => { q with answers := [(r.stamp, a)] }
    let back := fun (s : State) => if r.merge then s else s.updSeam sm fun q => { q with backs := q.backs ++ [g] }
    let s : State :=
      if r.poisoned then reply (.fails .uncorrectable) (s.poisonRead sm g)
      else
        match s.decodeBurst e with
        | (.clean, s) => reply (.data r.data) s
        | (.corrected d, s) => reply (.data r.data) (back (s.readCe sm r d))
        | (.uncorrectable, s) => reply (.fails .uncorrectable) (back (s.readUe sm r (if r.scrub then 0x3403 else 0x3402)))
        | (.missed ws bs die, s) =>
          let s := match die with
            | some d => back ((s.readCe sm r d).spoil sm r ws bs)
            | none => if r.merge then s.spoil sm r ws bs else s
          reply (.data (missedBytes ws bs r.off r.data)) s
    if r.merge then
      s.updSeam sm fun q => q.updBank r.bank fun b =>
        { b with queue := b.queue.map fun x => if x.stamp = r.stamp then { x with merge := false, reading := false } else x }
    else s

def execSeamReadData (sm : SeamId) (e : BurstErrors) (s : State) : Host.Outcome State Fault Refusal := done s (seamReadData sm e s)

/- The row sweep and the REF window (R336 to R340). -/

/-- The interval of the debt's rises in units of 2^-17 ns (R337): 60 ms over the rows of a bank, half of it while hot. -/
def debtInterval (g : Grade) (hot : Bool) : Nat := 60000000 * (131072 / rowsOf g) / (if hot then 2 else 1)

/-- SWEEP_DEBT_TICK (R337): a rise that is due on the timebase; the next takes the rate in force. -/
def sweepDebtTick (sm : SeamId) (k : BankId) (s : State) : State :=
  let q := s.seam sm
  if !q.state.inService || s.now.toNat * 2 ^ 17 < q.banks[k].nextRise then s
  else
    let t := s.cycle
    let limit := s.regN .sweepDebtLimit
    let step := debtInterval s.grade q.hot
    let s := s.updSeam sm fun q => q.updBank k fun b => { b.owe t limit 1 with nextRise := b.nextRise + step }
    let d := ((s.seam sm).banks[k]).debt.toNat
    if s.regN .seamMaxDebt sm.val < d && !s.confidentialOpen then s.setReg .seamMaxDebt (BitVec.ofNat 64 d) sm.val else s

def execSweepDebtTick (sm : SeamId) (k : BankId) (s : State) : Host.Outcome State Fault Refusal := done s (sweepDebtTick sm k s)

/-- DRAM_TEMP_POLL (R336): the seam becomes hot at the first reading in the 2x range; such a reading holds off the return to normal. The dies are read every 1,000,000 ticks. -/
def dramTempPoll (sm : SeamId) (twice : Bool) (s : State) : State :=
  if !(s.seam sm).state.inService || !s.due (s.seam sm).polledAt 1000000 then s
  else s.updSeam sm fun q =>
    { q with polledAt := some s.now, hot := twice || q.hot, hotWraps := if twice then Vector.replicate 8 0 else q.hotWraps }

def execDramTempPoll (sm : SeamId) (twice : Bool) (s : State) : Host.Outcome State Fault Refusal := done s (dramTempPoll sm twice s)

/-- ROW_OPEN_TIMEOUT (R332): a row that has been open for 60,000 ns is precharged, on a cycle on which that is legal; until then no
request is served from it. -/
def rowOpenTimeout (sm : SeamId) (k : BankId) (s : State) : State :=
  if s.busFree sm && (s.seam sm).banks[k].expired s.now.toNat && (s.seam sm).preOk k s.cycle then s.seamIssue sm s.cycle (.pre k) else s

def execRowOpenTimeout (sm : SeamId) (k : BankId) (s : State) : Host.Outcome State Fault Refusal := done s (rowOpenTimeout sm k s)

/-- SCRUB_PROMOTE (R344): a scrub read that has waited 100 µs is issued at step 4. -/
def scrubPromote (sm : SeamId) (s : State) : State :=
  if (s.seam sm).state.inService && s.scrubDue sm 100000 then s.updSeam sm fun q => { q with scrubPromoted := true } else s

def execScrubPromote (sm : SeamId) (s : State) : Host.Outcome State Fault Refusal := done s (scrubPromote sm s)

/-- tRFC in cycles (R326). -/
def tRfc (g : Grade) : Nat := if g = .c64 then 560 else 880

/-- tREFI in ns (R340). -/
def Seam.refInterval (q : Seam) : Nat := if q.hot then 3900 else 7800

/-- REF_TICK (R340): an all-bank REF that is due closes every open row, whose sweep is then done, and stops the seam for tRFC. It goes out on
the first cycle that R326 leaves to it. -/
def refTick (sm : SeamId) (s : State) : State :=
  let t := s.cycle
  let q := s.seam sm
  let isOpen := fun (k : BankId) => q.banks[k].openRow.isSome
  if !s.busFree sm || !q.refDue s.now.toNat || t < q.blockedUntil || !((List.finRange 8).all fun k => !isOpen k || q.preOk k t) then s
  else
    let s := (List.finRange 8).foldl (fun s k => if q.banks[k].sweeping then s.rowSwept sm k else s) s
    s.updSeam sm fun q =>
      { q with banks := q.banks.map fun b => if b.openRow.isSome then { b with openRow := none, preAt := some t, sweeping := false } else b,
               blockedUntil := t + tRfc s.grade, lastCmd := some (t, .ref), refNext := q.refNext + q.refInterval }

def execRefTick (sm : SeamId) (s : State) : Host.Outcome State Fault Refusal := done s (refTick sm s)

/-- The retention window in ns (R336). -/
def Seam.window (q : Seam) : Nat := if q.hot then 32000000 else 64000000

/-- REF_WINDOW_END (R340): the new pass is complete and a retention window has passed since the exit. -/
def refWindowEnd (sm : SeamId) (s : State) : State :=
  let q := s.seam sm
  if q.state = .refWindow && q.passDone.toList.all id && q.window ≤ (s.now - q.refStart).toNat then
    s.updSeam sm fun q => { q with state := .ready }
  else s

def execRefWindowEnd (sm : SeamId) (s : State) : Host.Outcome State Fault Refusal := done s (refWindowEnd sm s)

/- Training (R39, R345 to R347). -/

/-- A bough that waits for its seams and its local memory reports ready (R39, R109, R433). -/
def State.boughCheck (s : State) (b : BoughId) : State :=
  if s.boughs[b].state = .training && s.boughs[b].zeroed && (seamsOf b).all (fun q => s.seams[q].state.inService) then
    ((s.updBough b fun x => { x with state := .ready }).reportReady (rBough b.val)).wake
  else s

/-- Rows repaired since the last initialisation (R345, R347). -/
def State.newRows (s : State) (sm : SeamId) : List Nat :=
  ((s.nv.repairs[sm]).drop (s.seam sm).applied).map fun r => r.bank * 2 ^ 17 + r.row

/-- A seam enters service: in READY after full training, in REF_WINDOW after a reinitialisation; its segments are lost. -/
def State.seamUp (s : State) (sm : SeamId) : State :=
  let full := (s.seam sm).trainFull
  let rows := s.newRows sm
  let n := (s.nv.repairs[sm]).length
  let s := s.loseSegs (Fin.ofNat 4 (sm.val / 4))
  let now := s.now.toNat
  let hours := s.regN .scrubPeriod
  let fresh := fun (b : Bank) (hot : Bool) =>
    { b with debt := 0, pointer := 0, sweeping := false, forcing := false, openRow := none, nextRise := now * 2 ^ 17 + debtInterval s.grade hot }
  let s := s.updSeam sm fun q =>
    { q with
      state := if full then .ready else .refWindow
      applied := n
      saved := true
      outPending := false
      refStart := s.now
      refNext := now + q.refInterval
      passDone := Vector.replicate 8 false
      blockedUntil := s.cycle + (if full then 0 else tRfc s.grade + 16)
      dllAt := s.cycle + (if full then 0 else 1024)
      banks := q.banks.map fun b => fresh b q.hot
      scrubNext := 0
      scrubPass := q.scrubPass + 1
      scrubStart := now
      scrubHours := hours
      scrubPromoted := false
      raw := full || q.raw
      cleared := if full then [] else q.cleared
      written := if full then [] else q.written
      poisoned := if full then [] else q.poisoned.filter fun g => !rows.contains (rowKey g)
      rawRows := if full then [] else q.rawRows ++ rows
      ueRows := [] }
  (s.reportReady (rSeam sm.val)).boughCheck (Fin.ofNat 4 (sm.val / 4))

/-- SEAM_TRAIN_DONE (R346): one attempt ends; the third failure leaves the seam FAILED and its bough out of service (R39). -/
def seamTrainDone (sm : SeamId) (ok : Bool) (s : State) : State :=
  if (s.seam sm).state ≠ .training || !s.foremanRuns 1 then s
  else
    let s := s.updSeam sm fun q => { q with tries := q.tries + 1 }
    if ok then s.seamUp sm
    else if (s.seam sm).tries < 3 then s
    else
      let s := s.updSeam sm fun q => { q with state := .failed }
      ((s.failService (rSeam sm.val)).failService (rBough (sm.val / 4))).logOpen 0x3406 4 sm.val

def execSeamTrainDone (sm : SeamId) (ok : Bool) (s : State) : Host.Outcome State Fault Refusal := done s (seamTrainDone sm ok s)

/-- Sixteen distinct rows with uncorrectable errors within 10^9 ticks (R348). -/
def State.rowsFail (s : State) (sm : SeamId) : Bool :=
  16 ≤ (((s.seam sm).ueRows.filter fun r => (s.now - r.2).toNat ≤ 1000000000).map (·.1)).eraseDups.length

/-- SEAM_OUT (R348, R39): the seam leaves service and what it holds is answered FENCED; its bough counts as failed; the hub foreman fences
and resets the bough, now or when it runs again (R402). -/
def seamOut (sm : SeamId) (cause : SeamOutCause) (s : State) : State :=
  let b : BoughId := Fin.ofNat 4 (sm.val / 4)
  if !(s.seam sm).state.inService || !s.foremanRuns 1 || (cause = .rowErrors && !s.rowsFail sm) then s
  else
    let s := s.updSeam sm fun q => { q.emptied with state := .failed, outPending := !s.foremanRuns 4 }
    let s := ((s.failService (rSeam sm.val)).failService (rBough b.val)).logOpen 0x3407 4 sm.val
    if s.foremanRuns 4 then s.hubReset b else s

def execSeamOut (sm : SeamId) (cause : SeamOutCause) (s : State) : Host.Outcome State Fault Refusal := done s (seamOut sm cause s)

/- DRAM groups (R349, R350, R562). -/

def State.updGroup (s : State) (b : BoughId) (f : Group → Group) : State := { s with groups := upd s.groups b f }

/-- The codes of a write to dram_group_mode. -/
def groupCodes (b : BoughId) (s : State) : List Nat :=
  let g := s.groups[b]
  codeIf (s.boughs[b].state ≠ .down) 0xA400 ++ codeIf (g.changing.isSome || g.enHold || !s.foremanRuns 1) 0xA500

/-- Seams of a group leave service with no failed bit (R349). -/
def State.groupSeams (s : State) (b : BoughId) (f : Seam → Seam) : State :=
  (seamsOf b).foldl (fun s sm =>
    (s.updSeam sm f).putReady (setBit s.readiness (rSeam sm.val) false) (setBit s.readyFailed (rSeam sm.val) false)) s

/-- DRAM_GROUP_KEEP (R349, R363). -/
def groupKeepFx (b : BoughId) (s : State) : State :=
  let g := s.groups[b]
  if g.mode = .keep then s
  else
    let s := (slicesOf b).foldl State.flushLines s
    let s := s.updGroup b fun g => { g with mode := .keep, changing := some g.mode, enable := true }
    s.groupSeams b fun q => { q.emptied with state := .selfRefresh }

/-- DRAM_GROUP_DROP (R349, R363): contents are lost, and every segment of the bough is marked lost. -/
def groupDropFx (b : BoughId) (s : State) : State :=
  let g := s.groups[b]
  if g.mode = .drop then s
  else
    let s := (slicesOf b).foldl State.dropLines s
    let s := s.updGroup b fun g => { g with mode := .drop, changing := some g.mode }
    let s := s.groupSeams b fun q =>
      { q.emptied with state := .off, raw := true, cleared := [], written := [], poisoned := [], rawRows := [] }
    let s := s.loseSegs b
    s.updHub fun h => { h with bundles := h.bundles.map fun x => if x.segs.any (segInBough b) then { x with lost := true } else x }

/-- DRAM_GROUP_ON (R350): from KEEP the seams reinitialise, from DROP they train in full. -/
def groupOnFx (b : BoughId) (s : State) : State :=
  let g := s.groups[b]
  if g.mode = .on then s
  else
    let full := g.mode = .drop
    let s := s.updGroup b fun g => { g with mode := .on, changing := some g.mode, enable := true }
    s.groupSeams b fun q => { q.emptied with state := .training, tries := 0, trainFull := full || !q.saved }

/-- DRAM_GROUP_CHANGE_DONE (R349, R352, R562): a change ends; at the end of a DROP DRAM_EN falls and is held low. -/
def dramGroupChangeDone (b : BoughId) (s : State) : State :=
  let g := s.groups[b]
  if g.changing.isNone then s
  else
    match g.mode with
    | .on =>
      if (seamsOf b).any fun sm => (s.seam sm).state = .training then s
      else s.updGroup b fun g => { g with changing := none }
    | .keep => s.updGroup b fun g => { g with changing := none }
    | .drop => s.updGroup b fun g => { g with changing := none, enable := false, enHold := true, enFell := s.now }

def execDramGroupChangeDone (b : BoughId) (s : State) : Host.Outcome State Fault Refusal := done s (dramGroupChangeDone b s)

/-- DRAM_EN_HOLD_END (R562): DRAM_EN has been low for 50 ms; a group that a crown start wants on comes up. -/
def dramEnHoldEnd (b : BoughId) (s : State) : State :=
  if !(s.groups[b]).enHold || (s.now - s.groups[b].enFell).toNat < 50000000 then s
  else
    let s := s.updGroup b fun g => { g with enHold := false }
    if s.groups[b].mode = .on && !s.groups[b].enable && s.crown ≠ .powerOn && s.crown ≠ .early then s.groupPowerUp b else s

def execDramEnHoldEnd (b : BoughId) (s : State) : Host.Outcome State Fault Refusal := done s (dramEnHoldEnd b s)

/-- LOCAL_MEMORY_ZEROED (R109, R433): the bough's local memory is zero with valid check bits. -/
def localMemoryZeroed (b : BoughId) (s : State) : State :=
  if s.boughs[b].state = .training then (s.zeroLocal b).boughCheck b else s

def execLocalMemoryZeroed (b : BoughId) (s : State) : Host.Outcome State Fault Refusal := done s (localMemoryZeroed b s)

/-- seam_status (R353). -/
def State.seamStatus (s : State) (sm : SeamId) : Nat :=
  let q := s.seam sm
  q.state.code + bitN q.hot 3 + (s.nv.repairs[sm]).length % 16 * 256 + q.tries % 16 * 4096

end Sys2Proof.Machine
end

