-- ==== Sys2Proof/Machine/Cameras.lean ====
section
/-! DEFINITION. Camera ports and the image pipelines: enabling, packets, frames, lines, the frame buffer and the post (R296 to R312,
R318). -/
namespace Sys2Proof.Machine
open Sys2Proof

/-- Change a camera port. -/
def State.updCam (s : State) (p : CamId) (f : CameraPort → CameraPort) : State := { s with cameras := upd s.cameras p f }

/- Configuration (R300 to R302, R306 to R308). -/

/-- A field of csi_config. -/
def State.csi (s : State) (p msb lsb : Nat) : Nat := bits (s.reg .csiConfig p) msb lsb
/-- A field of ipipe_port_config. -/
def State.ipc (s : State) (p msb lsb : Nat) : Nat := bits (s.reg .ipipePortConfig p) msb lsb

/-- RATIO1 to RATIO7 of a port, as many as it has levels above 0. -/
def State.ratios (s : State) (p : Nat) : List Nat :=
  (List.range (s.ipc p 17 15)).map fun k =>
    if k < 4 then bits (s.reg .pyramidRatiosLo p) (16 * k + 15) (16 * k) else bits (s.reg .pyramidRatiosHi p) (16 * (k - 4) + 15) (16 * (k - 4))

/-- The handle queue of a port's frames. -/
def State.camQueue (s : State) (p : Nat) : BoughId × HqPos := (Fin.ofNat 4 (s.ipc p 6 5), Fin.ofNat 32 (s.ipc p 11 7))

/-- Reserved bits of csi_config. -/
def csiReserved (v : Nat) : Bool := nbits v 63 56 ≠ 0 || nbits v 15 2 ≠ 0

/-- The checks made when ENABLE is written to 1, but for readiness. -/
def csiConfigBad (p v : Nat) (s : State) : Bool :=
  let w := nbits v 45 32
  let h := nbits v 31 18
  let fmt := s.ipc p 20 18
  let rs := s.ratios p
  let dims := levelDims fmt w h rs
  let (b, q) := s.camQueue p
  let x := s.boughs[b].hqs[q]
  let others := (List.range 16).filter fun o => o ≠ p && (s.reg .csiConfig o).getLsbD 0 && s.csi o 1 1 = nbits v 1 1
  let store := (others.foldl (fun a o => a + 16 * s.csi o 45 32) 0) + 16 * w
  !dtOk (nbits v 51 46) || w < 16 || 8192 < w || h < 16 || 8192 < h || nbits v 17 16 = 3 ||
  917504 < store || 5 < fmt || 3 < s.ipc p 23 21 || (rs.any fun r => r < 16384 || 65535 < r) ||
  clearDim fmt w ≠ w || clearDim fmt h ≠ h || (dims.any fun d => d.1 < 16 || d.2 < 16) ||
  !x.bound || x.stride < (levelOffsets fmt 2048 dims).2

/-- The codes of a write to csi_config (R300). -/
def csiConfigCodes (p v : Nat) (s : State) : List Nat :=
  let old := s.regN .csiConfig p
  codeIf (camerasOf s.grade ≤ p) 0xA101 ++ codeIf (csiReserved v) 0xA300 ++
  if old.testBit 0 then codeIf (v / 2 ≠ old / 2) 0xA400
  else if v.testBit 0 then
    if !s.ready (rCamGroup (p / 4)) then [0xA400] else codeIf (csiConfigBad p v s) 0xA300
  else []

/- Frames (R299). -/

/-- The buffer of a frame in progress returns from FILLING to FREE. -/
def State.freeFilling (s : State) (b : BoughId) (q : HqPos) (i : Nat) : State :=
  s.updHq b q fun x => if x.filling.contains i then { x with filling := x.filling.filter (· ≠ i), free := x.free ++ [i] } else x

/-- A frame in progress is dropped (R299). -/
def State.dropFrame (s : State) (p : CamId) : State :=
  match s.cameras[p].frame with
  | none => s
  | some f =>
    let (b, q) := s.camQueue p.val
    let s := (s.freeFilling b q f.buffer).updCam p fun c => { c with frame := none }
    let s := { s with pipes := upd s.pipes (s.pipeOf p.val) fun x => { x with order := x.order.filter (· ≠ p) } }
    s.bump .csiFramesDropped p.val

/-- A write to csi_config takes effect: ENABLE 0 drops the frame in progress. -/
def csiConfigFx (p : CamId) (v : Nat) (s : State) : State :=
  let was := (s.reg .csiConfig p.val).getLsbD 0
  let s := if was && !v.testBit 0 then s.dropFrame p else s
  let s := s.setReg .csiConfig (BitVec.ofNat 64 v) p.val
  if was && v.testBit 0 then s else s.updCam p fun c => { c with started := false, fixedPending := false }

/-- The codes of a write to a pipeline object of a port (R301). -/
def ipipeCodes (o : Ob) (p v : Nat) (s : State) : List Nat :=
  codeIf (camerasOf s.grade ≤ p) 0xA101 ++
  match o with
  | .ipipePortConfig =>
    codeIf (nbits v 63 26 ≠ 0 || v.testBit 24 || nbits v 14 12 ≠ 0 || nbits v 4 0 ≠ 0) 0xA300 ++ codeIf ((s.reg .csiConfig p).getLsbD 0) 0xA400
  | .pyramidRatiosHi => codeIf (nbits v 63 48 ≠ 0) 0xA300 ++ codeIf ((s.reg .csiConfig p).getLsbD 0) 0xA400
  | .ipipeParamAddr => codeIf (v % 64 ≠ 0) 0xA300
  | _ => codeIf ((s.reg .csiConfig p).getLsbD 0) 0xA400

/-- ipipe_panic (R311). -/
def ipipePanicCodes (v : Nat) : List Nat :=
  codeIf (nbits v 15 12 ≠ 0 || nbits v 7 4 ≠ 0 || nbits v 11 8 = 0 || nbits v 11 8 ≤ nbits v 3 0) 0xA300

/-- csi_status and ipipe_status as they read (R300, R311). -/
def CameraPort.status (c : CameraPort) : Nat := bitN c.hsActive 0 + bitN c.frame.isSome 1 + bitN c.deskewDone 2
def ImagePipe.status (x : ImagePipe) : Nat := bitN x.panic 0 + min 15 (x.fill / sixteenth) * 16

/- Lanes and packets (R296, R298, R300). -/

/-- HS_BURST (R300). -/
def execHsBurst (p : CamId) (begins : Bool) (s : State) : Host.Outcome State Fault Refusal :=
  done s (if camerasOf s.grade ≤ p.val then s else s.updCam p fun c => { c with hsActive := begins })

/-- SKEW_CALIBRATION (R296). -/
def execSkewCalibration (p : CamId) (s : State) : Host.Outcome State Fault Refusal :=
  done s (if camerasOf s.grade ≤ p.val then s else s.updCam p fun c => { c with deskewDone := true })

/-- A header with one wrong bit is corrected and counted; the frame it belongs to, where it is of the port's channel and type, keeps the
mark (R298, R308). -/
def State.headerFixed (s : State) (p : CamId) (mine start : Bool) : State :=
  (s.updCam p fun c =>
    if !mine then c
    else if start then { c with fixedPending := true }
    else { c with frame := c.frame.map fun f => { f with eccFixed := true } }).bump .csiEccCorrected p.val

/-- A frame or line short packet. -/
def shortDt (dt : Nat) : Bool := dt < 4

/-- CSI_PACKET (R298, R299): what a receiver makes of a packet's header and of a long packet's CRC. The frame, the line and the frame's
end that an accepted packet brings are FRAME_START, CSI_LINE and FRAME_END. Whether the frame needed a header that cannot be read is
free. -/
def csiPacket (p : CamId) (k : CsiPacket) (s : State) : State :=
  if !s.camOn p.val then s
  else
    let away := fun s : State => s.bump .csiPacketsDiscarded p.val
    if 2 ≤ k.headerErrors then
      let (needed, s) := s.drawChoice
      if needed then (away s).dropFrame p else away s
    else
      let dt := k.dt.toNat
      let mine := k.vc.toNat = s.csi p.val 55 52 && (shortDt dt || dt = s.csi p.val 51 46)
      let s := if k.headerErrors = 1 then s.headerFixed p mine (k.dt = 0) else s
      if k.vc.toNat ≠ s.csi p.val 55 52 then away s
      else if !shortDt dt && dt ≠ s.csi p.val 51 46 then away s
      else if !shortDt dt && !s.cameras[p].started then away s
      else if !shortDt dt && !k.crcOk then s.dropFrame p
      else s

def execCsiPacket (p : CamId) (k : CsiPacket) (s : State) : Host.Outcome State Fault Refusal := done s (csiPacket p k s)

/- Frame start (R303, R308, R318). -/

/-- The next free input slot of a stream's picture ring (R318). -/
def EncStream.freeSlot (e : EncStream) : Option Nat := [0, 1, 2, 3].find? fun i => !(e.waiting.any fun c => c.slot = i)

/-- A logging copy is begun, or skipped and counted. -/
def State.logSlotFor (s : State) (p : CamId) : Option Nat × State :=
  let e := s.encoders[p]
  if !((s.reg .encConfig p.val).getLsbD 0 && (s.ipc p.val 25 25 = 1)) then (none, s)
  else if e.width ≠ s.csi p.val 45 32 || e.height ≠ s.csi p.val 31 18 then (none, s.bump .encSkipped p.val)
  else
    match e.freeSlot with
    | some i => (some i, s)
    | none => (none, s.bump .encSkipped p.val)

/-- FRAME_START (R298, R303, R308): the frame is counted, a frame in progress is dropped, the oldest FREE buffer is taken and the
parameter record is read. -/
def frameStart (p : CamId) (s : State) : State :=
  if !s.camOn p.val then s
  else
    let s := s.dropFrame p
    let s := s.bump .csiFrames p.val
    let fixed := s.cameras[p].fixedPending
    let s := s.updCam p fun c => { c with started := true, fixedPending := false }
    let (b, q) := s.camQueue p.val
    let served := !(s.boughs[b].state.inReset || s.boughs[b].state = .down)
    let ahead := (s.asking b q).length + (s.reserving b q).length
    match (if served && ahead < (s.hq b q).free.length then (s.hq b q).free else []) with
    | i :: rest =>
      let s := s.updHq b q fun x => { x with free := rest, filling := x.filling ++ [i] }
      let a := s.regN .ipipeParamAddr p.val
      match s.readMem (.media 0) a 640 with
      | (.error _, s) =>
        let f : Frame := ⟨s.now, 0, i, [], false, [], [], none⟩
        ((s.updCam p fun c => { c with frame := some f }).dropFrame p).logEngine 0x4000 (2 + (s.pipeOf p.val).val) a
      | (.ok bs, s) =>
        let (slot, s) := s.logSlotFor p
        let f : Frame := ⟨s.now, (s.reg .csiFrames p.val).setWidth 32, i, bs, fixed, [], [], slot⟩
        s.updCam p fun c => { c with frame := some f }
    | [] => s.bump .hqDrops b.val q.val

def execFrameStart (p : CamId) (s : State) : Host.Outcome State Fault Refusal := done s (frameStart p s)

/- Lines (R299, R302, R310). -/

/-- An overrun drops the port's frame and is counted (R310). -/
def State.overrun (s : State) (p : CamId) : State := (s.dropFrame p).bump .ipipeOverruns (s.pipeOf p.val).val

/-- CSI_LINE (R299, R302, R310): a line of another length drops the frame; a full line store is an overrun. -/
def csiLine (p : CamId) (pixels : List (BitVec 16)) (s : State) : State :=
  match s.cameras[p].frame with
  | none => s
  | some f =>
    let dt := s.csi p.val 51 46
    if !s.camOn p.val then s
    else if pixels.length ≠ s.csi p.val 45 32 * codesPerPixel dt then s.dropFrame p
    else if (Config.lineStoreLines dt).val + 1 ≤ f.stored.length then s.overrun p
    else
      let s := s.updCam p fun c => { c with frame := some { f with stored := f.stored ++ [pixels] } }
      { s with pipes := upd s.pipes (s.pipeOf p.val) fun x => { x with order := x.order ++ [p] } }

def execCsiLine (p : CamId) (pixels : List (BitVec 16)) (s : State) : Host.Outcome State Fault Refusal := done s (csiLine p pixels s)

/-- A frame as the pipeline takes it. -/
def State.frameIn (s : State) (p : CamId) (f : Frame) : FrameIn :=
  ⟨s.csi p.val 51 46, s.csi p.val 45 32, s.csi p.val 31 18, s.ipc p.val 23 21, ⟨f.params⟩, f.lines⟩

/-- The address of a port's frame buffer, and the claim it lies in. -/
def State.frameBase (s : State) (p : CamId) (f : Frame) : Nat × ClaimId :=
  let (b, q) := s.camQueue p.val
  let x := s.hq b q
  (x.base + f.buffer * x.stride, x.claim)

/-- A write that a fenced or resetting bough answers FENCED: the frame is lost at its post (R312). -/
def State.fencedWrite (s : State) (a : Nat) (f : MemFail) : Bool := f = .fenced && a < 2 ^ 37 && s.boughs[boughOf a].state.inReset

/-- Writes of an engine, in order; the first failure ends them. -/
def State.mediaWrites (s : State) (who : MemRequester) (base : Nat) (rows : List (Nat × List Byte)) : Option Nat × State :=
  rows.foldl (fun (x : Option Nat × State) r =>
    match x.1 with
    | some a => (some a, x.2)
    | none =>
      match x.2.writeMem who (base + r.1) r.2 with
      | (none, s) => (none, s)
      | (some f, s) => if s.fencedWrite (base + r.1) f then (none, s) else (some (base + r.1), s)) (none, s)

/-- The rows of every level of a frame (R306, R307). -/
def State.frameRows (s : State) (p : CamId) (f : Frame) : List (Nat × List Byte) :=
  let fmt := s.ipc p.val 20 18
  let fin := s.frameIn p f
  let ls := levels fmt fin.w fin.h (fin.level0 fmt) (s.ratios p.val)
  let offs := (levelOffsets fmt 2048 (ls.map fun l => (l.1, l.2.1))).1
  (offs.zip ls).flatMap fun (o, w, h, img) => (levelRows fmt w h img).map fun r => (o + r.1, r.2)

/-- Bytes that the frame's levels have without padding. -/
def frameBytes (fmt : Nat) (dims : List (Nat × Nat)) : Nat :=
  dims.foldl (fun a d =>
    let n := d.1 * d.2
    a + (if fmt = 0 then n else if fmt = 1 then n * 3 / 2 else if fmt = 2 then 3 * n else 3 * n)) 0

/-- Bytes that leave the pipeline with line y of a frame: its even share (log entry 23). -/
def State.lineBytes (s : State) (p : CamId) (y : Nat) : Nat :=
  let h := s.csi p.val 31 18
  let n := frameBytes (s.ipc p.val 20 18) (levelDims (s.ipc p.val 20 18) (s.csi p.val 45 32) h (s.ratios p.val))
  n * (y + 1) / max 1 h - n * y / max 1 h

/-- An engine's failed write stops the buffer and is logged (R34). -/
def State.stopFrame (s : State) (p : CamId) (a : Nat) : State := (s.dropFrame p).logEngine 0x4000 (2 + (s.pipeOf p.val).val) a

/-- IPIPE_LINE (R304, R309, R310): the oldest line is processed; what it gives enters the write buffer, or overruns it; the levels stand
in the frame buffer with the frame's last line. Writes to the early window do not wait on a seam. -/
def ipipeLine (q : Fin 2) (s : State) : State :=
  match s.pipes[q].order with
  | [] => s
  | p :: rest =>
    let s := { s with pipes := upd s.pipes q fun x => { x with order := rest } }
    match s.cameras[p].frame with
    | none => s
    | some f =>
      match f.stored with
      | [] => s
      | l :: more =>
        let y := f.lines.length
        let f := { f with stored := more, lines := f.lines ++ [l] }
        let s := s.updCam p fun c => { c with frame := some f }
        let (base, claim) := s.frameBase p f
        let n := if base < 2 ^ 37 then s.lineBytes p y else 0
        let fill := s.pipes[q].fill
        if 131072 < fill + n then s.overrun p
        else
          let s := s.setFill q (fill + n)
          if f.lines.length ≠ s.csi p.val 31 18 then s
          else
            match s.mediaWrites (.media claim) base (s.frameRows p f) with
            | (none, s) => s
            | (some a, s) => s.stopFrame p a

def execIpipeLine (q : Fin 2) (s : State) : Host.Outcome State Fault Refusal := done s (ipipeLine q s)

/- Frame end (R299, R308, R318). -/

/-- The pipeline processes lines until it holds none of the port. -/
def State.finishLines (s : State) (p : CamId) : Nat → State
  | 0 => s
  | n + 1 =>
    if s.pipes[(s.pipeOf p.val)].order.contains p then (ipipeLine (s.pipeOf p.val) s).finishLines p n else s

/-- The logging copy of a frame is written into its slot and waits to be coded (R318). -/
def State.writeCopy (s : State) (p : CamId) (f : Frame) : State :=
  match f.logSlot with
  | none => s
  | some i =>
    if !(s.reg .encConfig p.val).getLsbD 0 then s
    else
      let v := s.reg .encConfig p.val
      let fmt := if bits v 29 28 = 1 then 2 else 1
      let fin := s.frameIn p f
      let c : ClaimId := Fin.ofNat 16 (bits v 27 24)
      let base := bits (s.reg .encPicRing p.val) 47 0 + i * s.encoders[p].slotSize
      match s.mediaWrites (.media c) base (levelRows fmt fin.w fin.h (fin.level0 fmt)) with
      | (none, s) =>
        { s with encoders := upd s.encoders p fun e => { e with waiting := e.waiting ++ [⟨i, f.fsTime, f.count, s.now⟩] } }
      | (some a, s) => s.logEngine 0x4100 (2 + (s.pipeOf p.val).val) a

/-- The header is written last, and the buffer is posted in the handshake that follows (R264, R265, R308, R312). -/
def State.postFrame (s : State) (p : CamId) (f : Frame) : State :=
  let (base, claim) := s.frameBase p f
  let (b, q) := s.camQueue p.val
  let head := frameHeader f.fsTime s.now f.count p.val f.eccFixed (s.csi p.val 45 32) (s.csi p.val 31 18) (s.ipc p.val 17 15 + 1)
    (s.ipc p.val 20 18)
  match s.mediaWrites (.media claim) base [(0, head)] with
  | (some a, s) => s.stopFrame p a
  | (none, s) =>
    let tag := p.val * 2 ^ 24 + f.count.toNat % 2 ^ 24
    let s := s.updCam p fun c => { c with frame := none }
    (s.hqPut b q (handleWord (2 + (s.pipeOf p.val).val) tag f.buffer) fun x => { x with filling := x.filling.filter (· ≠ f.buffer) }).wake

/-- FRAME_END (R299, R308): the line count is checked; once every line is processed the copy, the header and the post follow. -/
def frameEnd (p : CamId) (s : State) : State :=
  match s.cameras[p].frame with
  | none => s
  | some f =>
    if !s.camOn p.val then s
    else if f.lines.length + f.stored.length ≠ s.csi p.val 31 18 then s.dropFrame p
    else
      let s := s.finishLines p s.pipes[(s.pipeOf p.val)].order.length
      match s.cameras[p].frame with
      | none => s
      | some f => (s.writeCopy p f).postFrame p f

def execFrameEnd (p : CamId) (s : State) : Host.Outcome State Fault Refusal := done s (frameEnd p s)

end Sys2Proof.Machine
end

