-- ==== Sys2Proof/Machine/Codecs.lean ====
section
/-! DEFINITION. Camera control and frame sync (R313 to R316), the encoder (R318, R319) and the decoders (R320, R321). -/
namespace Sys2Proof.Machine
open Sys2Proof

/- I²C (R313, R314). -/

/-- Change an I²C controller. -/
def State.updI2c (s : State) (i : Fin 8) (f : I2c → I2c) : State := { s with i2c := upd s.i2c i f }

/-- The codes of a write to i2c_xfer (R314). -/
def i2cXferCodes (i : Fin 8) (data : List Byte) (s : State) : List Nat :=
  let b := fun n => (data.getD n 0).toNat
  codeIf (128 ≤ b 0 || 32 < b 1 || 32 < b 2 || b 3 ≠ 0) 0xA300 ++ codeIf (s.i2c[i].state = .busy) 0xA500

/-- I2C_XFER (R314): the transfer starts. -/
def i2cXferFx (i : Fin 8) (data : List Byte) (s : State) : State :=
  s.updI2c i fun _ => { state := .busy, xfer := slice data 0 36, began := s.now }

/-- Bytes that the phases of a transfer write and read (R313, R314). -/
def I2c.writeLen (x : I2c) : Nat := (x.xfer.getD 1 0).toNat
def I2c.readLen (x : I2c) : Nat := (x.xfer.getD 2 0).toNat

/-- Where a transfer can end (R313), by the data bytes moved before it does (log entry 58): whole; at the address of either phase, of which
one with no bytes is left out, or of a probe; at a byte of the write phase; at START. -/
def I2c.endsAt (x : I2c) (code : I2cCode) (count : Nat) : Bool :=
  match code with
  | .ok => count = x.writeLen + x.readLen
  | .nackAddr => count = 0 || (x.readLen ≠ 0 && count = x.writeLen)
  | .nackData => count < x.writeLen
  | .busStuck => count = 0

/-- A transfer ends with a code, a count and the bytes that its read phase has read (R313, R314). -/
def State.i2cEnds (s : State) (i : Fin 8) (state : I2cState) (code : Byte) (count : Byte) (data : List Byte) : State :=
  s.updI2c i fun x =>
    { x with state := state, code := code, count := count, data := slice ((data.take (count.toNat - x.writeLen)).take 32) 0 32 }

/-- CODE of i2c_result (R314). -/
def i2cCodeByte : I2cCode → Byte
  | .ok => 0 | .nackAddr => 1 | .nackData => 2 | .busStuck => 4

/-- I2C_DONE (R313, R314): the transfer in progress ends where the bus ended it. -/
def i2cDone (i : Fin 8) (code : I2cCode) (count : Byte) (data : List Byte) (s : State) : State :=
  let x := s.i2c[i]
  if x.state = .busy && x.endsAt code count.toNat then s.i2cEnds i (if code = .ok then .done else .failed) (i2cCodeByte code) count data
  else s

def execI2cDone (i : Fin 8) (code : I2cCode) (count : Byte) (data : List Byte) (s : State) : Host.Outcome State Fault Refusal :=
  done s (i2cDone i code count data s)

/-- STRETCH_TIMEOUT (R313): a stretch has passed 25,000,000 ticks, so the transfer has lasted as long; the bytes read before it are
those `count` says, whose values are free. -/
def stretchTimeout (i : Fin 8) (count : Byte) (s : State) : State :=
  let x := s.i2c[i]
  if x.state = .busy && 25000000 ≤ (s.now - x.began).toNat && count.toNat ≤ x.writeLen + x.readLen then
    let (bs, s) := s.drawBytes (count.toNat - x.writeLen)
    s.i2cEnds i .failed 3 count bs
  else s

def execStretchTimeout (i : Fin 8) (count : Byte) (s : State) : Host.Outcome State Fault Refusal := done s (stretchTimeout i count s)

/-- i2c_result as it reads (R314). -/
def I2c.result (x : I2c) : List Byte := [BitVec.ofNat 8 x.state.code, x.code, x.count, 0] ++ slice x.data 0 32

/- Frame sync (R315, R316). -/

/-- Change an output. -/
def State.updFsync (s : State) (f : Fin 16) (g : Fsync → Fsync) : State := { s with fsync := upd s.fsync f g }

/-- The codes of a write to an output's objects (R315). -/
def fsyncCodes (o : Ob) (f v : Nat) (s : State) : List Nat :=
  let per := s.regN .fsyncPeriod f
  match o with
  | .fsyncPeriod =>
    codeIf (v ≠ 0 && (v < 100000 || v ≤ s.regN .fsyncPhase f || v ≤ s.regN .fsyncWidth f || s.regN .fsyncWidth f = 0)) 0xA300
  | .fsyncPhase => codeIf (per ≠ 0 && per ≤ v) 0xA300
  | .fsyncWidth => codeIf (per ≠ 0 && (v = 0 || per ≤ v)) 0xA300
  | _ => []

/-- The values that an output's objects hold. -/
def State.fsyncNow (s : State) (f : Nat) : FsWrite :=
  ⟨s.now, s.regN .fsyncPeriod f, s.regN .fsyncPhase f, s.regN .fsyncWidth f, s.regN .fsyncEpoch⟩

/-- Values come into force. -/
def Fsync.adopt (x : Fsync) (w : FsWrite) (since : BitVec 64) : Fsync :=
  { x with period := w.period, phase := w.phase, width := w.width, epoch := w.epoch, since := since }

/-- A write of an output's objects: an output held low has no boundary to wait for; any other takes the values at its next one. -/
def State.fsyncWritten (s : State) (f : Fin 16) : State :=
  let w := s.fsyncNow f.val
  s.updFsync f fun x => if x.period = 0 then x.adopt w s.now else { x with writes := x.writes ++ [w] }

/-- A write to fsync_epoch bears on every output. -/
def State.epochWritten (s : State) : State := (List.range 16).foldl (fun s i => s.fsyncWritten (Fin.ofNat 16 i)) s

/-- Whether a tick is a boundary of the values in force (R315). -/
def Fsync.boundary (x : Fsync) (t : BitVec 64) : Bool :=
  x.period ≠ 0 && ((t.toNat : Int) - x.epoch - x.phase) % (x.period : Int) = 0

/-- FSYNC_EDGE (R315, R316): at a boundary the writes acknowledged before it come into force, and a pulse begins where it is an edge of
the values then in force. Where these hold the output low, no boundary comes for a write acknowledged in the boundary's tick, which
takes effect at once as in an output held low. -/
def fsyncEdge (f : Fin 16) (s : State) : State :=
  let x := s.fsync[f]
  if !x.boundary s.now then s
  else
    let old := x.writes.filter fun w => w.time ≠ s.now
    let x := match old.getLast? with
      | some w => { x.adopt w (s.now - 1) with writes := x.writes.filter fun w => w.time = s.now }
      | none => x
    let x := match x.period, x.writes.getLast? with
      | 0, some w => { x.adopt w s.now with writes := [] }
      | _, _ => x
    let x := if x.boundary s.now && x.since ≠ s.now then { x with level := true, pulseEnd := some (s.now + BitVec.ofNat 64 x.width) } else x
    s.updFsync f fun _ => x

def execFsyncEdge (f : Fin 16) (s : State) : Host.Outcome State Fault Refusal := done s (fsyncEdge f s)

/-- FSYNC_PULSE_END (R315). -/
def fsyncPulseEnd (f : Fin 16) (s : State) : State :=
  match s.fsync[f].pulseEnd with
  | some t => if t.toNat ≤ s.now.toNat then s.updFsync f fun x => { x with level := false, pulseEnd := none } else s
  | none => s

def execFsyncPulseEnd (f : Fin 16) (s : State) : Host.Outcome State Fault Refusal := done s (fsyncPulseEnd f s)

/- The encoder (R318, R319). -/

/-- The copy's format and a slot's size for a CODEC and a picture (R307, R318). -/
def copyFmt (codec : Nat) : Nat := if codec = 1 then 2 else 1
def slotBytes (codec w h : Nat) : Nat := (levelSize (copyFmt codec) w h + 2047) / 2048 * 2048

/-- The checks made when ENABLE is written to 1 (R319). -/
def encConfigBad (i v : Nat) (s : State) : Bool :=
  let c : ClaimId := Fin.ofNat 16 (nbits v 27 24)
  let w := s.csi i 45 32
  let h := s.csi i 31 18
  let base := bits (s.reg .encPicRing i) 47 0
  let bs := s.regN .encBsBase i
  let size := s.regN .encBsSize i
  base % 2048 ≠ 0 || !s.rangeGrants c base (6 * slotBytes (nbits v 29 28) w h) true true || !s.rangeGrants c bs size true true ||
  bs % 64 ≠ 0 || size % 2048 ≠ 0 || s.ipc i 25 25 = 0 || 51 < nbits v 37 32 || w % 2 = 1 || h % 2 = 1

/-- The codes of a write to enc_config: while ENABLE is 1 the only write that is not refused clears ENABLE and changes nothing else (R319). -/
def encConfigCodes (i v : Nat) (s : State) : List Nat :=
  let old := s.regN .encConfig i
  codeIf (nbits v 23 1 ≠ 0 || nbits v 31 30 = 3 || nbits v 29 28 = 3) 0xA300 ++
  if old.testBit 0 then codeIf (v.testBit 0 || v / 2 ≠ old / 2) 0xA400
  else if v.testBit 0 then codeIf (encConfigBad i v s) 0xA300 ++ codeIf (!s.ready rEncoder) 0xA400
  else []

/-- A write to enc_config takes effect: a stream enabled begins with an IDR picture; copies of a stream disabled are not coded. -/
def encConfigFx (i : Fin 16) (v : Nat) (s : State) : State :=
  let was := (s.reg .encConfig i.val).getLsbD 0
  let s := s.setReg .encConfig (BitVec.ofNat 64 v) i.val
  if !was && v.testBit 0 then
    let w := s.csi i.val 45 32
    let h := s.csi i.val 31 18
    { s with encoders := upd s.encoders i fun _ => { slotSize := slotBytes (nbits v 29 28) w h, width := w, height := h } }
  else if was && !v.testBit 0 then { s with encoders := upd s.encoders i fun e => { e with waiting := [] } }
  else s

/-- The codes of the other objects of a stream. -/
def encCodes (o : Ob) (i v : Nat) (s : State) : List Nat :=
  let on := (s.reg .encConfig i).getLsbD 0
  match o with
  | .encPicRing => codeIf (nbits v 63 48 ≠ 0) 0xA300 ++ codeIf on 0xA400
  | .encBsBase | .encBsSize => codeIf on 0xA400
  | .encBsRead => codeIf (s.regN .encBsWrite i < v || v < s.regN .encBsRead i) 0xA300
  | _ => []

/-- Bytes written into a stream's bitstream ring at a byte count, modulo its size. -/
def State.ringWrite (s : State) (c : ClaimId) (base size at_ : Nat) (bs : List Byte) : Option Nat × State :=
  let o := at_ % max 1 size
  let room := size - o
  s.mediaWrites (.codec c) base ([(o, bs.take room)] ++ if room < bs.length then [(0, bs.drop room)] else [])

/-- The record of an access unit: head, bytes, and padding to a multiple of 64 whose contents are free (R318). -/
def State.auRecord (s : State) (c : LogCopy) (idr : Bool) (au : List Byte) : List Byte × State :=
  let n := (32 + au.length + 63) / 64 * 64 - (32 + au.length)
  let (pad, s) := s.drawBytes n
  (leBytes 32 (c.fsTime.toNat + au.length % 2 ^ 32 * 2 ^ 64 + c.count.toNat * 2 ^ 96 + bitN idr 128) ++ au ++ pad, s)

/-- An engine's failure is logged (R34): the encoder has no number among the sources, and the record's code is free. -/
def State.logCodec (s : State) (range src a : Nat) : State := s.logEngine range src a

/-- ENC_ACCESS_UNIT (R318, R322): the oldest picture of all streams is coded; its access unit is written, or discarded whole where it
does not fit, and then the next picture is coded as IDR. Slots 4 and 5 take the reconstruction, whose contents are not stated. -/
def encAccessUnit (i : Fin 16) (s : State) : State :=
  let e := s.encoders[i]
  let v := s.reg .encConfig i.val
  match e.waiting with
  | [] => s
  | c :: rest =>
    let older := s.encoders.toList.any fun o => o.waiting.any fun d => d.arrived.toNat < c.arrived.toNat
    if !v.getLsbD 0 || older || !s.ready rEncoder then s
    else
      let claim : ClaimId := Fin.ofNat 16 (bits v 27 24)
      let pic := bits (s.reg .encPicRing i.val) 47 0
      let idr := e.forceIdr || bits v 47 38 + 1 ≤ e.sinceIdr
      match s.readMem (.codec claim) (pic + c.slot * e.slotSize) e.slotSize with
      | (.error _, s) =>
        ({ s with encoders := upd s.encoders i fun e => { e with waiting := rest, forceIdr := true } }).logCodec 0x4100 7
          (pic + c.slot * e.slotSize)
      | (.ok _, s) =>
        let au := Config.accessUnit s.free idr
        let s := { s with free := s.free + 1 }
        let (rec_, s) := s.auRecord c idr au
        let (recon, s) := s.drawBytes e.slotSize
        let (bad1, s) := s.mediaWrites (.codec claim) (pic + (4 + e.coded % 2) * e.slotSize) [(0, recon)]
        let size := s.regN .encBsSize i.val
        let wr := s.regN .encBsWrite i.val
        let next := fun (ok : Bool) (s : State) => { s with encoders := upd s.encoders i fun e =>
          { e with waiting := rest, forceIdr := !ok, coded := e.coded + 1, sinceIdr := if idr then 1 else e.sinceIdr + 1 } }
        if size < wr - s.regN .encBsRead i.val + rec_.length then (next false s).bump .encDiscarded i.val
        else
          match bad1, s.ringWrite claim (s.regN .encBsBase i.val) size wr rec_ with
          | none, (none, s) => next true (s.setReg .encBsWrite (BitVec.ofNat 64 (wr + rec_.length)) i.val)
          | some a, (_, s) => (next false s).logCodec 0x4100 7 a
          | none, (some a, s) => (next false s).logCodec 0x4100 7 a

def execEncAccessUnit (sm : Fin 16) (s : State) : Host.Outcome State Fault Refusal := done s (encAccessUnit sm s)

/- The decoders (R320, R321). -/

/-- Entries of the command ring, and its claim. -/
def State.decCount (s : State) : Nat := bits (s.reg .decRingShape) 15 0
def State.decClaim (s : State) : ClaimId := Fin.ofNat 16 (bits (s.reg .decRingShape) 19 16)

/-- The codes of a write to the decoder's objects (R320). -/
def decCodes (o : Ob) (v : Nat) (s : State) : List Nat :=
  let n := s.decCount
  let head := s.regN .decHead
  let tail := s.regN .decTail
  let idle := codeIf (head ≠ tail) 0xA400
  match o with
  | .decTail =>
    codeIf (n ≤ v || n ≤ (tail + n - head) % max 1 n + (v + n - tail) % max 1 n) 0xA300 ++ codeIf (!s.ready rDecoder) 0xA400
  | .decRingShape =>
    let c := nbits v 15 0
    codeIf (nbits v 31 20 ≠ 0 || c < 16 || 4096 < c || 2 ^ Nat.log2 c ≠ c) 0xA300 ++ idle
  | .decRingBase | .decWorkBase | .decWorkSize => idle
  | _ => []

/-- Change the decoder. -/
def State.updDec (s : State) (f : Decoder → Decoder) : State := { s with decoder := f s.decoder }

/-- A command ends: its result is written into the record, and dec_head advances. -/
def State.decEnds (s : State) (r : DecRun) : State :=
  let status := if r.status = stDone && r.fencedPost then stFenced else r.status
  let bs := leBytes 8 (status + r.posted % 2 ^ 16 * 2 ^ 16 + r.errOffset % 2 ^ 32 * 2 ^ 32)
  let (bad, s) := s.mediaWrites (.codec s.decClaim) r.addr [(56, bs)]
  let s := match bad with
    | some a => s.logCodec 0x4100 (if r.op = 2 then 5 else 4) a
    | none => s
  let s := s.setReg .decHead (BitVec.ofNat 64 ((s.regN .decHead + 1) % max 1 s.decCount))
  s.updDec fun d => { d with run := none }

/-- The output format of a picture: NV12 or P010 for video, YUV444 or Y8 for JPEG. -/
def picFmt (op fmt : Nat) : Nat := if op = 2 then (if fmt = 0 then 0 else 4) else if fmt = 2 then 2 else 1

/-- How a failure of an access ends a command (R321, R343, R351, R479): one that is LOST is met as ACCESS is. -/
def decFail : MemFail → Nat
  | .lost => stAccess
  | f => f.status

/-- Pictures in order until one that R321 refuses, which is then named by its number. -/
def State.acceptPics (s : State) (op stride work : Nat) : Nat → List (Nat × Nat × Nat × Nat × List Byte) → List Picture × Option Nat
  | _, [] => ([], none)
  | n, (w, h, fmt, dpb, bs) :: rest =>
    let f := picFmt op fmt
    let size := levelSize f w h
    if 8192 < w || 8192 < h || (stride ≠ 0 && stride < 2048 + size) || (op ≠ 2 && work < dpb + size) then ([], some n)
    else
      let (ps, e) := s.acceptPics op stride work (n + 1) rest
      (⟨w, h, f, bs⟩ :: ps, e)

/-- DEC_COMMAND (R320, R321): the record and the bitstream are read, and the pictures to be posted are found; a command that has none
ends at once. -/
def decCommand (s : State) : State :=
  let head := s.regN .decHead
  if s.decoder.run.isSome || head = s.regN .decTail || !s.ready rDecoder then s
  else
    let c := s.decClaim
    let addr := s.regN .decRingBase + head * 64
    let fails := fun (s : State) (op status : Nat) =>
      let (w, s) := s.drawWord
      s.decEnds ⟨addr, op, 0, 0, 0, [], none, 0, status, w.toNat, false⟩
    let logs := fun (s : State) (op a : Nat) (f : MemFail) => if f = .uncorrectable then s else s.logCodec 0x4100 (if op = 2 then 5 else 4) a
    match s.readMem (.codec c) addr 64 with
    | (.error f, s) => fails (logs s 0 addr f) 0 (decFail f)
    | (.ok rec_, s) =>
      let v := leNat rec_
      let op := nbits v 97 96
      let st : Fin 16 := Fin.ofNat 16 (nbits v 107 104)
      let b : BoughId := Fin.ofNat 4 (nbits v 121 120)
      let q : HqPos := Fin.ofNat 32 (nbits v 116 112)
      if op = 3 then fails s op stData
      else
        match s.readMem (.codec c) (nbits v 47 0) (nbits v 95 64) with
        | (.error f, s) => fails (logs s op (nbits v 47 0) f) op (decFail f)
        | (.ok bs, s) =>
          let hist := if op = 2 || v.testBit 128 then 0 else s.decoder.history[st]
          let skip := op ≠ 2 && s.decoder.skipping[st]
          let (found, err) := Config.decoded op hist skip (v.testBit 129) bs
          let work := s.regN .decWorkSize st.val
          let (pics, big) := s.acceptPics op (s.hq b q).stride work 0 found
          let stop := (big.map (Config.headerOffset bs)) <|> Config.unsupported op bs <|> err
          let (area, s) := if op ≠ 2 && pics ≠ [] then s.drawBytes work else ([], s)
          let (bad, s) := if area = [] then (none, s) else s.mediaWrites (.codec c) (s.regN .decWorkBase st.val) [(0, area)]
          let s := match bad with
            | some a => s.logCodec 0x4100 4 a
            | none => s
          let status := if bad.isSome then stAccess else if stop.isSome then stData else stDone
          let pics := if bad.isSome then [] else pics
          let s := { s with free := s.free + 1 }
          let s := if op = 2 then s else s.updDec fun d =>
            { d with history := upd d.history st fun _ => if status = stDone then s.free else 0
                     skipping := upd d.skipping st fun x => if status = stDone then x && pics.isEmpty else true }
          let run : DecRun := ⟨addr, op, st.val, b, q, pics, none, 0, status, stop.getD 0, false⟩
          if pics = [] then s.decEnds run else s.updDec fun d => { d with run := some run }

def execDecCommand (s : State) : Host.Outcome State Fault Refusal := done s (decCommand s)

/-- A picture's rows, cut from its bytes. -/
def Picture.rows (p : Picture) : List (Nat × List Byte) :=
  ((levelRows p.fmt p.width p.height fun _ _ => (0, 0, 0)).foldl (fun (x : List (Nat × List Byte) × List Byte) r =>
    (x.1 ++ [(2048 + r.1, slice x.2 0 r.2.length)], x.2.drop r.2.length)) ([], p.bytes)).1

/-- DEC_PICTURE_POST (R320): the next picture is written into the buffer taken and posted. -/
def decPicturePost (s : State) : State :=
  match s.decoder.run with
  | none => s
  | some r =>
    match r.pictures, r.buffer with
    | p :: rest, some i =>
      let x := s.hq r.bough r.queue
      let st : Fin 16 := Fin.ofNat 16 r.stream
      let n := s.decoder.pictures[st]
      let head := frameHeader 0 0 (n.setWidth 32) 0 false p.width p.height 1 p.fmt
      match s.mediaWrites (.codec s.decClaim) (x.base + i * x.stride) (p.rows ++ [(0, head)]) with
      | (some a, s) =>
        ((s.freeFilling r.bough r.queue i).logCodec 0x4100 (if r.op = 2 then 5 else 4) a).decEnds { r with status := stAccess }
      | (none, s) =>
        let refused := s.boughs[r.bough].state.inReset
        let s := s.updDec fun d => { d with pictures := upd d.pictures st fun c => c + 1 }
        let s := (s.hqPut r.bough r.queue (handleWord (if r.op = 2 then 5 else 4) n.toNat i) fun x =>
          { x with filling := x.filling.filter (· ≠ i) }).wake
        let r := { r with pictures := rest, buffer := none, posted := if refused then r.posted else r.posted + 1,
                          fencedPost := r.fencedPost || refused }
        if rest = [] then s.decEnds r else s.updDec fun d => { d with run := some r }
    | _, _ => s

def execDecPicturePost (s : State) : Host.Outcome State Fault Refusal := done s (decPicturePost s)

/-- A producer asks for a buffer (R264, R265, R268): it takes the oldest FREE one into FILLING where there is one and no request has waited
longer, a producer's or a job's reservation; else it waits with the age of its request. -/
def State.takeFree (s : State) (p : Producer) (b : BoughId) (q : HqPos) : Option Nat × State :=
  let older := (s.asking b q).takeWhile fun a => a.1 ≠ p
  let age := (((s.asking b q).find? fun a => a.1 = p).map (·.2)).getD s.hub.nextOrder
  let free := if older = [] && !((s.reserving b q).any fun j => j.order < age) then (s.hq b q).free else []
  let others := fun (x : HandleQueue) => x.asks.filter fun a => a.1 ≠ p
  match free with
  | i :: rest => (some i, s.updHq b q fun x => { x with free := rest, filling := x.filling ++ [i], asks := others x })
  | [] => (none, s.updHq b q fun x => if (s.asking b q).any fun a => a.1 = p then x else { x with asks := others x ++ [(p, age)] })

/-- A decoder takes the buffer of its next picture. -/
def State.decTake (s : State) (jpeg : Bool) (b : BoughId) (q : HqPos) : State :=
  match s.decoder.run with
  | none => s
  | some r =>
    if r.pictures = [] || r.buffer.isSome || (r.op = 2) ≠ jpeg || r.bough ≠ b || r.queue ≠ q then s
    else
      match s.takeFree (if jpeg then .jpegDecoder else .videoDecoder) b q with
      | (some i, s) => s.updDec fun d => { d with run := some { r with buffer := some i } }
      | (none, s) => s

end Sys2Proof.Machine
end

