-- ==== Sys2Proof/Machine/Verifier.lean ====
section
/-! DEFINITION. The verifier: the checks of a bundle image, its sections, entries, tensor-table entries and descriptors, in the order
and under the codes of R193 and R194 (R123 to R169, R171 to R179, R190, R191, and the refusals other chapters name). -/
namespace Sys2Proof.Machine
open Sys2Proof

/-- A failing check (R181, R194). -/
structure VFail where
  code : Nat
  sect : Nat := 0
  bucket : Nat := 0
  item : Nat := 0
  deriving DecidableEq, Repr

/-- load_detail (R181). -/
def VFail.word (f : VFail) : BitVec 64 :=
  BitVec.ofNat 64 (f.code + f.sect % 2 ^ 13 * 2 ^ 16 + f.bucket % 8 * 2 ^ 29 + f.item % 2 ^ 32 * 2 ^ 32)

/-- The lowest code of a list of conditions and codes. -/
def lowest (l : List (Bool × Nat)) : Option Nat :=
  l.foldl (fun a p => if p.1 then (match a with
    | none => some p.2
    | some c => some (min c p.2)) else a) none

/-- Checks of one record: its lowest failing code. -/
def vcheck (sect bucket item : Nat) (l : List (Bool × Nat)) : Except VFail Unit :=
  match lowest l with
  | some c => .error ⟨c, sect, bucket, item⟩
  | none => .ok ()

/-- Checks one after another. -/
def vall : List (Except VFail Unit) → Except VFail Unit
  | [] => .ok ()
  | .ok _ :: l => vall l
  | .error e :: _ => .error e

/- The image (R172 to R174). -/

/-- A directory entry. -/
structure DirEntry where
  type : Nat
  bucket : Nat
  count : Nat
  offset : Nat
  rsvd : Nat
  deriving DecidableEq, Repr

/-- Bytes of a section (R174). -/
def DirEntry.size (e : DirEntry) : Nat :=
  if e.type = 0x0001 then 32 * e.count
  else if e.type = 0x0002 then 32 + 64 * e.count
  else if e.type = 0x0003 then 64 * e.count
  else if e.type = 0x0010 then 16 * e.count
  else if e.type = 0x0011 then 128 * e.count
  else if e.type = 0x0012 then 64 * e.count
  else if e.type = 0x0013 then 2 * e.count
  else e.count

def perBucket (t : Nat) : Bool := 0x0010 ≤ t && t ≤ 0x0013
def knownType (t : Nat) : Bool := (1 ≤ t && t ≤ 4) || perBucket t || 0x8000 ≤ t

/-- The header, 64 bytes as one number. -/
structure Header where
  v : Nat
  deriving DecidableEq, Repr
def Header.placeSize (h : Header) : Nat := nbits h.v 319 256
def Header.confidential (h : Header) : Bool := h.v.testBit 224
def Header.sections (h : Header) : Nat := nbits h.v 175 160
def Header.dirOffset (h : Header) : Nat := nbits h.v 159 128
def Header.size (h : Header) : Nat := nbits h.v 127 64

/-- A parsed image. -/
structure Image where
  bytes : List Byte
  head : Header
  dir : List DirEntry

def Image.entry (img : Image) (t b : Nat) : Option DirEntry := img.dir.find? fun e => e.type = t && e.bucket = b
/-- Record i of n bytes of a section, as one number. -/
def Image.record (img : Image) (e : DirEntry) (n i : Nat) : Nat := leAt img.bytes (e.offset + n * i) n
def Image.records (img : Image) (t b n : Nat) : List Nat :=
  match img.entry t b with
  | none => []
  | some e => (List.range e.count).map (img.record e n)
/-- The head of BUCKETS (R190). -/
def Image.bucketHead (img : Image) : Nat := ((img.entry 0x0002 0).map fun e => leAt img.bytes e.offset 32).getD 0
def Image.bucketCount (img : Image) : Nat := nbits img.bucketHead 7 0
def Image.varCount (img : Image) : Nat := nbits img.bucketHead 15 8
def Image.varWord (img : Image) (v : Nat) : Nat := nbits img.bucketHead (8 * v + 23) (8 * v + 16)
def Image.bound (img : Image) (i v : Nat) : Nat :=
  ((img.entry 0x0002 0).map fun e => leAt img.bytes (e.offset + 32 + 64 * i + 4 * v) 4).getD 0

def parseImage (bytes : List Byte) : Image :=
  let h : Header := ⟨leAt bytes 0 64⟩
  let dir := (List.range h.sections).map fun i =>
    let d := leAt bytes (h.dirOffset + 16 * i) 16
    (⟨nbits d 15 0, nbits d 18 16, nbits d 63 32, nbits d 127 64, nbits d 31 19⟩ : DirEntry)
  ⟨bytes, h, dir⟩

/-- Two ranges overlap. -/
def overlap (a n b m : Nat) : Bool := 0 < n && 0 < m && a < b + m && b < a + n

def up128 (n : Nat) : Nat := (n + 127) / 128 * 128

/-- Sections that are placed, in directory order, each at a multiple of 128 (log entry 18). -/
def placedTypes : List Nat := [0x0004, 0x0010, 0x0011, 0x0012]
def Image.placed (img : Image) : List (DirEntry × Nat) :=
  ((img.dir.filter fun e => placedTypes.contains e.type).foldl (fun (acc : List (DirEntry × Nat) × Nat) e =>
    (acc.1 ++ [(e, acc.2)], up128 (acc.2 + e.size))) ([], 0)).1
def Image.placeNeed (img : Image) : Nat := (img.placed).foldl (fun a p => max a (p.2 + p.1.size)) 0

/-- Item 2 of R193: header and directory; `kindBad` where NEED_CONFIDENTIAL does not fit the claim,
`misaligned` where the image does not start on a 128-byte boundary (R172). -/
def checkHeader (kindBad misaligned : Bool) (img : Image) : Except VFail Unit :=
  let v := img.head.v
  vall
    [ vcheck 0 0 0
        [ (nbits v 31 0 ≠ 0x4C444254, 0x0101), (nbits v 47 32 ≠ 4 || nbits v 63 48 ≠ 0, 0x0102),
          (misaligned || img.head.size < 64 || 2 ^ 30 < img.head.size || img.head.dirOffset % 128 ≠ 0 || img.head.sections < 1 || 64 < img.head.sections ||
            overlap 0 64 img.head.dirOffset (16 * img.head.sections) || img.head.size < img.head.dirOffset + 16 * img.head.sections, 0x0104),
          (nbits v 511 320 ≠ 0 || nbits v 255 225 ≠ 0 || nbits v 191 176 ≠ 0, 0x0106), (kindBad, 0x0405) ],
      vall ((List.range img.dir.length).map fun i =>
        match img.dir[i]? with
        | none => .ok ()
        | some e =>
          let earlier := img.dir.take i
          vcheck e.type e.bucket i
            [ (e.offset % 128 ≠ 0 || img.head.size < e.offset + e.size || overlap e.offset e.size 0 64 ||
                overlap e.offset e.size img.head.dirOffset (16 * img.head.sections) ||
                earlier.any (fun f => overlap e.offset e.size f.offset f.size) ||
                (e.type = 0x0001 && e.count ≠ 1) || (e.type = 0x0002 && e.count ≠ img.bucketCount) ||
                (e.type = 0x0013 && ((img.entry 0x0012 e.bucket).any fun f => f.count ≠ e.count)), 0x0104),
              (!knownType e.type || (e.type < 0x8000 && earlier.any fun f => f.type = e.type && f.bucket = e.bucket) ||
                (if perBucket e.type then img.bucketCount ≤ e.bucket else e.bucket ≠ 0), 0x0105),
              (e.rsvd ≠ 0, 0x0106) ]),
      vcheck 0 0 0
        [ ((img.entry 0x0001 0).isNone || (img.entry 0x0002 0).isNone ||
            (List.range img.bucketCount).any fun b => [0x0010, 0x0011, 0x0012, 0x0013].any fun t => (img.entry t b).isNone, 0x0105),
          (img.head.placeSize < img.placeNeed, 0x0104) ] ]

/- Item 3: GRADE, BUCKETS, REGIONS (R175, R178, R190, R191). -/

def checkGrade (g : Grade) (img : Image) : Except VFail Unit :=
  let v := (img.records 0x0001 0 32).headD 0
  let inside := fun m p => m &&& p = m
  vcheck 0x0001 0 0
    [ (nbits v 15 0 ≠ 9, 0x0103), (nbits v 255 64 ≠ 0 || nbits v 47 44 ≠ 0, 0x0106),
      (!inside (nbits v 39 16) (presentBranches g) || !inside (nbits v 43 40) (presentLinks g) || !inside (nbits v 63 48) (presentCameras g), 0x0201) ]

/-- ENTRIES fields (R176). -/
def enFirst (v : Nat) : Nat := nbits v 23 0
def enLast (v : Nat) : Nat := nbits v 47 24
def enWords (v : Nat) : Nat := nbits v 71 64 + 1

def checkBuckets (img : Image) : Except VFail Unit :=
  let n := img.bucketCount
  let vs := List.range img.varCount
  let bs := List.range n
  let words := vs.map img.varWord
  let least := (bs.flatMap fun b => (img.records 0x0010 b 16).map enWords).foldl min 256
  let rows := bs.map fun i => (List.range 16).map (img.bound i)
  let badSize := bs.any fun i => vs.any fun v =>
    ((img.records 0x0012 i 64).any fun e => (List.range (eNdim e)).any fun d => eExt e d = img.varWord v && eDim e d < img.bound i v) ||
    ((img.records 0x0011 i 128).any fun d => dRepeatArg d = img.varWord v && dRepeat d < img.bound i v)
  vcheck 0x0002 0 0
    [ (nbits img.bucketHead 255 144 ≠ 0 || rows.any (fun r => (r.drop img.varCount).any (· ≠ 0)), 0x0106),
      (n < 1 || 8 < n || 16 < img.varCount || words.contains 0 || (img.varCount = 0 && n ≠ 1) || words.eraseDups.length ≠ words.length ||
        words.any (fun w => least ≤ w) ||
        bs.any (fun j => (List.range j).any fun i => vs.any fun v => img.bound j v < img.bound i v) ||
        rows.eraseDups.length ≠ rows.length || badSize, 0x0601) ]

/-- A region as the loader uses it: address, size, permissions (R178); region 0 is the placed CONSTANTS. -/
structure RegionRec where
  addr : Nat
  size : Nat
  perm : Nat
  deriving DecidableEq, Repr

/- Tensor-table entries (R152 to R154, R179, R215, R231, R232). -/

/-- Bytes that an entry covers from BASE. -/
def footprint (e : Nat) : Nat :=
  let dims := List.range 4
  if isZc (eLayout e) then
    let p := zcP (eLayout e)
    (eDim e 1 + p - 1) / p * 2112 + dims.foldl (fun a d => if d = 0 then a else a + (eDim e (d + 1) - 1) * eStride e (d + 1)) 0
  else lineBytes (eFormat e) (eLayout e) (eDim e 0) + dims.foldl (fun a d => a + (eDim e (d + 1) - 1) * eStride e (d + 1)) 0

/-- An absolute range stands in a row that a tensor may use (R154). -/
def State.rangeRow (s : State) (c : ClaimId) (a n : Nat) (read write : Bool) : Bool :=
  let dram := fun a => s.rangeGrants c a n read write
  if a + n ≤ 2 ^ 37 then dram a
  else if 0x10000000000 ≤ a && a + n ≤ 0x30000000000 then
    (a - 0x10000000000) / 2 ^ 37 = (a + n - 1 - 0x10000000000) / 2 ^ 37 &&
    ((a - 0x10000000000) / 2 ^ 37 ≠ s.member || dram (a % 2 ^ 37))
  else if inPcieRow a n then (s.sec.claims[c]).pcieOut
  else if 0x4000000000 ≤ a && a < 0x4008000000 then s.sameRegion a n && (s.region a ≠ .unmapped)
  else c = 0 && s.rangeEarly a n

def checkTensor (s : State) (c : ClaimId) (b i : Nat) (reloc : Nat) (regions : List RegionRec) (need : Bool × Bool) (image e : Nat) : Except VFail Unit :=
  let n := eNdim e
  let ds := List.range 5
  let l := eLayout e
  let blocked := isBlocked l
  let region := regions[reloc]?
  vcheck 0x0012 b i
    [ (nbits e 511 488 ≠ 0 || nbits e 127 104 ≠ 0 || nbits e 63 59 ≠ 0, 0x0502),
      (0xE ≤ eFormat e || 6 ≤ l || (l = 5 && (eFormat e ≠ 0 || n ≠ 2)) || (blocked && (n < 4 || eDim e 0 ≠ blockOf l || eExt e 0 ≠ 0)) ||
        (isZc l && (eRel e || !(is8 (eFormat e)))), 0x0504),
      (n < 1 || 5 < n || ds.any (fun d => if d < n then eDim e d < 1 else eDim e d ≠ 0 || (0 < d && eStride e d ≠ 0) || eExt e d ≠ 0) ||
        eBase image % 64 ≠ 0 || ds.any (fun d => 0 < d && eStride e d % 16 ≠ 0) ||
        (isZc l && (eStride e 1 ≠ 0 || [2, 3, 4].any fun d => eStride e d % 2112 ≠ 0)) || eBufSize e < footprint e ||
        (eRel e && 0x400000 < eBase e + eBufSize e), 0x0505),
      ((eRel e && reloc ≠ 0xFFFF) || (reloc ≠ 0xFFFF && (region.all fun r => r.size < eBase image + footprint e ||
          (need.1 && r.perm % 2 = 0) || (need.2 && r.perm / 2 % 2 = 0))), 0x0403),
      (!eRel e && !s.rangeRow c (eBase e) (max 1 (eBufSize e)) need.1 need.2, 0x0401) ]

/- Descriptors. -/

/-- Tensor slots of an opcode: 0 unused, 1 required, 2 either (R156). -/
def slotNeed (d n : Nat) : Nat :=
  let op := dOpcode d
  let row : List Nat :=
    if op ≤ opEvent then [0, 0, 0, 0]
    else if op = opIndirect || op = opRotate then [1, 0, 0, 0]
    else if op = opMatmulTa || op = opMatmulTb then [1, 1, 1, 2]
    else if op = opMatmul || op = opConv then [1, 1, 1, if is16 (dFmt d 1) || is8 (dFmt d 1) then 2 else 1]
    else if op = opAttention || op = opOptStep || op = opTopk || op = opNms then (if op = opTopk then [1, 0, 1, 1] else [1, 1, 1, 1])
    else if op = opEltwise then [1, 2, 1, if dParam d 7 0 = 0x03 || dParam d 7 0 = 0x1A then 1 else 0]
    else if op = opNorm then [1, 1, 1, 2]
    else if op = opQuant || op = opDequant then [1, 0, 1, 2]
    else if op = opGather || op = opScatter then [1, 1, 1, 0]
    else if op = opSort then [1, 0, 1, 2]
    else [1, 0, 1, 0]
  row.getD n 0

def opcodeListed (o : Nat) : Bool :=
  o ≤ opIndirect || isLeafOp o || isVuOp o || isHaulOp o || isSortOp o || o = opRotate

/-- Bits of the parameter block that an opcode uses (R135). -/
def paramUse (op : Nat) : List (Nat × Nat) :=
  if isMatmul op then [(140, 0), (207, 144)]
  else if op = opConv then [(27, 0), (235, 32)]
  else if op = opAttention then [(140, 0), (151, 144)]
  else if op = opPool then [(27, 0), (79, 32), (97, 96)]
  else if op = opEltwise then [(7, 0), (95, 32)]
  else if op = opReduce then [(10, 0)]
  else if op = opSoftmax then [(10, 8), (63, 32)]
  else if op = opNorm then [(10, 0), (63, 32)]
  else if op = opQuant then [(10, 8), (73, 32)]
  else if op = opDequant then [(10, 8), (73, 32), (111, 96)]
  else if op = opOptStep then [(167, 0)]
  else if op = opS2d || op = opD2s then [(3, 0)]
  else if op = opGather then [(10, 8)]
  else if op = opScatter then [(10, 8), (16, 16)]
  else if op = opSort then [(0, 0), (31, 16), (45, 43)]
  else if op = opTopk then [(0, 0), (31, 16), (45, 32)]
  else if op = opNms then [(0, 0), (31, 16), (45, 32), (111, 48)]
  else if op = opHaul then [(4, 0)]
  else if op = opRotate then [(2, 0)]
  else if op = opEvent then [(12, 0), (63, 32)]
  else if op = opIndirect then [(23, 0), (46, 32), (103, 64), (255, 128)]
  else []

def maskOf (l : List (Nat × Nat)) : Nat := l.foldl (fun a p => a ||| ((2 ^ (p.1 + 1 - p.2) - 1) * 2 ^ p.2)) 0

/-- A field of the descriptor that its opcode does not use is nonzero (R135). -/
def unusedFields (d : Nat) : Bool :=
  let op := dOpcode d
  let p := dParam d 255 0
  let slot := fun n => dT d n ≠ 0xFFFF
  let side := if op = opConv || isMatmul op then (leafParams d).sideT ≠ 0xFFFF else op = opDequant && dParam d 111 96 ≠ 0xFFFF
  let rings := isLeafOp op || isVuOp op
  nbits (dTarget d) 15 12 ≠ 0 || (List.range 3).any (fun n => !slot n && dLstride d n ≠ 0) || nbits d 1023 896 ≠ 0 ||
    nbits d 127 61 ≠ 0 || d.testBit 58 || nbits d 383 356 ≠ 0 || nbits d 319 316 ≠ 0 || nbits d 303 300 ≠ 0 ||
  nbits d 287 282 ≠ 0 || nbits d 415 408 ≠ 0 || nbits d 639 624 ≠ 0 || nbits d 591 587 ≠ 0 ||
  p &&& maskOf (paramUse op) ≠ p ||
  (!isLeafOp op && dGang d ≠ 0) || (!hasGrid op && (nbits d 591 576 ≠ 0 || nbits d 623 592 ≠ 0 || dWorkCounter d ≠ 0)) ||
  ((isMatmul op || op = opConv) && !slot 3 && (leafParams d).gsize ≠ 0) || ((op = opQuant || op = opDequant) && !slot 3 && dParam d 73 72 ≠ 0) ||
  (List.range 4).any (fun n => !slot n && dRing d n ≠ 0) || (!side && dRing d 4 ≠ 0) || (!rings && (List.range 5).any fun n => dRing d n ≠ 0) ||
  (op = opPool && dParam d 95 80 ≠ 0) ||
  (List.range 4).any (fun n => (slotNeed d n = 0 && slot n) || (slotNeed d n = 1 && !slot n))

/-- Legal levels (R156): plain and by "any"; leaf 3, branch 2, bough 1, crown 0. -/
def levelLegal (op : Nat) (any : Bool) (level : Nat) : Bool :=
  if isDispatchOp op || op = opRotate then !any && level ≤ 1
  else if isMatmul op || op = opConv then (if any then 1 ≤ level && level ≤ 3 else level ≤ 3)
  else if op = opAttention || isVuOp op then (if any then level = 1 || level = 2 else level ≤ 2)
  else if op = opHaul then !any && (level = 1 || level = 2)
  else if isHaulOp op then level = 1 || level = 2
  else level = 1

/-- A TARGET is encoded as R132 asks, at a level its opcode allows (R25). -/
def targetOk (d : Nat) : Bool :=
  let t := dTarget d
  let l := tLevel t
  let any := tAny t
  levelLegal (dOpcode d) any l &&
  (1 ≤ l || tBough t = 0) && (2 ≤ l || tBranch t = 0) && (3 ≤ l || tLeaf t = 0) &&
  (!any || (l ≠ 0 && (if l = 1 then tBough t = 0 else if l = 2 then tBranch t = 0 else tLeaf t = 0))) &&
  (!tAnyCrown t || (any && tBough t = 0 && tBranch t = 0 && tLeaf t = 0)) && tBranch t < 6 &&
  !(l = 3 && isLeafOp (dOpcode d) && dGang d ≠ 0)

/-- Formats of the vector unit (R110): conversions alone take the small ones. -/
def vuFmt (f : Nat) : Bool := is8 f || is16 f || f = 0xC || f = 0xD

/-- Legal pairs of leaf products (R60). -/
def pairLegal (a b : Nat) : Bool :=
  let i8 := fun f => f = 5 || f = 6
  let f8 := fun f => f = 7 || f = 8
  (i8 a && i8 b) || (f8 a && f8 b) || ((i8 a || f8 a) && b ≤ 4) || (a = 3 && b = 3) || (a = 9 && b = 9) ||
  ((a = 0xA || a = 0xB) && (b = 0xA || b = 0xB))

/-- Formats and layouts of a descriptor's slots are legal (R42, R60, R65, R87, R88, R129, R153, R157, R239, R567); `ex` gives its
side-list, bias and scratch tensors (log entry 53, DEDUCED). A slot whose index lies past the tensor table is TENSOR's to refuse (R135), so
nothing is asked of its layout here; the S32 indices of argmax and argmin (R161) need an S32 output (log entry 53). -/
def formatsOk (d : Nat) (ts ex : Nat → Option Nat) : Bool :=
  let op := dOpcode d
  let fm := dFmt d
  let lay := fun n (p : Nat → Bool) => match ts n with
    | some e => p (eLayout e)
    | none => dT d n ≠ 0xFFFF || p 0
  let plain := fun n => lay n (· = 0)
  let scale := (ts 3).all fun e => eLayout e = 5
  let simple := fun n => lay n (· ≤ 4)
  let blocked := fun n => lay n isBlocked
  let p := leafParams d
  let extraOk := fun n fmt top => (ex n).all fun e => eFormat e = fmt && eLayout e ≤ top
  ((List.range 4).all fun n => match ts n with
    | some e => fm n = eFormat e
    | none => dT d n ≠ 0xFFFF || fm n = 0) &&
  (if isMatmul op || op = opConv then
    pairLegal (fm 0) (fm 1) && 2 ≤ fm 2 && (fm 2 ≠ 0xC || (intPair (fm 0) (fm 1) && p.biasT = 0xFFFF && p.act = 0)) &&
    (!(op = opMatmulTa || op = opMatmulTb) || ((is8 (fm 0) || is16 (fm 0)) && (is8 (fm 1) || is16 (fm 1)) && (ts 3).isNone)) && scale &&
    (!is16 (fm 1) || (ts 3).isNone) && extraOk 0 0xA 0 && extraOk 1 0xD 0 &&
    (if op = opConv then blocked 0 && blocked 2 && plain 1 && (ts 1).all (fun e => eNdim e = 2) else plain 0 && plain 1 && plain 2)
  else if op = opAttention then
    fm 0 = fm 1 && ((List.range 3).all fun n => fm n = 0xA || fm n = 0xB || fm n = 7) && (fm 3 = 0xA || fm 3 = 0xB || fm 3 = 6) && (List.range 4).all plain
  else if op = opPool then fm 0 = fm 2 && vuFmt (fm 0) && blocked 0 && blocked 2
  else if op = opOptStep then
    (fm 0 = 0xD || fm 0 = 0xB) && (fm 1 = 0xD || fm 1 = 0xB) && fm 2 = 0xD && fm 3 = 0xD && (List.range 4).all simple
  else if op = opEltwise then
    (dParam d 7 0 = 0x1C || (vuFmt (fm 0) && vuFmt (fm 2))) && (List.range 4).all fun n => simple n && ((ts n).isNone || n = 0 || n = 2 || vuFmt (fm n))
  else if op = opReduce then
    vuFmt (fm 0) && vuFmt (fm 2) && simple 0 && simple 2 && ((dParam d 7 0 ≠ 3 && dParam d 7 0 ≠ 4) || fm 2 = 0xC)
  else if op = opSoftmax || op = opNorm then (List.range 4).all fun n => (ts n).isNone || (vuFmt (fm n) && simple n)
  else if op = opQuant || op = opDequant then simple 0 && simple 2 && scale && (op = opQuant || extraOk 0 0xA 4)
  else if op = opS2d then fm 0 = fm 2 && simple 0 && blocked 2
  else if op = opD2s then fm 0 = fm 2 && blocked 0 && simple 2
  else if op = opGather || op = opScatter then fm 0 = fm 2 && fm 1 = 0xC && lay 0 (· ≤ 2) && lay 2 (· ≤ 2) && plain 1
  else if op = opHaul then (ts 0).all fun a => (ts 2).all fun b => (eLayout a = 5) = (eLayout b = 5)
  else if op = opSort || op = opTopk then
    (fm 0 = 0xD || (fm 0 = 0xC && [0, 2].all fun n => (ts n).all fun e => eDim e 0 = 2)) && fm 2 = fm 0 &&
    ((ts 3).isNone || fm 3 = 0xC) && (List.range 4).all plain && (ex 2).all fun e => eLayout e = 0
  else if op = opNms then (List.range 4).all plain && (ex 2).all fun e => eLayout e = 0
  else if op = opIndirect then fm 0 = 0xC && plain 0
  else if op = opRotate then plain 0
  else true)

/-- Shapes of a descriptor's tensors are legal (R116, R157, R161, R271, R566, R568). -/
def shapesOk (d : Nat) (ts : Nat → Option Nat) : Bool :=
  let op := dOpcode d
  let dim := fun n k => match ts n with
    | some e => if k < eNdim e then eDim e k else 1
    | none => 1
  let nd := fun n => ((ts n).map eNdim).getD 0
  let ax := dParam d 10 8
  let same := fun n m => nd n = nd m && (List.range 5).all fun k => dim n k = dim m k
  let bc := fun n => (ts n).isNone || (nd n = nd 0 && (List.range 5).all fun k => dim n k = dim 0 k || dim n k = 1)
  if isMatmul op then
    let ka := if op = opMatmulTa then 1 else 0
    let kb := if op = opMatmulTb then 1 else 0
    2 ≤ nd 0 && nd 0 = nd 2 && [2, 3, 4].all (fun k => dim 0 k = dim 2 k) && (nd 1 = 2 || (nd 1 = 3 && 3 ≤ nd 0 && dim 1 2 = dim 0 2)) &&
    dim 0 ka = dim 1 kb && dim 0 (1 - ka) = dim 2 1 && dim 1 (1 - kb) = dim 2 0
  else if op = opAttention then
    (List.range 4).all (fun n => nd n = 3) && [1, 2, 3].all (fun n => dim n 0 = dim 0 0 && dim n 2 = dim 0 2) && dim 0 0 % 16 = 0 && 16 ≤ dim 0 0 && dim 0 0 ≤ 256
  else if op = opEltwise then same 2 0 && bc 1 && bc 3
  else if op = opNorm then bc 1 && bc 3
  else if op = opReduce then nd 2 = nd 0 && (List.range 5).all fun k => dim 2 k = if k = ax then 1 else dim 0 k
  else if op = opHaul then same 0 2
  else if op = opQuant || op = opDequant then
    (ts 3).isNone ||
    (let g := 32 * 2 ^ dParam d 73 72
     dim 3 0 = (if nd 0 = 1 then 1 else if ax = 0 then dim 0 1 else dim 0 0) && dim 3 1 = (dim 0 ax + g - 1) / g)
  else if op = opSort || op = opTopk then
    if dFmt d 0 = 0xD then [1, 2, 3, 4].all fun k => dim 0 k = 1 else [2, 3, 4].all fun k => dim 0 k = 1
  else true

/-- The grid is legal (R150, R151, R196, R237, R275). -/
def gridOk (d : Nat) (ts : Nat → Option Nat) : Bool :=
  let op := dOpcode d
  if !hasGrid op then true
  else
    match ts (dGridSlot d) with
    | none => false
    | some e =>
      let n := eNdim e
      let y := dGridY d
      let x := dGridX d
      let o := dGridO d
      let ax := dParam d 10 8
      let reduces := op = opReduce || op = opSoftmax || op = opNorm
      let gm := groupM (dGang d)
      let gn := groupN (dGang d)
      let up := fun a b => (a + b - 1) / max 1 b
      let t1 := up (eDim e y) (dTileY d)
      let t2 := up (eDim e x) (dTileX d)
      let zcBad := (List.range 4).any fun m => slotWritten op m && (ts m).any fun q =>
        isZc (eLayout q) && (let p := zcP (eLayout q)
          !((y = 1 && (dTileY d % p = 0 || eDim q 1 ≤ dTileY d)) || (x = 1 && (dTileX d % p = 0 || eDim q 1 ≤ dTileX d)) || (y ≠ 1 && x ≠ 1 && o ≠ 1)))
      dTileX d ≠ 0 && dTileY d ≠ 0 && y ≠ x && y ≠ o && x ≠ o && y < n && x < n && (o = 7 || o < n) && !zcBad &&
      !(reduces && (y = ax || x = ax || o = ax)) && t1 ≤ 65536 && t2 ≤ 65536 && t1 * t2 * (if o = 7 then 1 else eDim e o) < 2 ^ 32 &&
      (if isMatmul op then dGridSlot d = 2 && y = 1 && dTileY d = gm && x = 0 && dTileX d = gn && (o = 7 || 2 ≤ o)
       else if op = opConv then
        dGridSlot d = 2 && x = 1 && dTileX d = gm && y = 3 && dTileY d * blockOf (eLayout e) = gn && (o = 7 || o = 2 || o = 4)
       else if op = opAttention then dGridSlot d = 3 && y = 1 && dTileY d = gm && x = 0 && dTileX d = gn && o = 2
       else true)

/-- Every slot of a leaf, vector or ATTENTION operation is branch-relative or ringed (R149). -/
def placesOk (d : Nat) (ts : Nat → Option Nat) (side : Option Nat) : Bool :=
  let op := dOpcode d
  !(isLeafOp op || isVuOp op) ||
  ((List.range 4).all (fun n => (ts n).all fun e => eRel e || dRing d n ≠ 0) && side.all fun e => eRel e || dRing d 4 ≠ 0)

/-- Parameters and signal values are legal. -/
def paramsOk (d : Nat) (ts : Nat → Option Nat) : Bool :=
  let op := dOpcode d
  let p := leafParams d
  let nd := ((ts 0).map eNdim).getD 0
  let axis := dParam d 10 8 < nd
  let w := windowOf d
  let constPad := (List.range 4).any fun i => w.padMode / 4 ^ i % 4 = 1
  let ch := ((ts 0).map fun e => eDim e 3 * blockOf (eLayout e)).getD 0
  let nOut := ((ts 1).map fun e => eDim e 1).getD 0
  !(dSignalEn d && dSignalAdd d = 0) &&
  (if isLeafOp op then dGang d ≠ 3 else true) &&
  (if isMatmul op then
    p.act ≠ 3 && !(p.accOut && (dFmt d 2 ≠ 0xD || p.biasT ≠ 0xFFFF || p.act ≠ 0))
  else if op = opConv then
    p.act < 2 && w.groups ≠ 0 && ch % max 1 w.groups = 0 && nOut % max 1 w.groups = 0 &&
    (((ts 0).any fun e => ch / max 1 w.groups % blockOf (eLayout e) = 0) || w.groups = ch) && !(constPad && is16 (dFmt d 0))
  else if op = opAttention then ((ts 0).any fun e => eDim e 1 % (dParam d 139 136 + 1) = 0)
  else if op = opPool then dParam d 97 96 ≠ 3 && !(constPad && is16 (dFmt d 0))
  else if op = opEltwise then dParam d 7 0 ≤ 0x1C
  else if op = opReduce then dParam d 7 0 ≤ 6 && axis
  else if op = opNorm then dParam d 7 0 ≤ 1 && axis
  else if op = opSoftmax || op = opQuant || op = opDequant || op = opGather || op = opScatter then axis
  else if op = opD2s then (let b := dParam d 3 0 + 1; ch % (b * b) = 0)
  else if op = opHaul then tLevel (dTarget d) = 1 || dParam d 4 0 < 16
  else if op = opRotate then 1 ≤ dParam d 2 0 && dParam d 2 0 ≤ 5 && (ts 0).any fun e => eRel e && eBufSize e % 2048 = 0
  else true)

/-- Limits of the sort unit (R115, R117, R241). -/
def sortOk (g : Grade) (d : Nat) (ts : Nat → Option Nat) (scratch : Option Nat) : Bool :=
  let op := dOpcode d
  if !isSortOp op then true
  else
    let n := ((ts 0).map fun e => if op ≠ opNms && dFmt d 0 = 0xD then eDim e 0 else if 2 ≤ eNdim e then eDim e 1 else 1).getD 0
    let k := dParam d 42 32
    let t := dTarget d
    (if op = opTopk then n ≤ 2 ^ 24 else n ≤ 16384) && (op = opSort || (1 ≤ k && k ≤ 1024)) &&
    (match scratch with
     | none => false
     | some e =>
       scratchBytes d n ≤ eBufSize e &&
       (if eRel e then dParam d 45 43 < branchesOf g
        else
          let o := eBase e - 0x4000000000
          0x4000000000 ≤ eBase e && eBase e < 0x4008000000 && !tAny t && o / 0x2000000 = tBough t &&
          o % 0x2000000 / 0x400000 < branchesOf g && dParam d 45 43 = 0)) &&
    (op ≠ opNms ||
      (dParam d 0 0 = 1 && (List.range 3).all (fun m => dFmt d m = 0xD) && dFmt d 3 = 0xC &&
       (ts 0).any (fun e => eDim e 0 = 4) && (ts 2).any (fun e => eDim e 0 = 4 && k ≤ (if 2 ≤ eNdim e then eDim e 1 else 1)) &&
       (ts 3).any (fun e => k + 1 ≤ eDim e 0)))

/-- Ranges of n windows of `size` bytes, `st` apart (R146, R154). In the DRAM row, where starts lie no further apart than a window or a
segment, the segments between are touched too, and the hull stands for them all; in any other row each window stands for itself. -/
def windows (hull : Bool) (st : Int) (n size : Nat) (base : Int) : List (Int × Nat) :=
  if n ≤ 1 || st = 0 then [(base, size)]
  else if hull && st.natAbs ≤ max size (2 ^ 21) then
    [(min base (base + (n - 1 : Nat) * st), st.natAbs * (n - 1) + size)]
  else (List.range n).map fun i : Nat => (base + i * st, size)

/-- Whether a hull stands for an entry's windows: the DRAM row, and local memory by offset. -/
def hullOk (e : Nat) : Bool := eRel e || eBase e < 2 ^ 37

/-- The ranges of slot n over a descriptor's iterations. -/
def iterRanges (d n e : Nat) (p : Int × Nat) : List (Int × Nat) :=
  if n < 3 then windows (hullOk e) (dLstride d n) (dRepeat d) p.2 p.1 else [p]

/-- The ranges of slot n of a template over every instance of an INDIRECT and every iteration (R167, R169). -/
def instRanges (ind tmpl n e : Nat) : List (Int × Nat) :=
  let mode := dParam ind (97 + 2 * n) (96 + 2 * n)
  let st := sInt 32 (dParam ind (159 + 32 * n) (128 + 32 * n))
  let lim := dParam ind 95 64
  let per := 2 ^ dParam ind 46 43
  let base : Int := eBase e
  let size := eBufSize e
  (if mode = 0 then [(base, size)]
   else if mode = 1 then windows (hullOk e) st lim size base
   else if mode = 2 then windows (hullOk e) st (dParam ind 40 32) size base
   else (List.range ((lim + per - 1) / per)).flatMap fun q =>
     windows (hullOk e) st (min per (lim - q * per)) size (base + (q * 0x800000000 : Nat))).flatMap (iterRanges tmpl n e)

/-- Ranges of a slot stay within local memory, or lie where the claim may access them (R154, R477). -/
def State.rangesOk (s : State) (c : ClaimId) (e : Nat) (l : List (Int × Nat)) (need : Bool × Bool) : Bool :=
  l.all fun p => 0 ≤ p.1 && if eRel e then p.1.toNat + p.2 ≤ 0x400000 else s.rangeRow c p.1.toNat (max 1 p.2) need.1 need.2

/-- Accesses that slot position n of R156 makes to its tensor: reads, writes. -/
def slotNeedOf (d n : Nat) : Bool × Bool :=
  let op := dOpcode d
  if n < 4 then
    let acc := n = 2 && ((op = opScatter && dParam d 16 16 = 1) || (isMatmul op && (leafParams d).accOut))
    (slotRead op n || acc, slotWritten op n)
  else (true, n = 6)

/-- Accesses that a bucket's descriptors make to tensor i. -/
def needsOf (graph : List Nat) (i : Nat) : Bool × Bool :=
  graph.foldl (fun a d => (List.range 7).foldl (fun (a : Bool × Bool) n =>
    if (slotIndices d).getD n 0xFFFF = i then (a.1 || (slotNeedOf d n).1, a.2 || (slotNeedOf d n).2) else a) a) (false, false)

/-- Claims of the counter blocks of a bough (R189). -/
def State.blockClaim (s : State) (work : Bool) (b : BoughId) (k : Nat) : Nat :=
  nbits (s.regN (if work then .wcBlockClaims else .ecBlockClaims) b.val) (4 * k + 3) (4 * k)

/-- Boughs that a target retargeted by handles may take (R165). -/
def retargets (ind : Nat) : List BoughId :=
  (List.range (min 3 ((dParam ind 95 64 - 1) / 2 ^ dParam ind 46 43) + 1)).map (Fin.ofNat 4)

/-- Boughs in which a descriptor or an instance of it may run (R22, R167). -/
def targetBoughs (graph : List Nat) (d i : Nat) : List BoughId :=
  let t := dTarget d
  if tLevel t = 0 || tAnyCrown t || (tAny t && tLevel t = 1) then [0, 1, 2, 3]
  else
    let mine : List BoughId := [Fin.ofNat 4 (tBough t)]
    if !dTemplate d then mine
    else
      let l := (graph.filter fun x => dOpcode x = opIndirect && dParam x 23 0 = i).flatMap fun x =>
        if dParam x 42 42 = 1 then retargets x else mine
      if l.isEmpty then mine else l

/-- Event counters a descriptor names. -/
def countersNamed (d : Nat) : List Nat :=
  (if dWaitEn d then [dWaitEc d] else []) ++ (if dSignalEn d then [dSignalEc d] else []) ++ (if dOpcode d = opEvent then [dParam d 11 0] else [])

/-- What the checks of a bucket look at. -/
structure VBucket where
  entries : List Nat
  graph : List Nat
  tensors : List Nat
  deriving DecidableEq, Repr

/-- Every predecessor and template of a descriptor stays in the range of each entry that holds it (R177). -/
def rangesOk (b : VBucket) (i : Nat) (refs : List Nat) : Bool :=
  b.entries.all fun e => !(enFirst e ≤ i && i ≤ enLast e) || refs.all fun p => enFirst e ≤ p && p ≤ enLast e

def checkDesc (s : State) (c : ClaimId) (b : Nat) (vb : VBucket) (i d : Nat) : Except VFail Unit :=
  let op := dOpcode d
  let t := dTarget d
  let idx := fun n => if dT d n = 0xFFFF then none else vb.tensors[dT d n]?
  let extra := (slotIndices d).drop 4
  let ex := fun n => let k := extra.getD n 0xFFFF; if k = 0xFFFF then none else vb.tensors[k]?
  let preds := ((List.range 4).map (dPred d)).filter (· ≠ 0xFFFFFF)
  let tmpl := vb.graph[dParam d 23 0]?
  let ind := op = opIndirect
  let refs := preds ++ if ind then [dParam d 23 0] else []
  let loops := fun rel => (List.range 3).all fun n => (idx n).all fun e =>
    eRel e ≠ rel || s.rangesOk c e (iterRanges d n e (eBase e, eBufSize e)) (slotNeedOf d n)
  let instOk := fun x => (List.range 4).all fun n =>
    match (if dT x n = 0xFFFF then none else vb.tensors[dT x n]?) with
    | none => true
    | some e => s.rangesOk c e (instRanges d x n e) (slotNeedOf x n)
  let mine := fun work b k => s.blockClaim work b k = c.val
  vcheck 0x0011 b i
    [ ((1 ≤ tLevel t && 2 ≤ tLevel t && !tAny t && branchesOf s.grade ≤ tBranch t && tBranch t < 6) ||
        (tLevel t = 3 && tAny t && !tAnyCrown t && branchesOf s.grade ≤ tBranch t && tBranch t < 6), 0x0202),
      (dId d ≠ i, 0x0301),
      (preds.any (fun p => vb.graph.length ≤ p || (vb.graph[p]?.any dTemplate)) || (ind && tmpl.isNone) || !rangesOk vb i refs, 0x0302),
      (!loops false, 0x0401),
      ((countersNamed d).any (fun ec => !mine false (Fin.ofNat 4 (ec / 1024)) (ec % 1024 / 64)) ||
        (hasGrid op && (targetBoughs vb.graph d i).any fun q => !mine true q (dWorkCounter d / 16)), 0x0402),
      (!opcodeListed op, 0x0501),
      (unusedFields d, 0x0502),
      (!targetOk d, 0x0503),
      (!formatsOk d idx ex, 0x0504),
      ((slotIndices d).any (fun k => k ≠ 0xFFFF && vb.tensors.length ≤ k) ||
        (isSortOp op && extra.getD 2 0xFFFF = 0xFFFF) || !shapesOk d idx || !loops true, 0x0505),
      (!gridOk d idx, 0x0506),
      (!placesOk d idx (ex 0), 0x0507),
      (!paramsOk d idx, 0x0508),
      (!sortOk s.grade d idx (ex 2), 0x0509),
      ((dTemplate d && (preds ≠ [] || dWaitEn d || ind || op = opBarrier || op = opEvent)) ||
        (ind && (!(tmpl.any dTemplate) || dRepeat d ≠ 1 || dParam d 95 64 = 0 || dParam d 40 32 = 0 || 256 < dParam d 40 32 ||
          (tmpl.any fun x => !instOk x ||
            (dParam d 42 42 = 1 && (retargets d).length > 1 && (tLevel (dTarget x) = 0 || tAnyCrown (dTarget x) || (tAny (dTarget x) && tLevel (dTarget x) = 1)))))), 0x050A) ]

/-- Edges of the graph: predecessors, and BARRIER's implied edges within an entry (R142, R164). -/
def edgesOf (vb : VBucket) (i : Nat) : List Nat :=
  let d := vb.graph.getD i 0
  ((List.range 4).map (dPred d)).filter (· ≠ 0xFFFFFF) ++
  (if dOpcode d = opBarrier then (List.range i).filter fun j => !dTemplate (vb.graph.getD j 0) &&
    vb.entries.any fun e => enFirst e ≤ j && i ≤ enLast e && enFirst e ≤ i else [])

/-- Descriptors that come off in topological order; what stays lies on a cycle or behind one. -/
def peel (vb : VBucket) : Nat → List Nat → List Nat
  | 0, l => l
  | n + 1, l => peel vb n (l.filter fun i => (edgesOf vb i).any fun j => l.contains j)

/-- A cycle of the graph (R142, R193). DESIGN CHOICE (log entry 57): the spec does not say which descriptor of a cycle ITEM names; the
model reports the lowest one that no order reaches, which lies on a cycle or behind one. -/
def checkCycle (b : Nat) (vb : VBucket) : Except VFail Unit :=
  match peel vb vb.graph.length (List.range vb.graph.length) with
  | [] => .ok ()
  | i :: _ => .error ⟨0x0303, 0x0011, b, i⟩

/-- Argument words that an entry's descriptors and tensors name (R177). -/
def wordsNamed (vb : VBucket) (e : Nat) : List Nat :=
  ((vb.graph.drop (enFirst e)).take (enLast e + 1 - enFirst e)).flatMap fun d =>
    [dRepeatArg d, argField d] ++ ((slotIndices d).filter (· ≠ 0xFFFF)).flatMap fun k =>
      match vb.tensors[k]? with
      | some x => (List.range (eNdim x)).map (eExt x)
      | none => []

def checkEntry (b : Nat) (vars : List Nat) (count : Nat) (vb : VBucket) (i e : Nat) : Except VFail Unit :=
  vcheck 0x0010 b i
    [ (nbits e 127 72 ≠ 0 || nbits e 63 48 ≠ 0, 0x0106),
      (enLast e < enFirst e || vb.graph.length ≤ enLast e || vb.entries.length < 1 || 256 < vb.entries.length || vb.entries.length ≠ count ||
        (wordsNamed vb e ++ vars).any fun w => enWords e ≤ w, 0x0304) ]

end Sys2Proof.Machine
end

