-- ==== Sys2Proof/Machine/Loader.lean ====
section
/-! DEFINITION. Loading and unloading bundles, and the binding of counter blocks (R180 to R189). -/
namespace Sys2Proof.Machine
open Sys2Proof

/-- Fields of a load record, its 64 bytes as one number (R180). -/
def lrClaim (v : Nat) : ClaimId := Fin.ofNat 16 (nbits v 187 184)
def lrRegionCount (v : Nat) : Nat := nbits v 183 176
def lrRegionTable (v : Nat) : Nat := nbits v 175 128
def lrPlace (v : Nat) : Nat := nbits v 111 64
def lrImage (v : Nat) : Nat := nbits v 47 0
def lrReserved (v : Nat) : Bool := nbits v 511 188 ≠ 0 || nbits v 127 112 ≠ 0 || nbits v 63 48 ≠ 0

/-- LOAD_REQUEST's codes (R184). -/
def loadRequestCodes (s : State) : List Nat :=
  codeIf (s.hub.loadState = 1) 0xA500 ++ codeIf (!s.ready rWorkHub) 0xA400

/-- Bytes of the placement area: whole segments (R180). -/
def placeSpan (n : Nat) : Nat := (n + 2 ^ 21 - 1) / 2 ^ 21 * 2 ^ 21

/-- The region table of a load record (R180): one U64 address for each region. -/
def addrsOf (bs : List Byte) (n : Nat) : List Nat := (List.range n).map fun i => leAt bs (8 * i) 8

/-- LOAD_REQUEST (R182 steps 1 and 2): the record, the region table and the header are read and checked; the placement area is locked.
A record the loader refuses here is reported when the load ends. DESIGN CHOICE (log entry 57): R180 puts the record, the region table
and the image in segments of the claim and names a permission for the placement area only; the model asks read permission of the
others, since the loader reads them as the claim. -/
def loadRequestFx (v : Nat) (s : State) : State :=
  let busy := fun (l : LoadRun) (s : State) =>
    s.updHub fun h => { h with load := some l, loadState := 1, loadHandle := 0xFF }
  let none0 : LoadRun := { record := v, claim := 0, image := 0, size := 0, placeSize := 0, place := 0, regionTable := 0, regionCount := 0, locks := [], code := 0 }
  if v % 64 ≠ 0 || 2 ^ 37 < v + 64 then busy { none0 with code := 0x0701 } s
  else
    let lr := leNat (s.mem.readBytes v 64)
    let c := lrClaim lr
    let head : Header := ⟨leNat (s.mem.readBytes (lrImage lr) 64)⟩
    let size := head.size
    let span := placeSpan head.placeSize
    let l : LoadRun :=
      { none0 with claim := c, image := lrImage lr, size := size, placeSize := head.placeSize, place := lrPlace lr,
                   regionTable := lrRegionTable lr, regionCount := lrRegionCount lr }
    let bad :=
      lowest
        [ (!s.rangeGrants c v 64 true false || !s.rangeGrants c l.regionTable (8 * l.regionCount) true false ||
            !s.rangeGrants c l.image (max 64 size) true false || l.place % 2 ^ 21 ≠ 0 ||
            !s.rangeGrants c l.place span false true, 0x0701),
          (lrReserved lr, 0x0106),
          (!(s.claimState c).isOpen || s.claimState c = .sealed, 0x0405) ]
    match bad with
    | some code => busy { l with code := code } s
    | none =>
      match s.readMem (.loader c) v 64 with
      | (.error _, s) => busy { l with code := 0x0703 } s
      | (.ok _, s) =>
        match s.readMem (.loader c) l.regionTable (8 * l.regionCount) with
        | (.error _, s) => busy { l with code := 0x0703 } s
        | (.ok tb, s) =>
          let l := { l with addrs := addrsOf tb l.regionCount }
          if l.addrs.any fun a => a % 64 ≠ 0 then busy { l with code := 0x0701 } s
          else
            match s.readMem (.loader c) l.image 64 with
            | (.error _, s) => busy { l with code := 0x0703 } s
            | (.ok _, s) =>
              if 64 ≤ s.hub.bundles.length then busy { l with code := 0x0702 } s
              else
                let segs := segsOf l.place span
                busy { l with locks := segs } (s.lockSegs segs)

/-- A read of the loader (R188): every failure is LOAD_INTERRUPTED. -/
def State.loaderRead (s : State) (l : LoadRun) (a n : Nat) : Except VFail (List Byte) × State :=
  if l.hit then (.error ⟨0x0703, 0, 0, 0⟩, s)
  else
    match s.readMem (.loader l.claim) a n with
    | (.ok bs, s) => (.ok bs, s)
    | (.error _, s) => (.error ⟨0x0703, 0, 0, 0⟩, s)

/-- A write of the loader under its own lock (R124, R182 step 3): fenced memory refuses it. DESIGN CHOICE (log entry 57): R182 does not
say what a placement area does that overlaps segments another loaded bundle holds locked; the loader takes its own lock on them and
writes them. -/
def State.loaderWrite (s : State) : List (Nat × Nat) → List Byte → Except VFail Unit × State
  | [], _ => (.ok (), s)
  | (a, n) :: rest, bs =>
    if s.dramServed a then (s.mergeBurst a (bs.take n)).loaderWrite rest (bs.drop n)
    else (.error ⟨0x0703, 0, 0, 0⟩, s)

/-- Record i of REGIONS (R178). -/
structure RegionWant where
  size : Nat
  perm : Nat
  digested : Bool
  reserved : Bool
  digest : List Byte
  deriving DecidableEq, Repr

def Image.regions (img : Image) : List RegionWant :=
  match img.entry 0x0003 0 with
  | none => []
  | some e => (List.range e.count).map fun i =>
    let b := slice img.bytes (e.offset + 64 * i) 64
    let v := leNat b
    ⟨nbits v 47 0, nbits v 49 48, v.testBit 50, nbits v 127 51 ≠ 0, b.drop 16⟩

/-- The fields of the regions and what their segments grant (R178). -/
def checkRegions (s : State) (l : LoadRun) (ws : List RegionWant) (addrs : List Nat) : Except VFail Unit :=
  vall ((List.range ws.length).map fun i =>
    match ws[i]? with
    | none => .ok ()
    | some w =>
      let a := addrs.getD i 0
      vcheck 0x0003 0 i
        [ (w.reserved, 0x0106),
          (w.size < 1 || !s.rangeGrants l.claim a w.size (w.perm % 2 = 1) (w.perm / 2 % 2 = 1), 0x0403) ])

/-- Step 5 of R182: every digested region is locked and hashed; the locks taken so far come back with a refusal. -/
def State.checkDigests (s : State) (l : LoadRun) : Nat → List (RegionWant × Nat) → List Nat → Except VFail Unit × List Nat × State
  | _, [], locks => (.ok (), locks, s)
  | i, (w, a) :: rest, locks =>
    if !w.digested then s.checkDigests l (i + 1) rest locks
    else
      let segs := segsOf a w.size
      let s := s.lockSegs segs
      let locks := locks ++ segs
      match s.loaderRead l a w.size with
      | (.error f, s) => (.error f, locks, s)
      | (.ok bs, s) =>
        if sha384 bs ≠ w.digest then (.error ⟨0x0404, 0x0003, 0, i⟩, locks, s)
        else s.checkDigests l (i + 1) rest locks

/-- Relocation of an entry (R179): its BASE plus the address of its region. -/
def relocate (regions : List RegionRec) (r e : Nat) : Nat :=
  if r = 0xFFFF then e
  else
    match regions[r]? with
    | none => e
    | some g => e - eBase e + (eBase e + g.addr) % 2 ^ 48

/-- A bucket of the placed copy. -/
def Image.vbucket (img : Image) (regions : List RegionRec) (b : Nat) : VBucket :=
  let rel := img.records 0x0013 b 2
  let ts := img.records 0x0012 b 64
  ⟨img.records 0x0010 b 16, img.records 0x0011 b 128,
    (List.range ts.length).map fun i => relocate regions (rel.getD i 0xFFFF) (ts.getD i 0)⟩

/-- What a placed section holds: CONSTANTS, ENTRIES and GRAPH as in the image, TENSORS relocated. -/
def Image.placedBytes (img : Image) (regions : List RegionRec) (e : DirEntry) : List Byte :=
  if e.type = 0x0012 then (img.vbucket regions e.bucket).tensors.flatMap (leBytes 64)
  else slice img.bytes e.offset e.size

/-- Steps 3 and 4 of R182: the sections go to their places, inside the placement area that the request locked. -/
def State.placeAll (s : State) (l : LoadRun) (img : Image) (regions : List RegionRec) : List (DirEntry × Nat) → Except VFail Unit × State
  | [] => (.ok (), s)
  | (e, o) :: rest =>
    let bs := (img.placedBytes regions e).take (placeSpan l.placeSize - o)
    match s.loaderWrite (pieces (l.place + o) bs.length) bs with
    | (.error f, s) => (.error f, s)
    | (.ok (), s) => s.placeAll l img regions rest

/-- Item 4 of R193 for one bucket. -/
def checkBucket (s : State) (c : ClaimId) (img : Image) (regions : List RegionRec) (b : Nat) : Except VFail Unit :=
  let vb := img.vbucket regions b
  let raw := img.records 0x0012 b 64
  let rel := img.records 0x0013 b 2
  let count := (img.records 0x0010 0 16).length
  let vars := (List.range img.varCount).map img.varWord
  vall
    [ if vb.entries.isEmpty then .error ⟨0x0304, 0x0010, b, 0⟩ else .ok (),
      vall ((List.range vb.entries.length).map fun i => checkEntry b vars count vb i (vb.entries.getD i 0)),
      vall ((List.range raw.length).map fun i =>
        checkTensor s c b i (rel.getD i 0xFFFF) regions (needsOf vb.graph i) (raw.getD i 0) (vb.tensors.getD i 0)),
      vall ((List.range vb.graph.length).map fun i => checkDesc s c b vb i (vb.graph.getD i 0)),
      checkCycle b vb ]

/-- Boughs whose DRAM a range touches; the slot of this part's own member counts as its DRAM (R33, R399). -/
def State.boughsOf (s : State) (p : Int × Nat) : BitVec 4 :=
  let a := p.1.toNat
  let a := if 0x10000000000 ≤ a && a < 0x30000000000 && (a - 0x10000000000) / 2 ^ 37 = s.member then a % 2 ^ 37 else a
  if 2 ^ 37 ≤ a then 0
  else (List.range 4).foldl (fun m b => if b * 2 ^ 35 < a + max 1 p.2 && a < (b + 1) * 2 ^ 35 then setBit m b true else m) 0

/-- Boughs that the slots read by descriptor d touch (R399). -/
def State.descReads (s : State) (vb : VBucket) (i d : Nat) : BitVec 4 :=
  let inds := vb.graph.filter fun x => dOpcode x = opIndirect && dParam x 23 0 = i
  (List.range 7).foldl (fun m n =>
    let k := (slotIndices d).getD n 0xFFFF
    match (if k = 0xFFFF || !(slotNeedOf d n).1 then none else vb.tensors[k]?) with
    | none => m
    | some e =>
      if eRel e then m
      else
        let rs := if n < 4 && dTemplate d then inds.flatMap fun x => instRanges x d n e
          else if n < 4 then iterRanges d n e (eBase e, eBufSize e) else [((eBase e : Int), eBufSize e)]
        rs.foldl (fun m r => m ||| s.boughsOf r) m) 0

/-- What the loader records of entry i: over every bucket, since an entry means the same work in each (R176, R399). -/
def State.entryRec (s : State) (vbs : List VBucket) (e i : Nat) : EntryRec :=
  let inE := fun (vb : VBucket) =>
    let x := vb.entries.getD i 0
    ((List.range vb.graph.length).filter fun k => enFirst x ≤ k && k ≤ enLast x).map fun k => (vb, k, vb.graph.getD k 0)
  let all := vbs.flatMap inE
  ⟨enFirst e, enLast e, enWords e, all.foldl (fun m p => m ||| s.descReads p.1 p.2.1 p.2.2) 0, all.any fun p => dOpcode p.2.2 = opOptStep⟩

/-- Regions as descriptors reach them (R178, R179): region 0 is the placed CONSTANTS. DESIGN CHOICE (log entry 57): R178 gives region 0
no PERM; its segments stay write-locked, and the model lets a relocated entry read it only. -/
def LoadRun.regions (l : LoadRun) (img : Image) : List RegionRec :=
  let ws := img.regions
  let consts := img.placed.find? fun p => p.1.type = 0x0004
  ⟨l.place + ((consts.map (·.2)).getD 0), (consts.map (·.1.size)).getD 0, 1⟩ ::
    (List.range ws.length).map fun i => ⟨l.addrs.getD i 0, (ws[i]?.map (·.size)).getD 0, (ws[i]?.map (·.perm)).getD 0⟩

/-- Items 2 and 3 of R193 on what the image and its record say. DESIGN CHOICE (log entry 57): a REGION_COUNT that differs from the
bundle's regions is reported with the REGIONS section and item 0. A header whose sizes changed after the request keeps to the area
that the request locked. -/
def State.checkImage (s : State) (l : LoadRun) (img : Image) : Except VFail Unit :=
  let kindBad := img.head.confidential && !(s.claimState l.claim).confidential
  let n := img.regions.length
  vall
    [ checkHeader kindBad (l.image % 128 ≠ 0) img,
      vcheck 0 0 0 [(l.placeSize < img.placeNeed, 0x0104)],
      checkGrade s.grade img, checkBuckets img,
      vcheck 0x0003 0 0 [(n ≠ l.regionCount || 255 < n, 0x0403)],
      checkRegions s l img.regions l.addrs ]

/-- What the hub keeps of a loaded bundle (R182 step 7, R186, R189, R399). -/
def State.bundleOf (s : State) (l : LoadRun) (img : Image) (regions : List RegionRec) (locks : List Nat) : Bundle :=
  let bs := List.range img.bucketCount
  let vbs := bs.map (img.vbucket regions)
  let handle := ((List.range 64).find? fun h => s.hub.bundles.all fun b => b.handle.val ≠ h).getD 0
  let pins := vbs.flatMap fun vb => (List.range vb.graph.length).map fun i => (vb, i, vb.graph.getD i 0)
  let ec := pins.flatMap fun p => (countersNamed p.2.2).map fun e => ((Fin.ofNat 4 (e / 1024) : BoughId), e % 1024 / 64)
  let wc := pins.flatMap fun p => if hasGrid (dOpcode p.2.2) then
    (targetBoughs p.1.graph p.2.2 p.2.1).map fun q => (q, dWorkCounter p.2.2 / 16) else []
  { handle := Fin.ofNat 64 handle, claim := l.claim, segs := l.locks ++ locks, digest := sha384 (img.bytes.take l.size), time := s.now,
    varWords := (List.range img.varCount).map img.varWord,
    bounds := bs.map fun b => (List.range img.varCount).map (img.bound b),
    buckets := vbs.map fun vb =>
      ⟨(List.range vb.entries.length).map fun i => s.entryRec vbs (vb.entries.getD i 0) i, vb.graph, vb.tensors⟩,
    ecBlocks := ec.eraseDups, wcBlocks := wc.eraseDups }

/-- The load past step 2 (R182 steps 3 to 6), with the locks taken beyond the placement area: the copy and the relocation come first,
so a load that the checks refuse has written its placement area. DESIGN CHOICE (log entry 57): a load that is interrupted reports
section 0 and item 0. -/
def State.runLoad (s : State) (l : LoadRun) : Except VFail Bundle × List Nat × State :=
  if l.code ≠ 0 then (.error ⟨l.code, 0, 0, 0⟩, [], s)
  else
    match s.loaderRead l l.image (max 64 l.size) with
    | (.error f, s) => (.error f, [], s)
    | (.ok bytes, s) =>
      let img := parseImage bytes
      let regions := l.regions img
      match s.placeAll l img regions img.placed with
      | (.error f, s) => (.error f, [], s)
      | (.ok (), s) =>
        match s.checkImage l img with
        | .error f => (.error f, [], s)
        | .ok () =>
          match s.checkDigests l 0 (img.regions.zip l.addrs) [] with
          | (.error f, locks, s) => (.error f, locks, s)
          | (.ok (), locks, s) =>
            if l.locks.any fun n => (s.seg n).lost then (.error ⟨0x0703, 0, 0, 0⟩, locks, s)
            else
              match vall ((List.range img.bucketCount).map fun b => checkBucket s l.claim img regions b) with
              | .error f => (.error f, locks, s)
              | .ok () => (.ok (s.bundleOf l img regions locks), locks, s)

/-- A report made of a claim no longer describes its bundles (R490). -/
def State.reportStale (s : State) (c : ClaimId) : State :=
  { s with sec := { s.sec with claims := upd s.sec.claims c fun x => { x with stale := true } } }

/-- LOAD_COMPLETE (R182 step 7): the bundle gets the lowest free handle, or every lock is released and the code is reported. -/
def loadComplete (s : State) : State :=
  match s.hub.load with
  | none => s
  | some l =>
    match s.runLoad l with
    | (.error f, locks, s) =>
      (s.unlockSegs (l.locks ++ locks)).updHub fun h => { h with load := none, loadState := 3, loadHandle := 0xFF, loadDetail := f.word }
    | (.ok b, _, s) =>
      (s.updHub fun h =>
        { h with load := none, loadState := 2, loadHandle := b.handle.val, loadDetail := 0, bundles := h.bundles ++ [b] }).reportStale l.claim

def execLoadComplete (s : State) : Host.Outcome State Fault Refusal := done s (loadComplete s)

/-- UNLOAD's codes (R187). -/
def unloadCodes (s : State) (v : Nat) : List Nat :=
  if 64 ≤ v then [0xA300]
  else
    match s.bundle? (Fin.ofNat 64 v) with
    | none => [0xA300]
    | some b => codeIf (s.hub.jobs.any fun j => j.handle = b.handle) 0xA400

/-- UNLOAD (R187): the handle and its locks are released. -/
def unloadFx (s : State) (v : Nat) : State :=
  match s.bundle? (Fin.ofNat 64 v) with
  | none => s
  | some b => ((s.unlockSegs b.segs).updHub fun h => { h with bundles := h.bundles.filter fun x => x.handle ≠ b.handle }).reportStale b.claim

/-- Blocks whose field a write of a binding object changes. -/
def State.movedBlocks (s : State) (work : Bool) (b : BoughId) (v : Word) : List Nat :=
  (List.range 16).filter fun k => s.blockClaim work b k ≠ bits v (4 * k + 3) (4 * k)

/-- COUNTER_BLOCK_BIND's codes (R189). -/
def counterBlockCodes (s : State) (b : BoughId) (work : Bool) (v : Word) : List Nat :=
  let moved := s.movedBlocks work b v
  let pinned := fun k => s.hub.bundles.any fun x => (if work then x.wcBlocks else x.ecBlocks).contains (b, k)
  let conf := fun (c : Nat) => (s.claimState (Fin.ofNat 16 c)).confidential
  codeIf (moved.any pinned) 0xA400 ++
  codeIf (moved.any fun k => conf (s.blockClaim work b k) || conf (bits v (4 * k + 3) (4 * k))) 0xA202

/-- COUNTER_BLOCK_BIND (R189). -/
def counterBlockFx (s : State) (b : BoughId) (work : Bool) (v : Word) : State :=
  s.setReg (if work then .wcBlockClaims else .ecBlockClaims) v b.val

end Sys2Proof.Machine
end

