-- ==== Sys2Proof/Machine/Security.lean ====
section
/-! DEFINITION. Claims, keys and attestation (R475 to R497): claim commands, segment commands, sessions and reports, sealed
streams, owner keys and the DRBG. -/
namespace Sys2Proof.Machine
open Sys2Proof

/-- Change a claim. -/
def State.updClaim (s : State) (c : ClaimId) (f : Claim → Claim) : State :=
  { s with sec := { s.sec with claims := upd s.sec.claims c f } }

/-- Change the security block. -/
def State.updSec (s : State) (f : Security → Security) : State := { s with sec := f s.sec }

def State.claim (s : State) (c : ClaimId) : Claim := s.sec.claims[c]

/-- One request to the DRBG, n bytes (R487). -/
def State.drbgTake (s : State) (n : Nat) : List Byte × State :=
  (slice (Config.drbg s.sec.draws n) 0 n, s.updSec fun x => { x with draws := x.draws + 1, drbgRequests := x.drbgRequests + 1 })

/-- The DRBG is reseeded. -/
def State.reseed (s : State) : State := s.updSec fun x => { x with drbgRequests := 0, reseeds := x.reseeds + 1 }

/-- JTAG_OPEN (R496): debug closes before claim_state leaves CLOSED. -/
def State.jtagOpen (s : State) : Bool :=
  !s.nv.debugLocked && !s.confidentialOpen && s.sec.claims.toList.all fun c => c.wait ≠ .makeKeys

/- Segment commands (R481). -/

/-- Segments of a run. -/
def runSegs (first count : Nat) : List Nat := (List.range (count + 1)).map (first + ·)

/-- Seams of a segment are READY or REF_WINDOW. -/
def State.segServed (s : State) (n : Nat) : Bool :=
  (seamsOf (Fin.ofNat 4 (n / 16384))).all fun q => s.seams[q].state.inService

/-- The codes of a segment command. -/
def segCodes (op : SegOp) (first count : Nat) (s : State) : List Nat :=
  let segs := runSegs first count
  let busy := codeIf s.sec.segRun.isSome 0xA500
  if 65535 < first + count then 0xA300 :: busy
  else
    codeIf (segs.any (segAbsent s.grade)) 0xA300 ++ busy ++
    match op with
    | .assign c _ =>
      codeIf (!(s.claimState c).isOpen || segs.any fun n => 0 < (s.seg n).locks || (s.seg n).busy) 0xA400 ++
      codeIf (segs.any fun n => (s.claimState (s.seg n).claim).confidential) 0xA202
    | .clear => codeIf (segs.any fun n => !s.segServed n) 0xA400
    | .revive => codeIf (segs.any fun n => !(s.seg n).scrubbed) 0xA400

/-- A refused segment command reads REFUSED, unless a command is in progress (R481). -/
def segRefused (code : Nat) (s : State) : State :=
  if code = 0xA500 then s else s.updSec fun x => { x with segStatus := .refused }

/-- A segment command starts. -/
def segFx (op : SegOp) (first count : Nat) (s : State) : State :=
  s.updSec fun x => { x with segRun := some ⟨op, first, first + count⟩, segStatus := .busy }

/-- Cached lines of a segment. -/
def inSegment (n : Nat) (l : Line) : Bool := l.addr / 2 ^ 21 = n

/-- A segment is assigned: host copies of its lines are written back and invalidated where it leaves the host's reach. -/
def State.assignSeg (s : State) (n : Nat) (c : ClaimId) (perm : BitVec 3) : State :=
  let leaves := !s.reaches .host c
  let drop := fun (q : Slice) => { q with lines := q.lines.map fun p =>
    (p.1, p.2.map fun l => if inSegment n l then { l with host := false } else l) }
  let s := if leaves then (slicesOf (Fin.ofNat 4 (n / 16384))).foldl (fun s k => s.updSlice k drop) s else s
  s.updSeg n fun e => { e with claim := c, perm := perm }

/-- A segment is cleared: zero with valid check bits, its cached lines gone; LOST clears and SCRUBBED sets. -/
def State.clearSeg (s : State) (n : Nat) : State :=
  let drop := fun (q : Slice) => { q with lines := q.lines.filter fun p => !(p.2.any (inSegment n)) }
  let s := (slicesOf (Fin.ofNat 4 (n / 16384))).foldl (fun s k => s.updSlice k drop) s
  (s.zeroSegment n).updSeg n fun e => { e with lost := false, scrubbed := true }

/-- One segment changes, whole in one handshake. -/
def State.segStep (s : State) (op : SegOp) (n : Nat) : State :=
  match op with
  | .assign c perm => s.assignSeg n c perm
  | .clear => s.clearSeg n
  | .revive => s.updSeg n fun e => { e with lost := false }

/-- SEGMENT_CHANGE (R481): the next segment of the command in progress changes; a CLEAR waits for seams out of service. -/
def segmentChange (s : State) : State :=
  match s.sec.segRun with
  | none => s
  | some r =>
    if r.op = .clear && !s.segServed r.next then s
    else
      let s := s.segStep r.op r.next
      if r.last ≤ r.next then s.updSec fun x => { x with segRun := none, segStatus := .done }
      else s.updSec fun x => { x with segRun := some { r with next := r.next + 1 } }

def execSegmentChange (s : State) : Host.Outcome State Fault Refusal := done s (segmentChange s)

/-- An ASSIGN into a claim that goes before the claim's RELEASE is applied (R486). -/
def State.finishAssign (s : State) (c : ClaimId) : State :=
  match s.sec.segRun with
  | some ⟨.assign d perm, next, last⟩ =>
    if c = d then
      ((runSegs next (last - next)).foldl (fun s n => s.assignSeg n d perm) s).updSec fun x => { x with segRun := none, segStatus := .done }
    else s
  | _ => s

/- Claim commands (R475, R485, R490). -/

/-- What a claim holds that keeps it from being released (R485). -/
def State.claimHolds (s : State) (c : ClaimId) : Bool :=
  let cams := s.cameras.toList.length
  let bs : List BoughId := [0, 1, 2, 3]
  s.hub.bundles.any (fun b => b.claim = c) ||
  ((List.range 64).any fun i => (s.wq (Fin.ofNat 64 i)).enabled && s.wqClaim (Fin.ofNat 64 i) = c) ||
  (bs.any fun b => (List.range 32).any fun i => (s.hq b (Fin.ofNat 32 i)).bound && (s.hq b (Fin.ofNat 32 i)).claim = c) ||
  (bs.any fun b => (List.range 16).any fun k => s.blockClaim false b k = c.val || s.blockClaim true b k = c.val) ||
  ((List.range cams).any fun i => (s.reg .encConfig i).getLsbD 0 && bits (s.reg .encConfig i) 27 24 = c.val) ||
  (s.sample.state ≠ .stopped && bits (s.reg .spTarget) 12 9 = c.val) ||
  (s.decoder.run.isSome && bits (s.reg .decRingShape) 19 16 = c.val) ||
  (s.sec.crypt.any fun r => r.claim = c)

/-- OPEN's codes. -/
def claimOpenCodes (s : State) (c : ClaimId) : List Nat :=
  codeIf (c = 0 || s.claimState c ≠ .closed || (s.claim c).wait ≠ .none) 0xA400

/-- CLAIM_OPEN (R475). -/
def claimOpenFx (s : State) (c : ClaimId) : State := s.updClaim c fun x => { x with state := .opened }

/-- OPEN_CONFIDENTIAL's codes (R464, R487, R490). -/
def openConfidentialCodes (s : State) (c : ClaimId) : List Nat :=
  claimOpenCodes s c ++ codeIf (!s.ready rCrypto) 0xA400 ++ codeIf (!s.foremanRuns 0) 0xA500

/-- OPEN_CONFIDENTIAL (R490 step 1): debug closes and the DRBG is reseeded; the keys are made and the claim enters SESSION at
CLAIM_IN_SESSION. -/
def openConfidentialFx (s : State) (c : ClaimId) : State :=
  s.reseed.updClaim c fun x =>
    { x with wait := .makeKeys, sessState := .idle, sessCode := 0, report := [], reportE := 0, stale := true, exports := 0 }

/-- CLAIM_IN_SESSION (R490). -/
def claimInSession (c : ClaimId) (s : State) : State :=
  if (s.claim c).wait ≠ .makeKeys then s
  else
    let (k, s) := s.drbgTake 48
    s.updClaim c fun x =>
      { x with state := .session, wait := .none, sessionSecret := some k, sessionPublic := slice (Config.ecdhPublic k) 0 97 }

def execClaimInSession (c : ClaimId) (s : State) : Host.Outcome State Fault Refusal := done s (claimInSession c s)

/-- RELEASE's codes (R485). -/
def releaseCodes (s : State) (c : ClaimId) : List Nat :=
  codeIf (c = 0 || !(s.claimState c).isOpen || s.claimHolds c) 0xA400

/-- Steps 3 and 4 of R485. -/
def State.closeClaim (s : State) (c : ClaimId) : State :=
  let mine := (s.sec.segs.filter fun p => p.2.claim = c).map (·.1)
  (mine.foldl (fun s n => s.assignSeg n 0 7) s).updClaim c fun x => { x with state := .closed }

/-- RELEASE (R485); bit c of peer_claims clears for every member (R531), also in a write that waits for its pairing. -/
def releaseFx (s : State) (c : ClaimId) : State :=
  let s := s.finishAssign c
  let unpair := fun (w : PairWait) => { w with value := setBit w.value c.val false }
  let s := { s with grove := { s.grove with pairs := s.grove.pairs.map unpair } }
  let s := (List.range 16).foldl (fun s m => s.setReg .peerClaims (setBit (s.reg .peerClaims m) c.val false) m) s
  if (s.claimState c).confidential then
    s.updClaim c fun x =>
      { x with state := .releasing, wait := .none, sessState := .idle, sessCode := 0, sessionSecret := none, modelKey := none, exportKey := none }
  else s.closeClaim c

/-- Counters of the seams and the trunk that follow R122 (R353, R373). -/
def State.clearSeamStats (s : State) : State :=
  let s := (List.range 16).foldl (fun s i =>
    [Ob.seamMaxDebt, .seamForcedSweeps, .seamInOrderEvents, .seamPanicRequests, .seamRmw].foldl (fun s o => s.setReg o 0 i) s) s
  s.setReg .forcedWins 0

/-- CLAIM_RELEASE_DONE (R485): every segment of the claim is cleared, but for those of a group in DROP, which are lost already;
segments whose seams are out of service for any other reason are waited for. With the last confidential claim every counter of
R122 reads zero. -/
def claimReleaseDone (c : ClaimId) (s : State) : State :=
  if s.claimState c ≠ .releasing then s
  else
    let mine := (s.sec.segs.filter fun p => p.2.claim = c).map (·.1)
    let dropped := fun n => (s.groups[(Fin.ofNat 4 (n / 16384) : BoughId)]).mode = .drop && (s.groups[(Fin.ofNat 4 (n / 16384) : BoughId)]).changing.isNone
    let todo := mine.filter fun n => !dropped n
    if todo.any fun n => !s.segServed n then s
    else
      let s := (todo.foldl State.clearSeg s).closeClaim c
      if s.confidentialOpen then s else s.clearStats.clearSeamStats

def execClaimReleaseDone (c : ClaimId) (s : State) : Host.Outcome State Fault Refusal := done s (claimReleaseDone c s)

/-- claim_flags (R477, R497). -/
def claimFlagsCodes (s : State) (c : ClaimId) (v : Nat) : List Nat :=
  codeIf (1 < v) 0xA300 ++ codeIf (v.testBit 0 && (s.claimState c).confidential) 0xA202

def claimFlagsFx (s : State) (c : ClaimId) (v : Nat) : State := s.updClaim c fun x => { x with pcieOut := v.testBit 0 }

/- Sessions (R490 to R493). -/

/-- A load into the claim is BUSY: REPORT and UNWRAP wait (R486). -/
def State.loadingInto (s : State) (c : ClaimId) : Bool := s.hub.load.any fun l => l.claim = c

/-- REPORT's codes (R487, R490, R492, R497). -/
def reportCodes (s : State) (c : ClaimId) : List Nat :=
  let x := s.claim c
  codeIf (c = 0 || !(x.state = .session || x.state = .sealed) || !s.ready rCrypto || 65536 ≤ s.nv.lmsUsed || 32768 ≤ s.sec.reports) 0xA400 ++
  codeIf (!s.foremanRuns 0 || x.sessState = .busy) 0xA500

/-- REPORT: it reads BUSY, with TREE_PENDING until the bottom tree is ready. -/
def reportFx (s : State) (c : ClaimId) : State :=
  s.updClaim c fun x => { x with wait := .report, sessState := .busy, sessCode := if s.sec.treeReady then 0 else 1 }

/-- A session command ends with a code of session_status. -/
def State.sessionFails (s : State) (c : ClaimId) (code : Nat) : State :=
  s.updClaim c fun x => { x with wait := .none, sessState := .failed, sessCode := code }

/-- Part E of a report (R491). -/
def State.reportBody (s : State) (c : ClaimId) (top no : Nat) : List Byte :=
  let x := s.claim c
  let bs := s.hub.bundles.filter fun b => b.claim = c
  let head := leBytes 4 0x52415454 ++ leBytes 2 1 ++ leBytes 1 c.val ++
    leBytes 1 (bitN (x.state = .sealed) 0 + bitN s.nv.debugLocked 1)
  head ++ leBytes 8 Config.serialNumber.toNat ++ leBytes 8 s.now.toNat ++ leBytes 4 top ++ leBytes 4 no ++
  slice x.nonce 0 32 ++ slice x.sessionPublic 0 97 ++ List.replicate 15 0 ++
  (s.boot.foremen.toList.flatMap fun f => leBytes 4 f.version.toNat) ++
  (s.nv.secCounter.toList.flatMap fun n => leBytes 1 n) ++ leBytes 2 s.nv.revoked.toNat ++
  leBytes 2 s.boot.measures.length ++ leBytes 2 bs.length ++ List.replicate 46 0 ++
  (s.boot.measures.flatMap Measure.bytes) ++
  bs.flatMap fun b => leBytes 8 b.handle.val ++ leBytes 8 b.time.toNat ++ slice b.digest 0 48

/-- REPORT_READY (R491, R492): the report is built and signed; the first of a boot blows the next step of lms_leaves_used. -/
def reportReady (c : ClaimId) (s : State) : State :=
  if (s.claim c).wait ≠ .report || !s.sec.treeReady || s.loadingInto c then s
  else if s.sec.topLeaf.isNone && 65536 ≤ s.nv.lmsUsed then s.sessionFails c 2
  else if 32768 ≤ s.sec.reports then s.sessionFails c 3
  else
    let s := match s.sec.topLeaf with
      | some _ => s
      | none => { s with nv := { s.nv with lmsUsed := s.nv.lmsUsed + 1 }, sec := { s.sec with topLeaf := some s.nv.lmsUsed } }
    let s := s.updSec fun x => { x with reports := x.reports + 1 }
    let body := s.reportBody c (s.sec.topLeaf.getD 0) s.sec.reports
    let digest := sha384 body
    let (w, s) := s.drawWord
    let report := body ++ slice (Config.ecdsaSign w.toNat digest) 0 96 ++ slice (Config.lmsSign s.sec.reports digest) 0 3444
    s.updClaim c fun x =>
      { x with wait := .none, sessState := .ready, sessCode := 0, report := report, reportE := body.length, stale := false }

def execReportReady (c : ClaimId) (s : State) : Host.Outcome State Fault Refusal := done s (reportReady c s)

/-- LMS_TREE_READY (R492): the bottom tree is made, in the background from CRYPTO_READY. -/
def lmsTreeReady (s : State) : State :=
  if !s.ready rCrypto then s
  else s.updSec fun x =>
    { x with treeReady := true, claims := x.claims.map fun c => if c.wait = .report then { c with sessCode := 0 } else c }

def execLmsTreeReady (s : State) : Host.Outcome State Fault Refusal := done s (lmsTreeReady s)

/-- UNWRAP's codes (R487, R490, R497). -/
def unwrapCodes (s : State) (c : ClaimId) : List Nat :=
  let x := s.claim c
  codeIf (c = 0 || x.state ≠ .session || x.stale || !s.ready rCrypto) 0xA400 ++
  codeIf (!s.foremanRuns 0 || x.sessState = .busy) 0xA500

/-- UNWRAP. -/
def unwrapFx (s : State) (c : ClaimId) : State := s.updClaim c fun x => { x with wait := .unwrap, sessState := .busy, sessCode := 0 }

/-- The model key that a wrap blob holds (R493): none where the key is not on the curve or the tag fails. -/
def Claim.unwrapped (x : Claim) : Option (List Byte) :=
  let owner := slice x.wrap 0 97
  if !Config.pointOnCurve owner then none
  else
    let z := Config.ecdhShared (x.sessionSecret.getD []) owner
    let info := [0x54, 0x54, 0x39, 0x2D, 0x57, 0x52, 0x41, 0x50] ++ sha384 (x.report.take x.reportE)
    let kek := Config.hkdf z x.nonce info 32
    Config.gcmOpen kek (List.replicate 12 0) owner (slice x.wrap 97 32) (slice x.wrap 129 16)

/-- CLAIM_SEALED (R490 step 6, R493): the model key is unwrapped, the session key pair destroyed, the export key made; a report that
has become stale, or a blob that does not open, leaves the claim in SESSION. -/
def claimSealed (c : ClaimId) (s : State) : State :=
  let x := s.claim c
  if x.wait ≠ .unwrap || s.loadingInto c then s
  else if x.stale then s.sessionFails c 4
  else
    match x.unwrapped with
    | none => s.sessionFails c 5
    | some k =>
      let (e, s) := s.drbgTake 32
      s.updClaim c fun x =>
        { x with state := .sealed, wait := .none, sessState := .ready, sessCode := 0, sessionSecret := none, modelKey := some k, exportKey := some e, exports := 0 }

def execClaimSealed (c : ClaimId) (s : State) : Host.Outcome State Fault Refusal := done s (claimSealed c s)

/- Import and export (R488, R489). -/

/-- Bytes of a sealed stream. -/
def streamLen (n : Nat) : Nat := 64 + n + 16 * ((n + 65535) / 65536)

/-- Every segment of a range is one that host cores reach. -/
def State.hostReaches (s : State) (a n : Nat) : Bool :=
  a + n ≤ 2 ^ 37 && (segsOf a n).all fun k => !segAbsent s.grade k && s.reaches .host (s.seg k).claim

/-- Every segment of a range is the claim's. -/
def State.claimOwns (s : State) (c : ClaimId) (a n : Nat) : Bool :=
  a + n ≤ 2 ^ 37 && (segsOf a n).all fun k => !segAbsent s.grade k && (s.seg k).claim = c

/-- The claim that crypt_claim names. -/
def State.cryptClaimId (s : State) : ClaimId := Fin.ofNat 16 (s.regN .cryptClaim)

/-- IMPORT's and EXPORT's codes. -/
def cryptCodes (exporting : Bool) (s : State) : List Nat :=
  let c := s.cryptClaimId
  let src := s.regN .cryptSrc
  let dst := s.regN .cryptDst
  let n := s.regN .cryptLen
  let ok := if exporting then s.claimOwns c src n && s.hostReaches dst (streamLen n) else s.hostReaches src (streamLen n) && s.claimOwns c dst n
  codeIf (src % 64 ≠ 0 || dst % 64 ≠ 0 || n % 64 ≠ 0 || !ok) 0xA300 ++
  codeIf (15 < s.regN .cryptClaim || s.claimState c ≠ .sealed) 0xA400 ++ codeIf s.sec.crypt.isSome 0xA500

/-- IMPORT or EXPORT starts: its destination segments are BUSY. -/
def cryptFx (exporting : Bool) (s : State) : State :=
  let n := s.regN .cryptLen
  let dst := s.regN .cryptDst
  let segs := segsOf dst (if exporting then streamLen n else n)
  (s.updSegs segs fun e => { e with busy := true }).updSec fun x =>
    { x with crypt := some ⟨exporting, s.cryptClaimId, s.regN .cryptSrc, dst, n, segs, false⟩, cryptState := .busy, cryptCode := 0, cryptDone := 0 }

/-- CODE of crypt_status for a failed access. -/
def MemFail.cryptCode : MemFail → Nat
  | .access | .unmapped => 2
  | .lost | .fenced => 3
  | .uncorrectable => 4

/-- A sealed stream's chunks open under a key, or a tag fails. -/
def openChunks (key head : List Byte) : Nat → Nat → List Byte → Option (List Byte)
  | 0, _, _ => some []
  | fuel + 1, i, bs =>
    if bs.isEmpty then some []
    else
      let n := min 65536 (bs.length - 16)
      let ctr := beBytes 4 i
      match Config.gcmOpen key (slice head 16 8 ++ ctr) (head.take 24 ++ ctr) (bs.take n) ((bs.drop n).take 16) with
      | none => none
      | some p => (openChunks key head fuel (i + 1) (bs.drop (n + 16))).map fun r => slice p 0 n ++ r

/-- The chunks of a plain text sealed under a key. -/
def sealChunks (key head : List Byte) : Nat → Nat → List Byte → List Byte
  | 0, _, _ => []
  | fuel + 1, i, bs =>
    if bs.isEmpty then []
    else
      let p := bs.take 65536
      let ctr := beBytes 4 i
      let c := Config.gcmSeal key (slice head 16 8 ++ ctr) (head.take 24 ++ ctr) p
      slice c.1 0 p.length ++ slice c.2 0 16 ++ sealChunks key head fuel (i + 1) (bs.drop 65536)

/-- The header of a sealed stream (R488). -/
def streamHead (key len : Nat) (noncePre : List Byte) : List Byte :=
  leBytes 4 0x4C535454 ++ leBytes 1 key ++ List.replicate 3 0 ++ leBytes 8 len ++ slice noncePre 0 8 ++ List.replicate 40 0

/-- An import's plain text: the header is checked against crypt_len, then every tag; a failure is its CODE. -/
def importPlain (x : Claim) (len : Nat) (stream : List Byte) : Except Nat (List Byte) :=
  let head := stream.take 64
  let key := leAt head 4 1
  if head ≠ streamHead key len (slice head 16 8) || 1 < key then .error 5
  else
    match openChunks ((if key = 0 then x.modelKey else x.exportKey).getD []) head (len + 1) 0 (stream.drop 64) with
    | none => .error 1
    | some p => .ok (slice p 0 len)

/-- The destination of a failed import is zeroed: no plain text of it is ever readable. -/
def State.zeroDest (s : State) (a n : Nat) : State := (pieces a n).foldl (fun s p => s.storeBurst p.1 (List.replicate p.2 0)) s

/-- An operation ends; where it fails, how many bytes it had done is free. -/
def State.cryptEnds (s : State) (code done : Nat) : State :=
  let (w, s) := s.drawWord
  s.updSec fun x =>
    { x with crypt := none, cryptState := if code = 0 then .ready else .failed, cryptCode := code,
             cryptDone := if code = 0 then done else w.toNat % (done + 1) }

/-- CRYPT_DONE (R486, R489). -/
def cryptDone (s : State) : State :=
  match s.sec.crypt with
  | none => s
  | some r =>
    let s := s.updSegs r.segs fun e => { e with busy := false }
    let importFails := fun (s : State) code => (s.zeroDest r.dst r.len).cryptEnds code r.len
    if r.exporting then
      if r.lost then s.cryptEnds 3 r.len
      else
        match s.readMem (.job r.claim) r.src r.len with
        | (.error f, s) => s.cryptEnds f.cryptCode r.len
        | (.ok p, s) =>
          let (pre, s) := s.drbgTake 8
          let s := s.updClaim r.claim fun x => { x with exports := x.exports + 1 }
          let head := streamHead 1 r.len pre
          let key := (s.claim r.claim).exportKey.getD []
          match s.writeMem .host r.dst (head ++ sealChunks key head (r.len + 1) 0 p) with
          | (some f, s) => s.cryptEnds f.cryptCode r.len
          | (none, s) => s.cryptEnds 0 r.len
    else if r.lost then importFails s 3
    else
      match s.readMem .host r.src (streamLen r.len) with
      | (.error f, s) => importFails s f.cryptCode
      | (.ok stream, s) =>
        match importPlain (s.claim r.claim) r.len stream with
        | .error code => importFails s code
        | .ok p =>
          match s.writeMem (.job r.claim) r.dst p with
          | (some f, s) => importFails s f.cryptCode
          | (none, s) => s.cryptEnds 0 r.len

def execCryptDone (s : State) : Host.Outcome State Fault Refusal := done s (cryptDone s)

/- Owner keys and the DRBG (R487, R494). -/

/-- OWNER_KEY_PROGRAM's codes: byte 0 names the slot. -/
def ownerKeyCodes (data : List Byte) (s : State) : List Nat :=
  let slot := leAt data 0 1
  if slot < 12 || 15 < slot then 0xA300 :: codeIf s.confidentialOpen 0xA202
  else codeIf (s.nv.ownerDigest[(Fin.ofNat 4 (slot - 12))]).isSome 0xA400 ++ codeIf s.confidentialOpen 0xA202

/-- OWNER_KEY_PROGRAM: the slot's digest is blown once. -/
def ownerKeyFx (data : List Byte) (s : State) : State :=
  let i : Fin 4 := Fin.ofNat 4 (leAt data 0 1 - 12)
  { s with nv := { s.nv with ownerDigest := upd s.nv.ownerDigest i fun _ => some (slice data 1 48) } }

/-- DRBG_RESEED (R487): after every 2^20 requests. -/
def drbgReseed (s : State) : State := if 2 ^ 20 ≤ s.sec.drbgRequests then s.reseed else s

def execDrbgReseed (s : State) : Host.Outcome State Fault Refusal := done s (drbgReseed s)

/-- ENTROPY_HEALTH_FAIL (R487): CRYPTO_READY clears and its failed bit sets. -/
def execEntropyHealthFail (s : State) : Host.Outcome State Fault Refusal := done s (if s.porstLow then s else s.failService rCrypto)

end Sys2Proof.Machine
end

