-- ==== Sys2Proof/Machine/Power.lean ====
section
/-! DEFINITION. Power, voltage, pace and heat (R28, R498 to R518): the power period, the setpoint, the floors, the thermal sensors and the
switched domains. -/
namespace Sys2Proof.Machine
open Sys2Proof

/-- Change the power block. -/
def State.updPower (s : State) (f : Power → Power) : State := { s with power := f s.power }

/-- A record of the power and thermal block: KIND 7, UNIT 12 (R471, R518). -/
def State.logPower (s : State) (code sev : Nat) (d1 : Nat) : State := s.logRec code sev 7 12 0 (BitVec.ofNat 64 d1)

/-- The VDD_SRAM setpoint (R499). -/
def sramFor (core host : Nat) : Nat := max 750 (max core host)

/-- Ticks in 250 hours, the span of one WEAR fuse (R511). -/
def wearStep : Nat := 250 * 3600 * 1000000000

/-- One WEAR fuse is blown and recorded (R511). -/
def State.blowWear (s : State) : State :=
  let n := s.nv.wearSteps + 1
  ({ s with nv := { s.nv with wearSteps := n } }).logPower 0x5006 1 n

/-- Fuses that the count asks for are blown, one for each step entered. -/
def State.wearFuses : Nat → State → State
  | 0, s => s
  | fuel + 1, s =>
    if s.nv.wearSteps < 16 && wearStep * s.nv.wearSteps < s.power.wearTicks then State.wearFuses fuel s.blowWear else s

/-- The wear count takes in the time since it was last brought up to date, while the setpoint stood above 0.85 V; with 16 fuses and
4,000 hours the budget is spent (R511). -/
def State.wearCount (s : State) : State :=
  let dt := (s.now - s.power.lastPeriod.getD 0).toNat
  let above := 850 < s.power.coreNow && s.foremanRuns 2
  let s := s.updPower fun p => { p with lastPeriod := some s.now, wearTicks := if above then p.wearTicks + dt else p.wearTicks }
  let s := if above then State.wearFuses 16 s else s
  if 16 ≤ s.nv.wearSteps && 16 * wearStep ≤ s.power.wearTicks && !s.power.wearSpent then
    ((s.updPower fun p => { p with wearSpent := true }).alert aPower).logPower 0x5007 4 0
  else s

/-- VDD_CORE's setpoint changes. -/
def State.setCore (s : State) (mv : Nat) : State :=
  s.wearCount.updPower fun p => { p with coreNow := mv, stepTo := none, sramNow := sramFor mv p.hostNow }

/-- Hardware forces the floor of 0.55 V (R502, R507, R512). -/
def State.forceFloor (s : State) : State := s.setCore 550

/-- The floor is held (R508). -/
def Power.floored (p : Power) : Bool := p.alertFloor || p.thermalFloor || p.thermtrip

/-- The VDD_CORE setpoint that R502 asks for. -/
def State.coreTarget (s : State) : Nat :=
  let p := s.power
  min (s.regN .coreVTarget) (min p.thermalCeil (min (if p.wearSpent then 850 else 900) (min p.currentCeil p.share)))

/- Telemetry (R500, R501). -/

/-- One rail's power in µW, with its count of failed reads and whether it stands at its limit. A failed read before the third gives a
free figure, and so does a regulator's own limit (log entry 3). -/
def State.railPower (s : State) (rail : Fin 17) (m : RailReading) : Nat × State :=
  match m with
  | .off => (0, s.updPower fun p => { p with fails := p.fails.set rail 0 })
  | .read mv ma => (mv * ma, s.updPower fun p => { p with fails := p.fails.set rail 0 })
  | .failed =>
    let n := s.power.fails[rail] + 1
    let s := s.updPower fun p => { p with fails := p.fails.set rail n }
    let (w, s) := s.drawWord
    (if rail = 0 && 3 ≤ n then 320000 * s.power.coreNow else w.toNat % 2 ^ 32, s)

/-- The power of every rail, in order. -/
def State.railPowers (s : State) (m : Vector RailReading 17) : List Nat → List Nat × State
  | [] => ([], s)
  | i :: rest =>
    let (p, s) := s.railPower (Fin.ofNat 17 i) m[(Fin.ofNat 17 i)]
    let (ps, s) := s.railPowers m rest
    (p :: ps, s)

/-- TELEMETRY_LOST while a rail has failed three times in a row; it is recorded and POWER set when it rises. -/
def State.telemetry (s : State) : State :=
  let lost := s.power.fails.toList.any fun n => 3 ≤ n
  let rises := lost && !s.power.telemetryLost
  let s := s.updPower fun p => { p with telemetryLost := lost }
  if rises then (s.alert aPower).logPower 0x5002 3 0 else s

/- Sharing the cap (R504, R505). -/

/-- Classes: 0 links, 1 memory, 2 compute, as cap_status numbers them. -/
def classOb : Nat → Ob
  | 0 => .classLinks | 1 => .classMemory | _ => .classCompute

def State.classFloor (s : State) (c : Nat) : Int := (bits (s.reg (classOb c)) 15 0 * 1000000 : Nat)
def State.classCeil (s : State) (c : Nat) : Int := (bits (s.reg (classOb c)) 31 16 * 1000000 : Nat)

/-- The order of cap_priority (R517). -/
def capOrder : Nat → List Nat
  | 0 => [0, 1, 2] | 1 => [0, 2, 1] | 2 => [1, 0, 2] | 3 => [1, 2, 0] | 4 => [2, 0, 1] | _ => [2, 1, 0]

/-- A trained link. -/
def Link.trained (l : Link) : Bool := l.state = .up

/-- A class is limited while its setting lies below its unthrottled value. -/
def State.limited (s : State) (c : Nat) : Bool :=
  if c = 0 then s.linkUnits.toList.any fun l => l.trained && l.narrow
  else if c = 1 then s.power.memLevel < 16
  else s.power.share < 900

/-- A class stands at its lowest step. -/
def State.lowestStep (s : State) (c : Nat) : Bool :=
  if c = 0 then s.linkUnits.toList.all fun l => !l.trained || l.narrow
  else if c = 1 then s.power.memLevel ≤ 4
  else s.power.share ≤ 550

/-- A link whose lanes allow its full width: no lane has failed that the spare does not carry (R525). -/
def Link.wide (l : Link) : Bool := l.failedLanes.isEmpty

/-- One step down: the table of the classes, R505. -/
def State.stepDown (s : State) (c : Nat) : State :=
  if c = 0 then
    match ([3, 2, 1, 0] : List LinkId).find? fun k => s.linkUnits[k].trained && !s.linkUnits[k].narrow with
    | some k => s.updLink k fun l => { l with narrow := true }
    | none => s
  else if c = 1 then s.updPower fun p => { p with memLevel := max 4 (p.memLevel - 1) }
  else s.updPower fun p => { p with share := max 550 (p.share - 25) }

/-- One step up. -/
def State.stepUp (s : State) (c : Nat) : State :=
  if c = 0 then
    match ([0, 1, 2, 3] : List LinkId).find? fun k => s.linkUnits[k].trained && s.linkUnits[k].narrow && s.linkUnits[k].wide with
    | some k => s.updLink k fun l => { l with narrow := false }
    | none => s
  else if c = 1 then s.updPower fun p => { p with memLevel := min 16 (p.memLevel + 1) }
  else s.updPower fun p => { p with share := min 900 (p.share + 25) }

/-- What each class is allowed in R504's sharing, in µW. -/
def State.allowances (s : State) (cap unmanaged : Int) (power : Nat → Int) : Nat → Int :=
  let floors := s.classFloor 0 + s.classFloor 1 + s.classFloor 2
  let go := (capOrder (s.regN .capPriority)).foldl (fun (a : List (Nat × Int) × Int) c =>
    let ceil := s.classCeil c
    let floor := s.classFloor c
    let want := if s.limited c then ceil else min ceil (power c + 2000000)
    let give := max 0 (min a.2 (want - floor))
    (a.1 ++ [(c, floor + give)], a.2 - give)) ([], cap - unmanaged - floors)
  fun c => ((go.1.find? fun p => p.1 = c).map (·.2)).getD 0

/-- The bucket of R504 and R510, in units of 10⁻¹⁰ J. -/
def State.fillBucket (s : State) (cap total : Int) : State :=
  let level := min 20000000000 (max 0 ((s.power.bucket : Int) + (cap - total)))
  s.updPower fun p =>
    { p with bucket := level.toNat,
             bucketEmpty := if level = 0 then true else if 10000000000 ≤ level then false else p.bucketEmpty }

/-- One class's step of R504. -/
def State.classStep (s : State) (allow power : Nat → Int) (c : Nat) : State :=
  if allow c < power c && s.classFloor c < power c then s.stepDown c
  else if power c < allow c - 2000000 && s.limited c then s.stepUp c
  else s

/-- CAP_OVER: ten successive periods above the cap with every class at its floor or lowest step. -/
def State.capCheck (s : State) (cap total : Int) (power : Nat → Int) : State :=
  let stuck := cap < total && [0, 1, 2].all fun c => power c ≤ s.classFloor c || s.lowestStep c
  let n := if stuck then s.power.overPeriods + 1 else 0
  let rises := 10 ≤ n && !s.power.capOver
  let s := s.updPower fun p => { p with overPeriods := n, capOver := 10 ≤ n }
  if rises then (s.alert aPower).logPower 0x5003 2 0 else s

/- Ceilings and the setpoint (R502, R506, R512). -/

/-- The current ceiling (R506). -/
def State.currentStep (s : State) (m : RailReading) : State :=
  match m with
  | .read _ ma =>
    let limit := s.regN .coreILimit * 1000
    if limit < ma then s.updPower fun p => { p with currentCeil := max 550 (p.coreNow - 25) }
    else if ma * 100 < limit * 95 then s.updPower fun p => { p with currentCeil := min 900 (p.currentCeil + 25) }
    else s
  | _ => s

/-- temp_max in 0.1 °C (R512). -/
def State.tempMax (s : State) : Int := s.power.temps.toList.foldl (fun a t => max a t.toInt) (-32768)

/-- The thermal ceiling of one period (R512). -/
def State.thermalStep (s : State) : State :=
  let limit := (BitVec.truncate 16 (s.reg .throttleTemp)).toInt
  if limit ≤ s.tempMax then
    let rises := !s.power.thermalThrottle
    let s := s.updPower fun p => { p with thermalCeil := max 550 (p.thermalCeil - 25), thermalThrottle := true }
    if rises then s.alert aThermal else s
  else if s.tempMax < limit - 30 then
    s.updPower fun p => { p with thermalCeil := min 900 (p.thermalCeil + 25), thermalThrottle := false }
  else s

/-- The foreman sends the next setpoint (R502): at most 25 mV, once the last is acknowledged. A command while the floor is held is
discarded and counted (R507). VDD_SRAM is raised before (R499). -/
def State.sendSetpoint (s : State) : State :=
  let p := s.power
  let t := s.coreTarget
  if p.stepTo.isSome || t = p.coreNow then s
  else if p.floored then s.bump .vrCmdsDropped
  else
    let next := if p.coreNow < t then min t (p.coreNow + 25) else max t (p.coreNow - 25)
    s.updPower fun p => { p with stepTo := some next, sramNow := max p.sramNow (sramFor next p.hostNow) }

/-- VDD_HOST follows host_v_target; VDD_SRAM rises before it and falls after (R498, R499). -/
def State.setHost (s : State) : State :=
  s.updPower fun p => { p with hostNow := s.regN .hostVTarget,
                               sramNow := max (sramFor p.coreNow (s.regN .hostVTarget)) (p.stepTo.getD 0) }

/-- POWER_PERIOD (R500 to R506, R510 to R512): once per 100,000 ticks the power foreman reads its rails, shares the cap, and moves the
setpoint. -/
def powerPeriod (m : Vector RailReading 17) (s : State) : State :=
  if !s.foremanRuns 2 || !s.due s.power.lastPeriod 100000 then s
  else
    let s := s.wearCount
    let (ps, s) := s.railPowers m (List.range 17)
    let s := s.telemetry
    let at' := fun i => ps.getD i 0
    let sum := fun (l : List Nat) => l.foldl (fun a i => a + at' i) 0
    let compute := sum [0, 2]
    let memory := sum [4, 5, 6, 7, 8, 9, 10, 11]
    let links := sum [12, 13]
    let unmanaged := sum [1, 3, 14, 15, 16]
    let total := compute + memory + links + unmanaged
    let power : Nat → Int := fun c => if c = 0 then (links : Int) else if c = 1 then (memory : Int) else (compute : Int)
    let cap : Int := (s.regN .capSustained * 1000000 : Nat)
    let s := s.updPower fun p => { p with total := total, links := links, memory := memory, compute := compute }
    let s := s.fillBucket cap total
    let allow := if s.reg .bucketEnable ≠ 0 && !s.power.bucketEmpty then s.classCeil else s.allowances cap unmanaged power
    let s := [0, 1, 2].foldl (fun s c => s.classStep allow power c) s
    let s := s.capCheck cap total power
    let s := s.currentStep m[(0 : Fin 17)]
    let s := s.thermalStep
    s.setHost.sendSetpoint

def execPowerPeriod (m : Vector RailReading 17) (s : State) : Host.Outcome State Fault Refusal := done s (powerPeriod m s)

/-- VOLTAGE_STEP_ACK (R502): the setpoint sent is in force. -/
def voltageStepAck (s : State) : State :=
  match s.power.stepTo with
  | none => s
  | some v => s.setCore v

def execVoltageStepAck (s : State) : Host.Outcome State Fault Refusal := done s (voltageStepAck s)

/-- VR_ALERT (R507): an input falls; hardware forces the floor. -/
def vrAlert (rail : Fin 17) (s : State) : State :=
  if s.porstLow || s.power.vrAlert.getLsbD rail.val then s
  else
    let s := s.updPower fun p =>
      { p with vrAlert := setBit p.vrAlert rail.val true, vrFell := setBit p.vrFell rail.val true, alertFloor := true,
               alertAt := s.now }
    (s.forceFloor.alert aPower).logPower 0x5001 3 rail.val

def execVrAlert (rail : Fin 17) (s : State) : Host.Outcome State Fault Refusal := done s (vrAlert rail s)

/-- VR_ALERT_RELEASE (R507): every input has been high for 1 ms and the foreman has read every STATUS_WORD; the share level restarts. No
input can have been high so long sooner than 1,000,000 ticks after the last alert. -/
def vrAlertRelease (s : State) : State :=
  if s.power.alertFloor && s.foremanRuns 2 && s.due (some s.power.alertAt) 1000000 then
    s.updPower fun p => { p with vrAlert := 0, vrFell := 0, alertFloor := false, share := 550 }
  else s

def execVrAlertRelease (s : State) : Host.Outcome State Fault Refusal := done s (vrAlertRelease s)

/-- THERMAL_SENSOR_READ (R512): every 10,000 ticks, the three thresholds as hardware acts on them. -/
def thermalSensorRead (t : Vector (BitVec 16) 64) (s : State) : State :=
  if s.porstLow || !s.due s.power.sensorsAt 10000 then s
  else
    let s := s.updPower fun p => { p with temps := t, sensorsAt := some s.now }
    let hot := fun (limit : Int) => findIdxOpt (fun (x : BitVec 16) => limit ≤ x.toInt) t.toList
    let s := match hot 1100 with
      | some i =>
        if s.power.thermalFloor then s
        else (((s.updPower fun p => { p with thermalFloor := true }).forceFloor).alert aThermal).logPower 0x5004 3 i
      | none =>
        if s.power.thermalFloor && s.tempMax < 1050 then s.updPower fun p => { p with thermalFloor := false, thermalCeil := 550 } else s
    if (hot 1200).isSome && !s.power.thermtrip then
      ((((s.updPower fun p => { p with thermtrip := true }).forceFloor).alert aThermal).logPower 0x5005 5 0).halt
    else s

def execThermalSensorRead (t : Vector (BitVec 16) 64) (s : State) : Host.Outcome State Fault Refusal := done s (thermalSensorRead t s)

/-- PACE_UPDATE (R28): the window's figure of each bough is the mean, rounded down (log entry 58), of the measured figures of its leaves that
completed a step in the window, and 0 where none did; leaf l of branch b.r has figure 24b + 4r + l of `m`. A window lasts 100,000 ticks;
a new one begins. -/
def paceUpdate (m : Vector (BitVec 32) 96) (host : BitVec 32) (s : State) : State :=
  if !s.due s.power.paceAt 100000 then s
  else
    let mean := fun (b : Fin 4) =>
      let active := (List.range 24).filter fun i => i / 4 < branchesOf s.grade && (s.boughs[b].branches[(Fin.ofNat 6 (i / 4))].leaves[(Fin.ofNat 4 i)]).active
      (active.foldl (fun a i => a + (m.toList.getD (24 * b.val + i) 0).toNat) 0) / max 1 active.length
    let v := (List.finRange 4).map mean
    let low := v.foldl (fun a x => if x = 0 then a else if a = 0 then x else min a x) 0
    let s := (List.range 4).foldl (fun s i => s.setReg .boughPace (BitVec.ofNat 64 (v.getD i 0)) 0 0 i) s
    let s := (s.setReg .crownPace (BitVec.ofNat 64 low)).setReg .hostPace (host.zeroExtend 64)
    let idle := fun (r : Branch) => { r with leaves := r.leaves.map fun l => { l with active := false } }
    { s with power := { s.power with paceAt := some s.now }, boughs := s.boughs.map fun b => { b with branches := b.branches.map idle } }

def execPaceUpdate (m : Vector (BitVec 32) 96) (host : BitVec 32) (s : State) : Host.Outcome State Fault Refusal := done s (paceUpdate m host s)

/- Power domains (R514 to R516). -/

/-- Domains that domain_off switches (R514). -/
def domainSwitched (d : Nat) : Bool :=
  (48 ≤ d && d ≤ 55) || (73 ≤ d && d ≤ 79) || (81 ≤ d && d ≤ 89) || (94 ≤ d && d ≤ 98)

/-- Domains of units that the grade lacks (R1, R514). -/
def domainAbsent (g : Grade) (d : Nat) : Bool :=
  (d < 48 && !((presentBranches g).testBit (d % 24))) || (83 ≤ d && d ≤ 86 && camerasOf g ≤ 4 * (d - 83)) || (94 ≤ d && d ≤ 97 && linksOf g ≤ d - 94)

/-- The unit of a domain is in use (R515); whether a host core's hart is stopped is free. -/
def State.domainInUse (s : State) (d : Nat) : Bool × State :=
  let cams := (List.range 16).filter s.camOn
  if 48 ≤ d && d ≤ 55 then (s.reg .cacheEarlyWays ≠ 0, s)
  else if 73 ≤ d && d ≤ 79 then s.drawChoice
  else if d = 81 || d = 82 then (cams.any fun p => (s.pipeOf p).val = d - 81, s)
  else if 83 ≤ d && d ≤ 86 then (cams.any fun p => p / 4 = d - 83, s)
  else if d = 87 then ((List.range 16).any fun i => (s.reg .encConfig i).getLsbD 0, s)
  else if d = 88 then (s.reg .decHead ≠ s.reg .decTail, s)
  else if d = 89 then (s.sample.state ≠ .stopped, s)
  else if 94 ≤ d && d ≤ 97 then
    let l := s.linkUnits[(Fin.ofNat 4 (d - 94))]
    (!(l.state = .fenced || l.state = .down), s)
  else if d = 98 then (s.pcie.strap = 0, s)
  else (false, s)

/-- Whether one of a list of domains is in use. -/
def State.anyInUse (s : State) : List Nat → Bool × State
  | [] => (false, s)
  | d :: ds =>
    let (u, s) := s.domainInUse d
    let (v, s) := s.anyInUse ds
    (u || v, s)

/-- The request that a write of domain_off_lo or domain_off_hi makes for all domains. -/
def State.domainAsk (s : State) (hi : Bool) (v : Word) : BitVec 104 :=
  let old := s.power.domainOff.toNat
  if hi then BitVec.ofNat 104 (old % 2 ^ 64 + v.toNat % 2 ^ 40 * 2 ^ 64) else BitVec.ofNat 104 (old / 2 ^ 64 * 2 ^ 64 + v.toNat)

/-- Domains that the write would switch off. -/
def State.goingOff (s : State) (hi : Bool) (v : Word) : List Nat :=
  bitList 104 ((s.domainAsk hi v) &&& ~~~s.power.domainOff).toNat

/-- DOMAIN_OFF_WRITE's codes. -/
def domainOffCodes (hi : Bool) (v : Word) (s : State) : List Nat × State :=
  let ask := bitList 104 ((s.domainAsk hi v).toNat)
  let (used, s) := s.anyInUse ((s.goingOff hi v).filter domainSwitched)
  (codeIf (ask.any (domainAbsent s.grade)) 0xA101 ++ codeIf ((hi && 2 ^ 40 ≤ v.toNat) || ask.any fun d => !domainSwitched d) 0xA300 ++
    codeIf used 0xA400 ++ codeIf (!s.foremanRuns 2) 0xA500, s)

/-- The readiness bit of a domain's unit, where it has one of its own. -/
def domainReady (d : Nat) : Option Nat :=
  if d = 81 || d = 82 then some (rIpipe (d - 81))
  else if 83 ≤ d && d ≤ 86 then some (rCamGroup (d - 83))
  else if d = 87 then some rEncoder
  else if d = 88 then some rDecoder
  else if d = 89 then some rSample
  else if 94 ≤ d && d ≤ 97 then some (rLink (d - 94))
  else if d = 98 then some rPcie
  else none

/-- The PCIe links are not up any more: outbound requests that wait are answered FENCED (R541, R543). -/
def State.pciePortsDown (s : State) : State :=
  { s with
    pcie := { s.pcie with up := Vector.replicate 2 false, width := Vector.replicate 2 0, speed := Vector.replicate 2 0 }
    grove := { s.grove with outstanding := s.grove.outstanding.map fun o =>
      if o.link.isNone && o.answer.isNone then { o with answer := some (.fenced, []) } else o } }

/-- A domain goes off: a slice writes back its dirty lines first (R364); a unit's readiness bit clears. -/
def State.domainGoesOff (s : State) (d : Nat) : State :=
  let s := if 48 ≤ d && d ≤ 55 then s.flushLines (Fin.ofNat 8 (d - 48)) else s
  let s := if 94 ≤ d && d ≤ 97 then s.updLink (Fin.ofNat 4 (d - 94)) fun l => { l with state := .off } else s
  let s := if d = 98 then s.pciePortsDown else s
  match domainReady d with
  | some i => s.leaveService i
  | none => s

/-- DOMAIN_OFF_WRITE (R515): with every slice off the system cache no longer caches DRAM. -/
def domainOffFx (hi : Bool) (v : Word) (s : State) : State :=
  let off := s.goingOff hi v
  let s := s.updPower fun p => { p with domainOff := s.domainAsk hi v }
  let s := off.foldl State.domainGoesOff s
  if (List.range 8).all fun k => s.power.domainOff.getLsbD (48 + k) then s.leaveService rCache else s

/-- The domains actually on (R514, R516). -/
def State.domainOn (s : State) : Nat :=
  let boughOn := fun (b : Nat) => (s.boughs[(Fin.ofNat 4 b : BoughId)].state ≠ .down) && s.boughs[(Fin.ofNat 4 b : BoughId)].state ≠ .absent
  let asked := fun d => s.power.domainOff.getLsbD d
  (List.range 104).foldl (fun a d =>
    let on : Bool :=
      if domainAbsent s.grade d || s.crown = .powerOn then false
      else if d < 48 then boughOn (d % 24 / 6)
      else if d < 56 then !asked d
      else if d < 72 then (s.groups[(Fin.ofNat 4 ((d - 56) / 4) : BoughId)]).mode = .on
      else if d < 80 then !asked d
      else if 81 ≤ d && d ≤ 89 then s.crown ≠ .sleep && !asked d
      else if 90 ≤ d && d ≤ 93 then boughOn (d - 90)
      else if 94 ≤ d && d ≤ 98 then !asked d
      else if 100 ≤ d then (s.groups[(Fin.ofNat 4 (d - 100) : BoughId)]).enable
      else true
    a + bitN on d) 0

/-- cap_status (R517). -/
def State.capStatus (s : State) : Nat :=
  let p := s.power
  bitN (s.limited 0) 8 + bitN (s.limited 1) 9 + bitN (s.limited 2) 10 + bitN p.wearSpent 7 + bitN p.telemetryLost 6 +
  bitN p.alertFloor 5 + bitN p.thermalFloor 4 + bitN p.thermalThrottle 3 + bitN (p.currentCeil < 900) 2 + bitN p.bucketEmpty 1 + bitN p.capOver 0

/-- Ranges of the power objects (R517): a value outside them is refused with 0xA300. -/
def State.powerBad (s : State) (o : Ob) (v : Nat) : Bool :=
  let floors := [0, 1, 2].foldl (fun a c => a + bits (s.reg (classOb c)) 15 0) 0
  let cls := fun (ceil : Nat) => nbits v 31 16 < nbits v 15 0 || ceil < nbits v 31 16
  match o with
  | .coreVTarget | .hostVTarget => v < 550 || 900 < v || v % 5 ≠ 0
  | .coreILimit => v < 100 || 310 < v
  | .capSustained => v < 40 || 160 < v || v < floors
  | .capPriority => 5 < v
  | .classLinks => cls 40
  | .classMemory => cls 80
  | .classCompute => cls 250
  | .throttleTemp => v < 700 || 1000 < v
  | _ => false

/-- Power objects whose writes the power foreman applies (R464, R517). -/
def powerOb : Ob → Bool
  | .coreVTarget | .hostVTarget | .coreILimit | .capSustained | .capPriority | .classLinks | .classMemory | .classCompute | .bucketEnable
  | .throttleTemp => true
  | _ => false

end Sys2Proof.Machine
end

