-- ==== Sys2Proof/Machine/Sample.lean ====
section
/-! DEFINITION. The sample pipeline: the order of samples, packing, the batch buffer, its run and its posts (R277 to R291), and the
producers' taking of buffers (R264). -/
namespace Sys2Proof.Machine
open Sys2Proof

/- The order of samples (R279). -/

/-- The smallest k with n ≤ 2^k. -/
def ceilLog2 (n : Nat) : Nat := if n ≤ 1 then 0 else Nat.log2 (n - 1) + 1

/-- The six round keys. -/
def roundKeys (seed epoch : Nat) : List Nat :=
  (List.range 6).map fun r => leNat ((sha256 (leBytes 8 seed ++ leBytes 4 epoch ++ leBytes 1 r)).take 8)

/-- The mixing function on 64 bits. -/
def mix64 (x : BitVec 64) : BitVec 64 :=
  let x := (x ^^^ (x >>> 30)) * 0xBF58476D1CE4E5B9#64
  let x := (x ^^^ (x >>> 27)) * 0x94D049BB133111EB#64
  x ^^^ (x >>> 31)

/-- One Feistel network of half width h. -/
def feistel (x h : Nat) (keys : List Nat) : Nat :=
  let p := keys.foldl (fun (p : Nat × Nat) k =>
    (p.2, p.1 ^^^ ((mix64 (BitVec.ofNat 64 p.2 ^^^ BitVec.ofNat 64 k)).toNat % 2 ^ h))) (x / 2 ^ h, x % 2 ^ h)
  p.1 * 2 ^ h + p.2

/-- Cycle walking until the number lies below n. -/
def walk (n h : Nat) (keys : List Nat) : Nat → Nat → Nat
  | 0, x => x
  | fuel + 1, x => if x < n then x else walk n h keys fuel (feistel x h keys)

/-- π(i): the sample at position i of an epoch of n samples. -/
def samplePi (i n seed epoch : Nat) : Nat :=
  let h := max 1 ((ceilLog2 n + 1) / 2)
  let keys := roundKeys seed epoch
  walk n h keys (2 ^ (2 * h)) (feistel i h keys)

/- Configuration (R283, R287, R288). -/

def State.spRows (s : State) : Nat := bits (s.reg .spShape) 31 24
def State.spRowLen (s : State) : Nat := bits (s.reg .spShape) 23 0
def State.spSegMax (s : State) : Nat := bits (s.reg .spShape) 47 32
def State.spImgSlots (s : State) : Nat := bits (s.reg .spShape) 55 48
def State.spClaim (s : State) : ClaimId := Fin.ofNat 16 (bits (s.reg .spTarget) 12 9)
def State.spQueue (s : State) : BoughId × HqPos := (Fin.ofNat 4 (bits (s.reg .spTarget) 8 7), Fin.ofNat 32 (bits (s.reg .spTarget) 4 0))

/-- Offsets of the segment entries and of the image slots, and the end of the batch buffer (R283). -/
def State.spEntries (s : State) : Nat := (64 + 10 * (s.spRows * s.spRowLen) + 63) / 64 * 64
def State.spImages (s : State) : Nat := (s.spEntries + s.spRows * s.spSegMax * 16 + 2047) / 2048 * 2048
def State.spEnd (s : State) : Nat := s.spImages + s.spImgSlots * s.regN .spImgStride

/-- A range the pipeline may read: DRAM of the claim, the grove window, or the outbound row (R277, R288). What of it lies in the slot of this
part's own member is this part's DRAM (R33). -/
def State.spRange (s : State) (a n : Nat) : Bool :=
  let own := 0x10000000000 + s.member * 0x2000000000
  let lo := max a own
  let hi := min (a + n) (own + 0x2000000000)
  s.rangeGrants s.spClaim a n true false || inPcieRow a n ||
  (0x10000000000 ≤ a && a + n ≤ 0x30000000000 && (hi ≤ lo || s.rangeGrants s.spClaim (lo - own) (hi - lo) true false))

/-- The codes of a start (R288). -/
def spStartCodes (s : State) : List Nat :=
  let rows := s.spRows
  let len := s.spRowLen
  let (b, q) := s.spQueue
  let x := s.hq b q
  let n := s.regN .spSampleCount
  codeIf (rows < 1 || 64 < rows || len < 64 || 65536 < len || len % 64 ≠ 0 || s.spSegMax < 1 || 4096 < s.spSegMax || 64 < s.spImgSlots ||
    n < 1 || 2 ^ 40 < n || n ≤ s.regN .spStartPos || (s.spImgSlots ≠ 0 && s.regN .spImgStride % 2048 ≠ 0) ||
    (x.bound && x.stride < s.spEnd) ||
    !s.spRange (s.regN .spIndexBase) (16 * n) || !s.spRange (s.regN .spStoreBase) (s.regN .spStoreSize)) 0xA300 ++
  codeIf (s.sample.state ≠ .stopped || !s.ready rSample || !x.bound || x.claim ≠ s.spClaim) 0xA400

/-- Change the pipeline. -/
def State.updSp (s : State) (f : SamplePipe → SamplePipe) : State := { s with sample := f s.sample }

/-- A batch is begun at a position. -/
def SamplePipe.open (p : SamplePipe) (pos : Nat) : SamplePipe :=
  { p with pos := pos, firstPos := pos, row := 0, fill := 0, imagesTaken := 0, segs := [], buffer := none, closed := false }

/-- SP_START (R288). -/
def spStartFx (s : State) : State :=
  s.updSp fun _ => ({ state := .running, epoch := (s.reg .spEpoch).setWidth 32 : SamplePipe }).open (s.regN .spStartPos)

/-- The buffer in build returns to FREE. -/
def State.spRelease (s : State) : State :=
  let (b, q) := s.spQueue
  match s.sample.buffer with
  | some i => (s.freeFilling b q i).updSp fun p => { p with buffer := none }
  | none => s

/-- The run stops (R285, R289, R291). -/
def State.spStops (s : State) (reason : Nat) : State :=
  s.spRelease.updSp fun p => { p.open p.pos with state := .stopped, stopReason := reason, stopAsked := false }

/-- SP_STOP (R289): the batch in build is finished first; with none in build the run stops at once. -/
def spStopFx (s : State) : State :=
  if s.sample.state = .stopped then s
  else if s.sample.segs = [] && !s.sample.closed then s.spStops 1
  else s.updSp fun p => { p with stopAsked := true, state := if p.state = .waiting then .waiting else .stopping }

/-- The codes of a write to sp_control (R288, R289). -/
def spControlCodes (v : Nat) (s : State) : List Nat := if v = 1 then spStartCodes s else codeIf (v ≠ 2) 0xA300
def spControlFx (v : Nat) (s : State) : State := if v = 1 then spStartFx s else spStopFx s

/-- The codes of a write to a configuration object (R287). -/
def spCodes (o : Ob) (v : Nat) (s : State) : List Nat :=
  codeIf (s.sample.state ≠ .stopped) 0xA400 ++
  match o with
  | .spShape => codeIf (nbits v 63 56 ≠ 0) 0xA300
  | .spTarget => codeIf (nbits v 31 14 ≠ 0 || nbits v 6 5 ≠ 0) 0xA300
  | _ => []

/-- sp_status as it reads (R287). -/
def SamplePipe.status (p : SamplePipe) : Nat := p.epoch.toNat * 2 ^ 32 + p.stopReason * 16 + p.state.code

/- Reads (R277, R291). -/

/-- An answer from outside the part: the bytes, whether the read fails and in which of the ways it can, are free. -/
def State.farRead (s : State) (ways : List MemFail) (n : Nat) : Except MemFail (List Byte) × State :=
  let (bad, s) := s.drawChoice
  if bad then
    let (w, s) := s.drawWord
    (.error (ways.getD (w.toNat % ways.length) .access), s)
  else
    let (bs, s) := s.drawBytes n
    (.ok bs, s)

/-- A read of the index or the store: through the grove window a peer answers (R534), through the outbound row the PCIe port (R543). -/
def State.spRead (s : State) (a n : Nat) : Except MemFail (List Byte) × State :=
  match s.region a with
  | .grove m _ =>
    let conf := (s.claimState s.spClaim).confidential && !(s.reg .peerClaims m.val).getLsbD s.spClaim.val
    if conf then (.error .access, s)
    else if (s.linkTo m.val).isNone then (.error .fenced, s)
    else s.farRead [.access, .lost, .fenced, .uncorrectable] n
  | .pcie off => if s.pcieUp off then s.farRead [.access, .uncorrectable] n else (.error .fenced, s)
  | .dram d => s.readMem (.codec s.spClaim) d n
  | _ => (.error .unmapped, s)

/-- A failed check ends the run with the batch unposted (R34, R291). -/
def State.spFault (s : State) (a : Nat) : State := (s.spStops 3).logEngine 0x4200 6 a

/-- An index entry (R277). -/
structure SpEntry where
  crc : Nat
  tokens : Nat
  kind : Nat
  length : Nat
  offset : Nat

def spEntryOf (bs : List Byte) : SpEntry :=
  let v := leNat bs
  ⟨nbits v 127 96, nbits v 95 80, nbits v 79 72, nbits v 71 40, nbits v 39 0⟩

/-- A sample that its entry makes corrupt (R282). -/
def State.spIndexBad (s : State) (e : SpEntry) : Bool :=
  1 < e.kind || e.offset % 64 ≠ 0 || (e.kind = 0 && e.length ≠ 4 * e.tokens) || s.regN .spStoreSize < e.offset + e.length

/-- The image of a record, as its slot receives it; one that R317 or R321 refuses, or that its slot does not hold, is none (R282, R283). -/
def State.spImage (s : State) (jpeg : List Byte) : Option (List (Nat × List Byte)) :=
  match Config.decoded 2 0 false false jpeg, Config.unsupported 2 jpeg with
  | ((w, h, fmt, _, bs) :: _, none), none =>
    let f := picFmt 2 fmt
    if 8192 < w || 8192 < h || s.regN .spImgStride < 2048 + levelSize f w h then none
    else
      let p : Picture := ⟨w, h, f, bs⟩
      some ((0, frameHeader 0 0 0 0 false w h 1 f) :: p.rows)
  | _, _ => none

/-- What a record gives: the tokens and the image, or the reason of a drop; an uncorrectable error drops the sample with reason CRC
(R343). -/
def State.spRecord (s : State) (e : SpEntry) : Except MemFail (Except Nat (List (BitVec 32) × List (Nat × List Byte))) × State :=
  if s.spIndexBad e then (.ok (.error 3), s)
  else
    match s.spRead (s.regN .spStoreBase + e.offset) e.length with
    | (.error .lost, s) => (.ok (.error 4), s)
    | (.error .uncorrectable, s) => (.ok (.error 1), s)
    | (.error f, s) => (.error f, s)
    | (.ok bs, s) =>
      if (crc32c bs).toNat ≠ e.crc then (.ok (.error 1), s)
      else
        let toks := (List.range e.tokens).map fun i => BitVec.ofNat 32 (leAt bs (4 * i) 4)
        if e.kind = 0 then (.ok (.ok (toks, [])), s)
        else
          match s.spImage (bs.drop (4 * e.tokens)) with
          | some im => (.ok (.ok (toks, im)), s)
          | none => (.ok (.error 2), s)

/- Packing (R280 to R282). -/

/-- Where a sample of so many slots goes: the row and the fill, or nowhere in this batch. -/
def State.spPlace (s : State) (tokens : Nat) : Option (Nat × Nat) :=
  let p := s.sample
  let inRow := (p.segs.filter fun g => g.row = p.row).length
  if p.fill + tokens ≤ s.spRowLen && inRow < s.spSegMax then some (p.row, p.fill)
  else if p.row + 1 < s.spRows then some (p.row + 1, 0)
  else none

/-- A sample takes its place. -/
def State.spPut (s : State) (row fill : Nat) (g : SpSeg) : State :=
  let n := s.regN .spSampleCount
  let s := s.updSp fun p =>
    { p with row := row, fill := fill + g.span, segs := p.segs ++ [g], pos := p.pos + 1, closed := p.pos + 1 == n,
             imagesTaken := if g.imageTaken then p.imagesTaken + 1 else p.imagesTaken }
  if g.reason = 0 then s else s.bump .spDropped

/-- A sample of no tokens takes its place, marked with the reason of its drop; where no row has a place, it closes the batch. -/
def State.spEmpty (s : State) (k reason : Nat) : State :=
  match s.spPlace 0 with
  | none => s.updSp fun p => { p with closed := true }
  | some (row, fill) => s.spPut row fill ⟨row, fill, [], 0, none, false, reason, k⟩

/-- PACK_SAMPLE (R280): the next sample of the epoch is placed, or closes the batch. A sample whose index entry is uncorrectable is dropped
with reason CRC (R343, log entry 40). -/
def packSample (s : State) : State :=
  let p := s.sample
  if p.state = .stopped || p.closed || p.buffer.isNone then s
  else
    let k := samplePi p.pos (s.regN .spSampleCount) (s.regN .spSeed) p.epoch.toNat
    let a := s.regN .spIndexBase + 16 * k
    match s.spRead a 16 with
    | (.error .uncorrectable, s) => s.spEmpty k 1
    | (.error _, s) => s.spFault a
    | (.ok bs, s) =>
      let e := spEntryOf bs
      let long := s.spRowLen < e.tokens
      let span := if long then 0 else e.tokens
      let image := e.kind = 1 && !long
      if image && s.spImgSlots ≤ p.imagesTaken then s.updSp fun p => { p with closed := true }
      else
        match s.spPlace span with
        | none => s.updSp fun p => { p with closed := true }
        | some (row, fill) =>
          let seg := fun (toks : List (BitVec 32)) (im : Option Nat) (reason : Nat) =>
            (⟨row, fill, toks, span, im, image, reason, k⟩ : SpSeg)
          if long then s.spEmpty k 5
          else
            match s.spRecord e with
            | (.error _, s) => s.spFault (s.regN .spStoreBase + e.offset)
            | (.ok (.error reason), s) => s.spPut row fill (seg [] none reason)
            | (.ok (.ok (toks, rows)), s) =>
              let (b, q) := s.spQueue
              let x := s.hq b q
              let at_ := x.base + (p.buffer.getD 0) * x.stride + s.spImages + p.imagesTaken * s.regN .spImgStride
              match s.mediaWrites (.codec s.spClaim) at_ rows with
              | (some w, s) => s.spFault w
              | (none, s) => s.spPut row fill (seg toks (if image then some p.imagesTaken else none) 0)

def execPackSample (s : State) : Host.Outcome State Fault Refusal := done s (packSample s)

/- The batch buffer (R281, R283, R284). -/

/-- The value of each token slot of a row: token, segment number and position. -/
def State.spRowSlots (s : State) (row : Nat) : List (Nat × Nat × Nat) :=
  let mine := (s.sample.segs.filter fun g => g.row = row).zipIdx
  let pad := ((s.reg .spPadToken).toNat % 2 ^ 32, 0, 0)
  (List.range s.spRowLen).map fun i =>
    match mine.find? fun g => g.1.reason = 0 && g.1.start ≤ i && i < g.1.start + g.1.span with
    | some (g, k) => ((g.tokens.getD (i - g.start) 0).toNat, k + 1, i - g.start)
    | none => pad

/-- A segment entry. -/
def SpSeg.entry (g : SpSeg) : List Byte :=
  let image := g.image.getD 0xFFFF
  let dropped := g.reason ≠ 0
  leBytes 16 (g.sample + bitN dropped 56 + g.reason * 2 ^ 60 + g.start * 2 ^ 64 + (if dropped then 0 else g.span) * 2 ^ 96 + image * 2 ^ 112)

/-- The position of the next batch's first sample, as the header and sp_next_pos give it. -/
def State.spNext (s : State) : Nat :=
  if s.sample.pos = s.regN .spSampleCount && (s.reg .spTarget).getLsbD 13 then 0 else s.sample.pos

/-- The batch header: a number that its field does not hold is cut to the field (log entry 58). -/
def State.spHeader (s : State) : List Byte :=
  let p := s.sample
  let rows := ((List.range s.spRows).filter fun r => p.segs.any fun g => g.row = r).length
  let drops := (p.segs.filter fun g => g.reason ≠ 0).length
  leBytes 64 (p.batch % 2 ^ 64 + p.epoch.toNat * 2 ^ 64 + p.firstPos % 2 ^ 40 * 2 ^ 96 + s.spNext % 2 ^ 40 * 2 ^ 136 +
    drops % 2 ^ 16 * 2 ^ 192 + p.imagesTaken % 2 ^ 16 * 2 ^ 208 + rows % 2 ^ 8 * 2 ^ 224)

/-- Everything of the batch buffer but the images. -/
def State.spRowsOut (s : State) : List (Nat × List Byte) :=
  let t := s.spRows * s.spRowLen
  let rows := (List.range s.spRows).flatMap fun r =>
    let slots := s.spRowSlots r
    let segs := (s.sample.segs.filter fun g => g.row = r).flatMap SpSeg.entry
    [(64 + 4 * (r * s.spRowLen), slots.flatMap fun x => leBytes 4 x.1),
     (64 + 4 * t + 2 * (r * s.spRowLen), slots.flatMap fun x => leBytes 2 x.2.1),
     (64 + 6 * t + 4 * (r * s.spRowLen), slots.flatMap fun x => leBytes 4 x.2.2),
     (s.spEntries + r * s.spSegMax * 16, segs)]
  rows ++ [(0, s.spHeader)]

/-- The pipeline builds the same batch again (R286). -/
def State.spRebuild (s : State) : State := s.updSp fun p => p.open p.firstPos

/-- A batch has posted: positions, the epoch and the run advance (R285, R289, R290). -/
def State.spPosted (s : State) : State :=
  let ended := s.sample.pos = s.regN .spSampleCount
  let auto := (s.reg .spTarget).getLsbD 13
  let s := (s.setReg .spNextPos (BitVec.ofNat 64 s.spNext)).bump .spBatches
  let s := s.updSp fun p =>
    { p.open (if ended && auto then 0 else p.pos) with batch := p.batch + 1, epoch := if ended && auto then p.epoch + 1 else p.epoch }
  if s.sample.stopAsked then s.spStops 1
  else if ended && !auto then s.spStops 2
  else s

/-- BATCH_POST (R285, R286): a closed batch is written and posted, or refused and built again. -/
def batchPost (s : State) : State :=
  let p := s.sample
  match p.buffer with
  | none => s
  | some i =>
    if !p.closed || p.state = .stopped then s
    else
      let (b, q) := s.spQueue
      let x := s.hq b q
      match s.mediaWrites (.codec s.spClaim) (x.base + i * x.stride) s.spRowsOut with
      | (some a, s) => s.spFault a
      | (none, s) =>
        let refused := s.boughs[b].state.inReset
        let s := (s.hqPut b q (handleWord 6 p.batch i) fun x => { x with filling := x.filling.filter (· ≠ i) }).wake
        if refused then s.spRebuild else s.spPosted

def execBatchPost (s : State) : Host.Outcome State Fault Refusal := done s (batchPost s)

/- Buffers (R264, R265). -/

/-- The pipeline takes a FREE buffer for the batch to be built, or waits. -/
def State.spTake (s : State) (b : BoughId) (q : HqPos) : State :=
  let p := s.sample
  if p.state = .stopped || p.buffer.isSome || s.spQueue ≠ (b, q) then s
  else
    match s.takeFree .samplePipe b q with
    | (some i, s) => s.updSp fun p => { p with buffer := some i, state := if p.stopAsked then .stopping else .running }
    | (none, s) => s.updSp fun p => { p with state := .waiting }

/-- PRODUCER_BUFFER_TAKE (R264, R265): a decoder or the sample pipeline takes the oldest FREE buffer, or waits; an image pipeline takes its
buffer at the frame start and never waits. -/
def producerBufferTake (src : Producer) (b : BoughId) (q : HqPos) (s : State) : State :=
  match src with
  | .ipipe0 | .ipipe1 => s
  | .videoDecoder => s.decTake false b q
  | .jpegDecoder => s.decTake true b q
  | .samplePipe => s.spTake b q

def execProducerBufferTake (src : Producer) (b : BoughId) (q : HqPos) (s : State) : Host.Outcome State Fault Refusal :=
  done s (producerBufferTake src b q s)

end Sys2Proof.Machine
end

