-- ==== Sys2Proof/Machine/Crown.lean ====
section
/-! DEFINITION. The crown's commands and their conditions (R431 to R435), readiness reports (R36), alert causes (R429), and the
negotiation of versions (R436 to R438). -/
namespace Sys2Proof.Machine
open Sys2Proof

/- Boughs going down and coming up (R349, R433, R516). -/

/-- A descriptor runs in the bough: it reads RUNNING (R395). -/
def State.boughRunning (s : State) (b : BoughId) : Bool := s.hub.runs.any fun r => r.posted.contains b

/-- bough_state (R395). -/
def State.boughCode (s : State) (b : BoughId) : Nat :=
  match s.boughs[b].state with
  | .absent => 0 | .down => 1 | .training => 2
  | .ready => if s.boughRunning b then 4 else 3
  | .fencing => 5 | .fenced => 6 | .resetting => 7

/-- A bough goes DOWN: BOUGH_READY clears; its port and seams stay in service (R433). -/
def State.boughGoesDown (s : State) (b : BoughId) : State :=
  (s.updBough b fun x => { x with state := .down }).leaveService (rBough b.val)

/-- A bough comes up: it waits for its local memory to be zeroed and for its seams, of which failed ones train again (R109, R433). -/
def State.boughComesUp (s : State) (b : BoughId) : State :=
  let s := s.updBough b fun x => { x with state := .training, zeroed := false }
  (seamsOf b).foldl (fun s q => if (s.seam q).state = .failed then s.seamRestart q true else s) s

/-- Some seam of the bough is not in service. -/
def State.needsTraining (s : State) (b : BoughId) : Bool := (seamsOf b).any fun q => !(s.seam q).state.inService

/-- The boughs that a mask names. -/
def maskBoughs (mask : Nat) : List BoughId := (bitList 4 mask).map (Fin.ofNat 4)

/- crown_command (R433). -/

/-- Ports of a command: bit 0 B, bit 1 C, bit 2 H. -/
def commandPorts (cmd : Nat) : Nat := if cmd = 1 || cmd = 5 || cmd = 7 then 7 else 5

/-- The crown states in which a command is legal, by bit. -/
def commandStates (cmd : Nat) : Nat :=
  if cmd = 1 then 0x18 else if cmd = 2 || cmd = 3 then 0x20 else if cmd = 4 then 0x40 else if cmd = 7 then 0xFE else 0x3C

/-- SLEEP's condition. -/
def State.canSleep (s : State) : Bool :=
  (s.hub.queues.toList.all fun q => !q.enabled) && s.hub.jobs.isEmpty &&
  (s.boughs.toList.all fun b => b.state = .ready || b.state = .down) &&
  ((List.range 16).all fun p => !s.camOn p && !(s.reg .encConfig p).getLsbD 0) &&
  s.reg .decHead = s.reg .decTail && s.sample.state = .stopped

/-- BOUGH_DOWN's condition for one bough. -/
def State.canGoDown (s : State) (b : BoughId) : Bool :=
  s.boughs[b].state = .ready && !s.boughRunning b && s.hub.jobs.all fun j => j.decision.isSome || !j.touched.getLsbD b.val

/-- BOUGH_UP's condition for one bough. -/
def State.canComeUp (s : State) (b : BoughId) : Bool := s.boughs[b].state = .down && s.groups[b].mode = .on

/-- The codes of a write to crown_command; HALT is applied by hardware whatever the hub foreman does (R464). -/
def crownCodes (r : Requester) (v : Nat) (s : State) : List Nat :=
  let cmd := v % 256
  let mask := nbits v 11 8
  let bs := maskBoughs mask
  let masked := cmd = 5 || cmd = 6
  codeIf (2 ^ 12 ≤ v || cmd = 0 || 7 < cmd || masked = (mask = 0)) 0xA300 ++
  codeIf (1 ≤ cmd && cmd ≤ 7 && !(commandPorts cmd).testBit (reqPort r)) 0xA201 ++
  codeIf (1 ≤ cmd && cmd ≤ 7 && !(commandStates cmd).testBit s.crown.code) 0xA400 ++
  codeIf ((cmd = 3 && !s.canSleep) || (cmd = 5 && bs.any fun b => !s.canGoDown b) || (cmd = 6 && bs.any fun b => !s.canComeUp b)) 0xA400 ++
  codeIf ((cmd = 6 && (bs.any s.needsTraining) && !s.foremanRuns 1) || (cmd ≠ 7 && !s.foremanRuns 4)) 0xA500

/-- Units whose domains SLEEP switches off beside the boughs' (R516): image pipelines, camera groups, codecs, sample pipeline. -/
def sleepUnits : List Nat := [rIpipe 0, rIpipe 1, rCamGroup 0, rCamGroup 1, rCamGroup 2, rCamGroup 3, rEncoder, rDecoder, rSample]

/-- SLEEP: every bough goes DOWN, the domains of R516 switch off, then SLEEP is entered. -/
def State.goToSleep (s : State) : State :=
  let s := (maskBoughs 15).foldl (fun s b => if s.boughs[b].state = .ready then s.boughGoesDown b else s) s
  (sleepUnits.foldl State.leaveService s).setCrown .sleep

/-- WAKE: BRINGUP, and each bough whose group is ON comes up. -/
def State.wakeUp (s : State) : State :=
  let s := s.setCrown .bringup
  ((maskBoughs 15).foldl (fun s b => if s.canComeUp b then s.boughComesUp b else s) s).settle

/-- A command takes effect. -/
def crownFx (v : Nat) (s : State) : State :=
  let bs := maskBoughs (nbits v 11 8)
  match v % 256 with
  | 1 => s.setCrown .quiescing
  | 2 => s.setCrown (if s.readyFailed = 0 then .operational else .degraded)
  | 3 => s.goToSleep
  | 4 => s.wakeUp
  | 5 => bs.foldl State.boughGoesDown s
  | 6 => bs.foldl (fun s b => (s.boughComesUp b).boughCheck b) s
  | 7 => s.halt
  | _ => s

/- Readiness (R36, R432, R435). -/

/-- The codes of a write to readiness_expected. -/
def expectedCodes (v : Word) (s : State) : List Nat := codeIf (v &&& ~~~(presentReady s.grade) ≠ 0) 0xA300

/-- READINESS_EXPECTED_WRITE: BRINGUP may settle. -/
def expectedFx (v : Word) (s : State) : State := { s with notExpected := presentReady s.grade &&& ~~~v }.settle

/-- The readiness bit of a function that reports by itself. -/
def functionBit : ReadyFunction → Nat
  | .can => rCan | .crypto => rCrypto | .workHub => rWorkHub | .hostCores => rHostCores | .sysCache => rCache
  | .earlyWindow => rEarly | .sample => rSample | .decoder => rDecoder | .encoder => rEncoder
  | .camGroup g => rCamGroup g.val | .imagePipe p => rIpipe p.val

/-- The power domain of a function, where it has one of its own (R514). -/
def functionDomain : ReadyFunction → Option Nat
  | .imagePipe p => some (81 + p.val) | .camGroup g => some (83 + g.val) | .encoder => some 87 | .decoder => some 88 | .sample => some 89
  | _ => none

/-- What a function's report needs beyond its domain: the work hub its foreman and a READY bough (R40); host cores are held in reset in
EARLY (R431); both CAN controllers are on the bus, and the early window has a way (R36). -/
def State.functionCanReport (s : State) : ReadyFunction → Bool
  | .workHub => s.foremanRuns 4 && s.boughs.toList.any fun b => b.state.up
  | .hostCores => s.crown ≠ .early
  | .can => !s.can.toList.any (·.busOff)
  | .earlyWindow => s.reg .cacheEarlyWays ≠ 0
  | _ => true

/-- FUNCTION_REPORTS_READY (R36): a function that is present and whose domain is on has come up. -/
def functionReportsReady (f : ReadyFunction) (s : State) : State :=
  let on := match functionDomain f with
    | some d => s.domainOn.testBit d
    | none => true
  let cached := f ≠ .sysCache || (List.range 8).any fun k => !s.power.domainOff.getLsbD (48 + k)
  if s.porstLow || s.crown = .powerOn || s.crown = .recovery || !on || !cached || !s.functionCanReport f then s
  else s.reportReady (functionBit f)

def execFunctionReportsReady (f : ReadyFunction) (s : State) : Host.Outcome State Fault Refusal := done s (functionReportsReady f s)

/- alert_cause (R429). -/

/-- The codes of a write to alert_cause: bits [63:9] are reserved. -/
def alertCodes (v : Word) : List Nat := codeIf (2 ^ 9 ≤ v.toNat) 0xA300

/-- ALERT_CAUSE_CLEAR: w1c. -/
def alertFx (v : Word) (s : State) : State := { s with alertCause := s.alertCause &&& ~~~v }

/-- A write of alert_enable: ALERT_N is asserted where a cause that stands becomes an enabled one (R427, R429). -/
def alertEnableFx (v : Word) (s : State) : State :=
  let t := s.setReg .alertEnable v
  if !s.alertAsserted && t.alertAsserted then t.alertAssert else t

/- Versions (R436 to R438). -/

/-- A requester on the H port. -/
def onHost (r : Fin 5) : Bool := 3 ≤ r.val

/-- A declaration's fields. -/
def declBurlyn (v : Nat) : Nat := nbits v 31 24
def declAbi (v : Nat) : Nat := nbits v 15 8

/-- A declaration enters the T5 path (R437). -/
def declT5 (p : Fin 5) (v : Nat) : Bool := declBurlyn v = 2 && (!onHost p || declAbi v = 2)

/-- A declaration is native and accepted. -/
def declNative (p : Fin 5) (v : Nat) : Bool := if onHost p then declAbi v = 3 else declBurlyn v = 3

/-- The requester is on the T5 path. -/
def State.onT5 (s : State) (p : Fin 5) : Bool := declT5 p s.ports[p].accepted.toNat

/-- The codes of a write to if_declare by its own requester. -/
def declareCodes (p : Fin 5) (v : Nat) (s : State) : List Nat :=
  codeIf (!declNative p v && !declT5 p v) 0xA600 ++
  codeIf (onHost p && v ≠ s.ports[p].accepted.toNat && s.hub.queues.toList.any (·.enabled)) 0xA400

/-- IF_DECLARE: a native declaration clears t5_accept. -/
def declareFx (p : Fin 5) (v : Nat) (s : State) : State :=
  { s with ports := upd s.ports p fun x =>
      { x with declared := BitVec.ofNat 32 v, accepted := BitVec.ofNat 32 v, t5 := if declT5 p v then x.t5 else 0 } }

/-- T5_ACCEPT: the value ANDed with t5_offer. -/
def t5AcceptFx (p : Fin 5) (v : Nat) (s : State) : State :=
  { s with ports := upd s.ports p fun x => { x with t5 := BitVec.ofNat 16 v &&& 0x7F } }

end Sys2Proof.Machine
end

