-- ==== Sys2Proof/Machine/Grove.lean ====
section
/-! DEFINITION. Uteel links and the grove: training, retry, lane repair, fences, requests of other members, pairing, the timebase,
and the PCIe link's own events (R519 to R544). -/
namespace Sys2Proof.Machine
open Sys2Proof

/- Fences (R535). -/

/-- Change the grove. -/
def State.updGrove (s : State) (f : Grove → Grove) : State := { s with grove := f s.grove }

/-- Requests that a test picks are answered FENCED at once; transactions that it picks are discarded (R535). -/
def State.answerFenced (s : State) (p : Outstanding → Bool) (q : SentTxn → Bool) : State :=
  s.updGrove fun g =>
    { g with outstanding := g.outstanding.map fun o => if p o && o.answer.isNone then { o with answer := some (.fenced, []) } else o
             waiting := g.waiting.filter fun t => !q t }

/-- A write of peer_claims that waits for a pairing ends refused (R531). -/
def State.pairFails (s : State) (w : PairWait) : State :=
  (s.updGrove fun g => { g with pairs := g.pairs.erase w }).refuse w.requester (objNum (0x5820 + w.member.val) 1) false 0xA202

/-- Pairings with members that a test picks can no longer end well. -/
def State.dropPairs (s : State) (p : Nat → Bool) : State :=
  (s.grove.pairs.filter fun w => p w.member.val).foldl State.pairFails s

/-- A link is fenced: its outstanding requests are answered, its keys destroyed, a repair or a retrain abandoned (R535). -/
def State.fenceLink (s : State) (k : LinkId) : State :=
  let s := s.answerFenced (fun o => o.link = some k) fun t => t.link = k
  let s := s.updLink k fun l => { l with keys := none, unacked := [], retraining := false }
  s.dropPairs fun m => nbits (s.regN .groveRoute) (4 * m + 3) (4 * m) = k.val

/-- A link goes DOWN: LINK_DOWN is written, and its function fails (R535, R538). -/
def State.linkDown (s : State) (k : LinkId) (reason : Nat) : State :=
  let s := (s.fenceLink k).updLink k fun l => { l with state := .down, downReason := reason }
  (s.logRec 0x5801 3 5 k.val 0 (BitVec.ofNat 64 reason)).failService (rLink k.val)

/-- LINK_AUTH_FAIL (R538). -/
def State.logAuth (s : State) (k : LinkId) : State :=
  let (w0, s) := s.drawWord
  let (w1, s) := s.drawWord
  s.logRec 0x5802 4 5 k.val w0 w1

/-- A link is fenced without going DOWN: LINK_READY clears (R535). -/
def State.linkFenced (s : State) (k : LinkId) : State :=
  ((s.fenceLink k).updLink k fun l => { l with state := .fenced }).leaveService (rLink k.val)

/- link_control (R536). -/

/-- link_control as it reads. -/
def Link.control (l : Link) : Nat := bitN l.dateline 2 + bitN l.fence 1 + bitN l.enable 0

/-- link_status as it reads. -/
def Link.status (l : Link) : Nat :=
  l.peerMember * 2 ^ 44 + l.protocol * 2 ^ 40 + l.spareFor * 2 ^ 28 +
  (if l.state = .up then (if l.narrow then 4 else 8) else 0) * 2 ^ 24 + l.downReason * 16 + l.state.code

/-- The codes of a write to link_control. -/
def linkControlCodes (k : LinkId) (v : Nat) (s : State) : List Nat :=
  let l := s.linkUnits[k]
  codeIf (linksOf s.grade ≤ k.val) 0xA101 ++ codeIf (8 ≤ v) 0xA300 ++
  codeIf ((l.enable && v.testBit 2 ≠ l.dateline) || (l.fence && v.testBit 0 && !v.testBit 1) ||
    (v.testBit 0 && s.power.domainOff.getLsbD (94 + k.val))) 0xA400 ++
  codeIf (!s.foremanRuns 3) 0xA500

/-- Training starts afresh (R526). -/
def Link.train (l : Link) : Link :=
  { l with state := .training, downReason := 0, peerMember := 0, protocol := 0, peerSerial := 0, narrow := false, spareFor := 15,
           failedLanes := [], laneErrors := Vector.replicate 8 [], naks := 0, naksIn := 0, retrainsInRow := 0 }

/-- A write to link_control takes effect (R526, R535, R536): ENABLE falls, ENABLE rises, or FENCE rises. -/
def linkControlFx (k : LinkId) (v : Nat) (s : State) : State :=
  let l := s.linkUnits[k]
  let en := v.testBit 0
  let fe := v.testBit 1
  if l.enable && !en then
    ((s.fenceLink k).updLink k fun l => { l with state := .off, enable := false, fence := false, dateline := v.testBit 2 }).leaveService
      (rLink k.val)
  else
    let s := s.updLink k fun l => { l with enable := en, fence := fe && (en || !l.fence), dateline := v.testBit 2 }
    let s := if en && !l.enable then s.updLink k Link.train else s
    if fe && !l.fence && s.linkUnits[k].state ≠ .down then s.linkFenced k
    else if !en && l.fence then s.updLink k fun l => { l with state := .off }
    else s

/-- LINK_UP (R526): the end of the training and securing of an enabled link. -/
def linkUp (k : LinkId) (o : LinkOutcome) (s : State) : State :=
  if s.linkUnits[k].state ≠ .training || !s.foremanRuns 3 then s
  else
    match o with
    | .trainingFails => s.linkDown k 1
    | .authFails => (s.logAuth k).linkDown k 3
    | .up m p serial =>
      if m.val = s.member then
        let (w0, s) := s.drawWord
        let (w1, s) := s.drawWord
        ((s.logRec 0x5805 3 5 k.val w0 w1).updLink k fun l => { l with peerMember := m.val }).linkDown k 4
      else
        let (a, s) := s.drbgTake 32
        let (b, s) := s.drbgTake 32
        let s := s.updLink k fun l =>
          { l with state := .up, peerMember := m.val, protocol := min 2 p, peerSerial := serial, keys := some (a, b), keyAt := s.now,
                   keyGeneration := l.keyGeneration + 1, rxSeq := 0, txSeq := 0, unacked := [], credits := Vector.replicate 4 256 }
        s.reportReady (rLink k.val)

def execLinkUp (k : LinkId) (o : LinkOutcome) (s : State) : Host.Outcome State Fault Refusal := done s (linkUp k o s)

/-- grove_member_fence: the codes and the effect of a write (R535, R536). -/
def memberFenceCodes (v : Nat) (s : State) : List Nat := codeIf (v.testBit s.member) 0xA300 ++ codeIf (!s.foremanRuns 3) 0xA500

def memberFenceFx (v : Nat) (s : State) : State :=
  let s := s.setReg .groveMemberFence (BitVec.ofNat 64 v)
  (s.answerFenced (fun o => o.link.isSome && v.testBit o.member) fun t => v.testBit t.txn.dest.val).dropPairs v.testBit

/- Flits (R520, R523 to R525, R527). -/

/-- A retrain begins: the buffers are held (R523). -/
def State.retrain (s : State) (k : LinkId) : State :=
  (s.updLink k fun l => { l with retraining := true, naks := 0, naksIn := 0 }).bump .linkRetrains k.val

/-- Parity errors are counted per lane, over 10^9 ticks (R525). -/
def State.laneParity (s : State) (k : LinkId) (lanes : BitVec 8) : State :=
  let next := fun (old : List (BitVec 64)) (hit : Bool) =>
    let recent := old.filter fun t => (s.now - t).toNat < 1000000000
    if hit then recent ++ [s.now] else recent
  s.updLink k fun l => { l with laneErrors := Vector.ofFn fun i : Fin 8 => next l.laneErrors[i] (lanes.getLsbD i.val) }

/-- A flit's SEQ is covered by an ACK (R523). -/
def acked (ack q : BitVec 16) : Bool := (ack - q).toNat < 2 ^ 15

/-- An intact flit: ACK releases the replay buffer, credits return; a NAK starts a replay; a flit out of sequence is one that a
replay will bring again. -/
def State.goodFlit (s : State) (k : LinkId) (f : Flit) : State :=
  let receive := fun s : State => s.updLink k fun l =>
    { l with unacked := l.unacked.filter fun q => !acked f.ack q
             credits := upd l.credits f.creditClass fun c => min 256 (c + f.credits.toNat) }
  let l := s.linkUnits[k]
  if f.kind = 2 then
    let n := if l.nakFor = f.ack then l.naksIn + 1 else 1
    let s := ((receive s).updLink k fun l => { l with naksIn := n, nakFor := f.ack }).bump .linkReplays k.val
    if 16 ≤ n then s.retrain k else s.drainTxns
  else if f.seq ≠ l.rxSeq then s
  else (((receive s).updLink k fun l => { l with rxSeq := l.rxSeq + 1, naks := 0, naksIn := 0 }).bump .linkFlits k.val).drainTxns

/-- FLIT_RECEIVE (R523). -/
def flitReceive (k : LinkId) (f : Flit) (s : State) : State :=
  let l := s.linkUnits[k]
  if l.state ≠ .up || l.retraining then s
  else
    let s := s.laneParity k f.laneErrors
    if !f.crcOk then
      if 16 ≤ (l.naks + 1) then s.retrain k else s.updLink k fun l => { l with naks := l.naks + 1 }
    else if !f.tagOk then (s.linkFenced k).logAuth k
    else s.goodFlit k f

def execFlitReceive (k : LinkId) (f : Flit) (s : State) : Host.Outcome State Fault Refusal := done s (flitReceive k f s)

/-- LINK_RETRAIN_DONE (R523). -/
def linkRetrainDone (k : LinkId) (ok : Bool) (s : State) : State :=
  let l := s.linkUnits[k]
  if !l.retraining then s
  else if ok then (s.updLink k fun l => { l with retraining := false, retrainsInRow := 0 }).drainTxns
  else if 3 ≤ l.retrainsInRow + 1 then s.linkDown k 2
  else (s.updLink k fun l => { l with retrainsInRow := l.retrainsInRow + 1 }).bump .linkRetrains k.val

def execLinkRetrainDone (k : LinkId) (ok : Bool) (s : State) : Host.Outcome State Fault Refusal := done s (linkRetrainDone k ok s)

/-- LANE_REPAIRED (R525): a lane with 64 errors within 10^9 ticks is repaired by the link foreman; a lane that the spare cannot carry
narrows the link, or takes it DOWN. -/
def laneRepaired (k : LinkId) (lane : Fin 8) (s : State) : State :=
  let l := s.linkUnits[k]
  let recent := (l.laneErrors[lane].filter fun t => (s.now - t).toNat < 1000000000).length
  if l.state ≠ .up || l.retraining || recent < 64 || !s.foremanRuns 3 then s
  else
    let s := s.updLink k fun l => { l with laneErrors := upd l.laneErrors lane fun _ => [] }
    let (w, s) := s.drawWord
    if l.spareFor = 15 then
      (s.updLink k fun l => { l with spareFor := lane.val }).logRec 0x5803 2 5 k.val w (BitVec.ofNat 64 lane.val)
    else
      let bad := if l.failedLanes.contains lane.val then l.failedLanes else lane.val :: l.failedLanes
      let s := s.updLink k fun l => { l with failedLanes := bad }
      if (bad.any fun i => i < 4) && bad.any fun i => 4 ≤ i then s.linkDown k 5
      else
        let (v, s) := s.drawWord
        (s.updLink k fun l => { l with narrow := true }).logRec 0x5804 3 5 k.val w v

def execLaneRepaired (k : LinkId) (lane : Fin 8) (s : State) : Host.Outcome State Fault Refusal := done s (laneRepaired k lane s)

/-- LINK_REKEY (R527): after 2^32 flits, at 8 ns each, a new key pair is agreed. -/
def linkRekey (k : LinkId) (ok : Bool) (s : State) : State :=
  let l := s.linkUnits[k]
  if l.state ≠ .up || (s.now - l.keyAt).toNat < 2 ^ 35 then s
  else if ok then
    let (a, s) := s.drbgTake 32
    let (b, s) := s.drbgTake 32
    s.updLink k fun l => { l with keys := some (a, b), keyAt := s.now, keyGeneration := l.keyGeneration + 1 }
  else (s.logAuth k).linkDown k 3

def execLinkRekey (k : LinkId) (ok : Bool) (s : State) : Host.Outcome State Fault Refusal := done s (linkRekey k ok s)

/- Transactions that arrive (R530 to R535). -/

/-- A transaction from a link that is not up, or from a fenced member, is discarded. -/
def State.txnTaken (s : State) (k : LinkId) (t : LinkTxn) : Bool :=
  s.linkUnits[k].state = .up && !s.linkUnits[k].retraining && !(s.reg .groveMemberFence).getLsbD t.source.val

/-- A transaction leaves for its destination member; VC1 once it has crossed a dateline. Where there is no way it is dropped. -/
def State.routeTxn (s : State) (kind : TxnKind) (t : LinkTxn) (a : PeerAnswer) : State :=
  match s.linkTo t.dest.val with
  | some k => s.sendTxn ⟨k, kind, { t with vc1 := t.vc1 || s.linkUnits[k].dateline }, a⟩
  | none => s

/-- The answer to a request goes back to the member that sent it. -/
def State.answerTxn (s : State) (kind : TxnKind) (t : LinkTxn) (a : PeerAnswer) (data : List Byte) : State :=
  s.routeTxn kind { t with source := t.dest, dest := t.source, vc1 := false, data := data } a

/-- A request for another member is forwarded, or answered FENCED where there is no way (R530, R534). -/
def State.forwardReq (s : State) (kind back : TxnKind) (t : LinkTxn) : State :=
  if (s.linkTo t.dest.val).isSome then s.routeTxn kind t .ok else s.answerTxn back t .fenced []

/-- The outcome of a failed access, as an answer carries it (R534). -/
def peerFail : MemFail → PeerAnswer
  | .unmapped => .unmapped
  | .access => .access
  | .lost => .lost
  | .fenced => .fenced
  | .uncorrectable => .uncorrectable

/-- A request of member m in claim c is admitted (R531). -/
def State.admits (s : State) (t : LinkTxn) : Bool := (s.reg .peerClaims t.source.val).getLsbD t.claim.val

/-- READ_REQ (R521, R531). -/
def readReq (k : LinkId) (t : LinkTxn) (s : State) : State :=
  if !s.txnTaken k t then s
  else if t.dest.val ≠ s.member then s.forwardReq .readReq .readCpl t
  else if !s.admits t then s.answerTxn .readCpl t .access []
  else
    match s.readMem (.peer t.claim) t.addr t.len with
    | (.ok bs, s) => s.answerTxn .readCpl t .ok bs
    | (.error f, s) => s.answerTxn .readCpl t (peerFail f) []

def execReadReq (k : LinkId) (t : LinkTxn) (s : State) : Host.Outcome State Fault Refusal := done s (readReq k t s)

/-- A write is applied whole or not at all (R535): every burst's check comes first. -/
def State.peerWrite (s : State) (c : ClaimId) (a : Nat) (bs : List Byte) : Option MemFail × State :=
  match s.region a with
  | .dram d =>
    match (pieces d bs.length).findSome? fun p => s.checkDram (.peer c) .write p.1 with
    | some f => (some f, s)
    | none => s.writeMem (.peer c) a bs
  | _ => s.writeMem (.peer c) a bs

/-- Whether an address lies in the page of grove_signal_base (R532). -/
def State.inSignalPage (s : State) (a : Nat) : Bool :=
  let base := s.regN .groveSignalBase
  base ≠ 0 && base ≤ a && a < base + 16384

/-- The words of a signal write are added to their counters; false where one is not bound to the claim (R532). -/
def State.signalWords (s : State) (c : ClaimId) (off : Nat) (bs : List Byte) : Bool × State :=
  let first := (4 - off % 4) % 4
  (List.range ((bs.length - first) / 4)).foldl (fun (x : Bool × State) i =>
    let o := first + 4 * i
    let n := leNat ((bs.drop o).take 4)
    let ec := (off + o) / 4
    let b : BoughId := Fin.ofNat 4 (ec / 1024)
    if n = 0 || 4096 ≤ ec then x
    else if x.2.blockClaim false b (ec % 1024 / 64) = c.val then (x.1, x.2.addEvent b (ec % 1024) n)
    else (false, x.2)) (true, s)

/-- WRITE_TRANSACTION (R531, R532). -/
def writeTransaction (k : LinkId) (t : LinkTxn) (s : State) : State :=
  if !s.txnTaken k t then s
  else if t.dest.val ≠ s.member then s.forwardReq .write .writeAck t
  else if !s.admits t then s.answerTxn .writeAck t .access []
  else if s.inSignalPage t.addr then
    let (ok, s) := s.signalWords t.claim (t.addr - s.regN .groveSignalBase) t.data
    s.wake.answerTxn .writeAck t (if ok then .ok else .access) []
  else
    match s.peerWrite t.claim t.addr t.data with
    | (none, s) => s.answerTxn .writeAck t .ok []
    | (some f, s) => s.answerTxn .writeAck t (peerFail f) []

def execWriteTransaction (k : LinkId) (t : LinkTxn) (s : State) : Host.Outcome State Fault Refusal := done s (writeTransaction k t s)

/-- An answer finds its request, or is forwarded, or is discarded because its request has been answered (R530, R534, R535). -/
def takeAnswer (kind : TxnKind) (k : LinkId) (t : LinkTxn) (a : PeerAnswer) (s : State) : State :=
  if !s.txnTaken k t then s
  else if t.dest.val ≠ s.member then s.routeTxn kind t a
  else
    s.updGrove fun g => { g with outstanding := g.outstanding.map fun o =>
      if o.tag = t.tag && o.link.isSome && o.member = t.source.val && o.isWrite = decide (kind = .writeAck) && o.answer.isNone then
        { o with answer := some (a, t.data) } else o }

/-- READ_CPL (R534). -/
def execReadCpl (k : LinkId) (t : LinkTxn) (a : PeerAnswer) (s : State) : Host.Outcome State Fault Refusal :=
  done s (takeAnswer .readCpl k t a s)

/-- WRITE_ACK (R534). -/
def execWriteAck (k : LinkId) (t : LinkTxn) (a : PeerAnswer) (s : State) : Host.Outcome State Fault Refusal :=
  done s (takeAnswer .writeAck k t a s)

/- Pairing (R531). -/

/-- HMAC-SHA-384 (log entry 22). -/
def hmac384 (key m : List Byte) : List Byte :=
  let k := if 128 < key.length then sha384 key else key
  let k := k ++ List.replicate (128 - k.length) 0
  sha384 (k.map (· ^^^ 0x5C) ++ sha384 (k.map (· ^^^ 0x36) ++ m))

/-- The serial number of member m: the neighbour's, or one this part learns in the exchange. -/
def State.serialOf (s : State) (m : Nat) : BitVec 64 :=
  match s.linkUnits.toList.find? fun l => l.state = .up && l.peerMember = m with
  | some l => l.peerSerial
  | none => Config.memberSerial m

/-- The pairing tag of a model key with member m: 16 bytes of the HMAC over TT9-PAIR and the two serial numbers in ascending order;
in which byte order they stand is not stated, and taken as little-endian (log entry 22). -/
def State.pairTag (s : State) (key : List Byte) (m : Nat) : List Byte :=
  let a := Config.serialNumber.toNat
  let b := (s.serialOf m).toNat
  (hmac384 key ([0x54, 0x54, 0x39, 0x2D, 0x50, 0x41, 0x49, 0x52] ++ leBytes 8 (min a b) ++ leBytes 8 (max a b))).take 16

/-- Claims whose bit a write sets and that need a pairing first. -/
def State.toPair (s : State) (m : Fin 16) (v : Nat) : List ClaimId :=
  (List.range 16).filterMap fun i =>
    let c : ClaimId := Fin.ofNat 16 i
    if v.testBit i && !(s.reg .peerClaims m.val).getLsbD i && (s.claimState c).confidential then some c else none

/-- A route on which PAIR can travel: this part's hop speaks protocol 2 (R528). -/
def State.pairRoute (s : State) (m : Nat) : Bool :=
  match s.linkTo m with
  | some k => s.linkUnits[k].protocol = 2
  | none => false

/-- The codes of a write to peer_claims (R531, R536); a write waiting for its pairing keeps the next one busy. -/
def peerClaimsCodes (m : Fin 16) (v : Nat) (s : State) : List Nat :=
  let cs := s.toPair m v
  codeIf (m.val = s.member) 0xA300 ++
  codeIf (cs ≠ [] && (!s.pairRoute m.val || cs.any fun c => (s.claim c).modelKey.isNone)) 0xA202 ++
  codeIf (s.grove.pairs.any fun w => w.member = m) 0xA500

/-- A write to peer_claims: applied at once, or once every pairing has ended well. -/
def peerClaimsFx (r : Requester) (m : Fin 16) (v : Nat) (s : State) : Bool × State :=
  match s.toPair m v with
  | [] => (true, s.setReg .peerClaims (BitVec.ofNat 64 v) m.val)
  | cs => (false, s.updGrove fun g => { g with pairs := g.pairs ++ [⟨m, r, BitVec.ofNat 16 v, cs⟩] })

/-- PAIR (R531): the exchange with member m about claim c ends. -/
def pair (m : Fin 16) (c : ClaimId) (peerSealed : Bool) (peerTag : List Byte) (s : State) : State :=
  match s.grove.pairs.find? fun w => w.member = m && w.left.contains c with
  | none => s
  | some w =>
    let good := match (s.claim c).modelKey with
      | some key => peerSealed && s.pairTag key m.val = peerTag
      | none => false
    if !good then s.pairFails w
    else
      let left := w.left.filter (· ≠ c)
      if left = [] then
        ((s.updGrove fun g => { g with pairs := g.pairs.erase w }).setReg .peerClaims (w.value.setWidth 64) m.val).countDone w.requester
      else s.updGrove fun g => { g with pairs := g.pairs.map fun x => if x = w then { w with left := left } else x }

def execPair (m : Fin 16) (c : ClaimId) (peerSealed : Bool) (peerTag : List Byte) (s : State) : Host.Outcome State Fault Refusal :=
  done s (pair m c peerSealed peerTag s)

/- Time (R533). -/

/-- The time source's link, where this part has one that carries TIME. -/
def State.timeLink (s : State) : Option LinkId :=
  let e := s.regN .groveTimeSource
  if e < 4 && s.linkUnits[(Fin.ofNat 4 e)].state = .up && s.linkUnits[(Fin.ofNat 4 e)].protocol = 2 then some (Fin.ofNat 4 e) else none

/-- An offset as S16, saturating (R536). -/
def satS16 (v : Int) : BitVec 16 := BitVec.ofInt 16 (max (-32768) (min 32767 v))

/-- TIME_EXCHANGE (R533), every 1,000,000 ticks: the offset is the source's time less this part's. The first measurement steps a timebase that is behind;
afterwards the rate alone corrects it. How many hops lie to the source, and so the bound of the lock, is free. -/
def timeExchange (offset : Int) (s : State) : State :=
  if s.timeLink.isNone || !s.due s.grove.timeAt 1000000 then s
  else
    let (w, s) := s.drawWord
    let hops : Int := (w.toNat % 15 + 1 : Nat)
    let first := !s.grove.stepped
    let s := if first && 0 < offset then { s with now := s.now + BitVec.ofInt 64 offset } else s
    let rest := if first && 0 < offset then 0 else offset
    s.updGrove fun g =>
      { g with stepped := true, timeAt := some s.now, timeOffset := satS16 offset, rate := if 0 < rest then 200 else if rest < 0 then -200 else 0,
               timeLocked := -(10 + 10 * hops) ≤ rest && rest ≤ 10 + 10 * hops }

def execTimeExchange (offset : Int) (s : State) : Host.Outcome State Fault Refusal := done s (timeExchange offset s)

/- grove_member, grove_route and the others (R529, R530, R536). -/

/-- The codes of the plain objects of the grove. -/
def groveCodes (o : Ob) (v : Nat) (s : State) : List Nat :=
  match o with
  | .groveMember =>
    codeIf (15 < v) 0xA300 ++ codeIf (s.linkUnits.toList.any fun l => l.state ≠ .down && l.state ≠ .off) 0xA400
  | .groveRoute =>
    codeIf ((List.range 16).any fun m =>
      let e := nbits v (4 * m + 3) (4 * m)
      e ≠ 15 && (m = s.member || linksOf s.grade ≤ e)) 0xA300
  | .groveSignalBase => codeIf (v % 16384 ≠ 0 || 2 ^ 37 ≤ v) 0xA300
  | .groveTimeSource => codeIf (v ≠ 15 && linksOf s.grade ≤ v) 0xA300
  | _ => []

/-- grove_time_status as it reads (R536). -/
def State.timeStatus (s : State) : Nat := s.grove.timeOffset.toNat * 2 ^ 16 + bitN s.grove.timeLocked 0

/- The PCIe link (R539 to R544). -/

/-- PCIE_COMPLETION_TIMEOUT (R543): an outbound request that has waited 50 ms is answered as a failed access. -/
def pcieCompletionTimeout (tag : Nat) (s : State) : State :=
  s.updGrove fun g => { g with outstanding := g.outstanding.map fun o =>
    if o.tag = tag && o.link.isNone && o.answer.isNone && 50000000 ≤ (s.now - o.sentAt).toNat then { o with answer := some (.access, []) } else o }

def execPcieCompletionTimeout (tag : Nat) (s : State) : Host.Outcome State Fault Refusal := done s (pcieCompletionTimeout tag s)

/-- A port's link is not up any more: outbound requests through it are answered FENCED (R541, R543). -/
def State.pcieLinkLost (s : State) : State := s.pciePortsDown.leaveService rPcie

/-- PCIE_LINK_RESET (R541, R543): the configuration and MSI-X state of the endpoint's function are cleared; a hot reset and the loss of
the link also take the link down. A root port has no such function, and its links can be lost as well. -/
def pcieLinkReset (k : PcieResetKind) (s : State) : State :=
  if s.pcie.strap ≠ 0 then (if k = .linkLoss then s.pcieLinkLost else s)
  else
    let s := { s with pcie := { s.pcie with msix := Vector.replicate 65 {}, pendingBits := 0 } }
    match k with
    | .hotReset | .linkLoss => s.pcieLinkLost
    | .flr | .d3hot => s

def execPcieLinkReset (k : PcieResetKind) (s : State) : Host.Outcome State Fault Refusal := done s (pcieLinkReset k s)

/-- PCIE_LINK_UP (R541): a port of the strapped mode trains. PCIE_READY sets with the first port that is up: R36 does not say whether a
mode of two ports needs both (DESIGN CHOICE, log entry 58). -/
def pcieLinkUp (port : Fin 2) (width speed : BitVec 4) (s : State) : State :=
  if s.porstLow || s.crown = .powerOn || s.pcie.strap = 3 || (port = 1 && s.pcie.strap ≠ 2) || s.power.domainOff.getLsbD 98 then s
  else
    let p := s.pcie
    ({ s with pcie := { p with up := upd p.up port fun _ => true, width := upd p.width port fun _ => width,
                               speed := upd p.speed port fun _ => speed } }).reportReady rPcie

def execPcieLinkUp (port : Fin 2) (width : BitVec 4) (speed : BitVec 4) (s : State) : Host.Outcome State Fault Refusal :=
  done s (pcieLinkUp port width speed s)

/-- pcie_status as it reads (R544). -/
def Pcie.status (p : Pcie) : Nat :=
  p.width[1].toNat * 2 ^ 20 + p.speed[1].toNat * 2 ^ 16 + p.width[0].toNat * 2 ^ 12 + p.speed[0].toNat * 2 ^ 8 +
  bitN p.up[1] 1 + bitN p.up[0] 0

end Sys2Proof.Machine
end

