-- ==== Sys2Proof/Machine/Dictionary.lean ====
section
/-! DEFINITION. What the objects of the dictionary read as (R405 to R411, R428, R435 to R440 and each chapter's own table), and the T5
layout (R438, R439). -/
namespace Sys2Proof.Machine
open Sys2Proof

/- Values of short objects. -/

/-- vendor_name and part_name (R440), padded with zero bytes (R407): "Maltum" and "Thirratre T9". -/
def vendorName : List Byte := [0x4D, 0x61, 0x6C, 0x74, 0x75, 0x6D, 0, 0]
def partName : List Byte := [0x54, 0x68, 0x69, 0x72, 0x72, 0x61, 0x74, 0x72, 0x65, 0x20, 0x54, 0x39, 0, 0, 0, 0]

/-- grade (R440). -/
def gradeCode : Grade → Nat
  | .a128 => 0 | .b128 => 1 | .c64 => 2

/-- port_status (R418). -/
def Port.status (p : Port) : Nat :=
  p.done.toNat * 2 ^ 56 + p.refused.toNat * 2 ^ 48 + bitN p.lastWasRead 40 + p.lastObj.toNat * 2 ^ 16 + p.lastCode.toNat

/-- block_status (R419). -/
def Block.status (b : Block) : Nat := b.crc.toNat * 2 ^ 32 + b.code.toNat * 2 ^ 16 + b.state.code

/-- wq_status and wq_oldest (R375). -/
def WorkQueue.status (w : WorkQueue) : Nat :=
  bitN w.enabled 63 + bitN w.recordBlocked 62 + w.refusal % 256 * 2 ^ 40 + w.refusedAt.toNat

def State.wqOldest (s : State) (q : QueueId) : Nat :=
  match s.oldestJob q with
  | none => 0
  | some j => s.jobState j * 2 ^ 60 + j.touched.toNat * 2 ^ 56 + j.seq.toNat

/-- wc_owner (R213). -/
def WorkCtr.owner (c : WorkCtr) : Nat := bitN c.busy 63 + c.iter % 65536 * 2 ^ 32 + c.handle % 64 * 2 ^ 24 + c.desc % 2 ^ 24

/-- hq_status (R270): WAITING counts the jobs that wait to take or reserve. -/
def State.hqStatus (s : State) (b : BoughId) (q : HqPos) : Nat :=
  let h := s.hq b q
  let waits := fun (j : Job) => j.decision.isNone &&
    ((j.take = some (b, q) && j.taken.isNone) || (j.post = some (b, q) && j.reserved.isNone))
  bitN h.bound 63 + min 255 (s.hub.jobs.filter waits).length * 2 ^ 32 + h.filling.length * 2 ^ 24 + h.held.length * 2 ^ 16 +
  h.free.length * 2 ^ 8 + h.queued.length

/-- Counters and external trace are open (R122, R496). -/
def State.profilingOpen (s : State) : Bool := !s.confidentialOpen && s.sec.claims.toList.all fun c => c.wait ≠ .makeKeys

/-- image_info of a type (R469). -/
def State.imageInfo (s : State) (t : Nat) : Nat :=
  let e := s.nv.entry t
  let h := parseHeader (s.nv.flashRead (slotBase t e.active) 64)
  h.fwVersion * 2 ^ 32 + h.secVersion * 2 ^ 16 + s.nv.secCounter[(Fin.ofNat 8 (t - 1))] * 2 ^ 8 +
  bitN (s.boot.loaded[(Fin.ofNat 8 (t - 1))] && (6 < t || s.foremanRuns (foremanOf t))) 3 + e.bits

/-- foreman_status (R469). -/
def State.foremanStatus (s : State) (f : Nat) : Nat :=
  let x := s.boot.foremen[(Fin.ofNat 5 f)]
  bitN x.trial 7 + bitN x.slot 6 + bitN (s.foremanBusy f) 3 + x.state.code

/-- One bit per unit for which a test holds. -/
def maskWhere (n : Nat) (p : Nat → Bool) : Nat := (List.range n).foldl (fun a i => a + bitN (p i) i) 0

/-- The value of a crown, port or queue object as a number; `none` where another list gives it. -/
def State.valueCore (s : State) (h : Hit) : Option Nat :=
  let p : Fin 5 := Fin.ofNat 5 h.a
  let q : QueueId := Fin.ofNat 64 h.a
  match h.ob with
  | .vendorName => some (leNat vendorName)
  | .grade => some (gradeCode s.grade)
  | .siliconStep => some Config.siliconStep.toNat
  | .serialNumber => some Config.serialNumber.toNat
  | .presentBranches => some (presentBranches s.grade)
  | .presentLinks => some (presentLinks s.grade)
  | .presentCameras => some (presentCameras s.grade)
  | .ifDeclare => some s.ports[p].declared.toNat
  | .ifAccepted => some s.ports[p].accepted.toNat
  | .portStatus => some s.ports[p].status
  | .frameErrors => some s.ports[p].frameErrors.toNat
  | .blockStatus => some s.ports[p].blk.status
  | .t5Accept => some s.ports[p].t5.toNat
  | .canStatus => some (if s.can[(Fin.ofNat 2 h.a)].busOff then 2 else bitN (Config.canPassive h.a s.now.toNat) 0)
  | .crownState => some s.crown.code
  | .readiness => some s.readiness.toNat
  | .readinessFailed => some s.readyFailed.toNat
  | .readinessExpected => some s.expected.toNat
  | .crownStateTime => some s.crownTime.toNat
  | .alertCause => some s.alertCause.toNat
  | .alertEnable => some s.alertEnable.toNat
  | .wqEnable => some (bitN (s.wq q).enabled 0)
  | .wqStatus => some (s.wq q).status
  | .wqOldest => some (s.wqOldest q)
  | .journalEpoch => some (if s.ready rWorkHub then s.hub.epoch.toNat else 0)
  | .journalInFlight => some s.hub.jobs.length
  | .loadStatus => some (s.hub.loadState * 2 ^ 24 + s.hub.loadHandle * 2 ^ 8)
  | .loadDetail => some s.hub.loadDetail.toNat
  | .bundlesLoaded => some (maskWhere 64 fun i => s.hub.bundles.any fun b => b.handle.val = i)
  | .fwUpdateStatus => some (s.boot.updCode.toNat * 2 ^ 16 + s.boot.updType.toNat * 2 ^ 8 + s.boot.updState.code)
  | .keyRevoked => some s.nv.revoked.toNat
  | .hostL2Lock => some (bitN s.boot.l2Lock 0)
  | .foremanStatus => some (s.foremanStatus h.a)
  | .foremanVersion => some s.boot.foremen[p].version.toNat
  | .measurementCount => some s.boot.measures.length
  | .imageInfo => some (s.imageInfo (h.a + 1))
  | .logNextSeq => some s.log.nextSeq.toNat
  | _ => none

/-- The value of an object of the boughs, seams and media. -/
def State.valueEngines (s : State) (h : Hit) : Option Nat :=
  let b : BoughId := Fin.ofNat 4 h.a
  let c := s.ctr b h.k
  match h.ob with
  | .boughState => some (s.boughCode b)
  | .eventCounter => some (s.event b (h.b * 256 + h.k)).toNat
  | .wcNext => some c.next
  | .wcEnd => some c.stop
  | .wcDone => some c.done
  | .wcOwner => some c.owner
  | .hqBind => some (bitN (s.hq b (Fin.ofNat 32 h.b)).bound 0)
  | .hqStatus => some (s.hqStatus b (Fin.ofNat 32 h.b))
  | .seamStatus => some (s.seamStatus (Fin.ofNat 16 h.a))
  | .dramGroupMode => some s.groups[b].mode.code
  | .dramGroupBusy => some (bitN (s.groups[b].changing.isSome || s.groups[b].enHold) 0)
  | .csiStatus => some s.cameras[(Fin.ofNat 16 h.a)].status
  | .ipipeStatus => some s.pipes[(Fin.ofNat 2 h.a)].status
  | .spStatus => some s.sample.status
  | _ => none

/-- The value of a power, link, security or PCIe object. -/
def State.valueSystem (s : State) (h : Hit) : Option Nat :=
  let l := s.linkUnits[(Fin.ofNat 4 h.a)]
  let c := s.claim (Fin.ofNat 16 h.a)
  match h.ob with
  | .coreVNow => some s.power.coreNow
  | .sramVNow => some s.power.sramNow
  | .bucketLevel => some (s.power.bucket / 10000000)
  | .capStatus => some s.capStatus
  | .powerNow => some (s.power.total / 1000)
  | .powerLinks => some (s.power.links / 1000)
  | .powerMemory => some (s.power.memory / 1000)
  | .powerCompute => some (s.power.compute / 1000)
  | .tempMax => some (BitVec.ofInt 16 s.tempMax).toNat
  | .domainOnLo => some (s.domainOn % 2 ^ 64)
  | .domainOnHi => some (s.domainOn / 2 ^ 64)
  | .domainOffLo => some (s.power.domainOff.toNat % 2 ^ 64)
  | .domainOffHi => some (s.power.domainOff.toNat / 2 ^ 64)
  | .wearSeconds => some (s.power.wearTicks / 1000000000)
  | .vrAlertState => some s.power.vrAlert.toNat
  | .groveTimeStatus => some s.timeStatus
  | .linkControl => some l.control
  | .linkStatus => some l.status
  | .linkPeerSerial => some l.peerSerial.toNat
  | .pcieMode => some s.pcie.strap
  | .pcieStatus => some s.pcie.status
  | .pcieIds => some (Config.pcieIds.toNat % 2 ^ 16 + 0x0009 * 2 ^ 16)
  | .confidentialOpen => some (maskWhere 16 fun i => (s.claimState (Fin.ofNat 16 i)).confidential)
  | .debugState => some (bitN s.jtagOpen 0 + bitN s.nv.debugLocked 1 + bitN s.profilingOpen 2)
  | .lmsLeavesUsed => some s.nv.lmsUsed
  | .claimState => some c.state.code
  | .claimFlags => some (bitN c.pcieOut 0)
  | .segStatus => some s.sec.segStatus.code
  | .sessionStatus => some (c.sessCode * 16 + c.sessState.code)
  | .cryptStatus => some (s.sec.cryptDone % 2 ^ 48 * 2 ^ 16 + s.sec.cryptCode * 16 + s.sec.cryptState.code)
  | _ => none

/-- The value of a short object: a write-only one reads zero (R19), any other not listed is a plain register or counter. -/
def State.value (s : State) (h : Hit) : Nat :=
  if h.ob.row.acc = .wo then 0
  else
    match s.valueCore h with
    | some v => v
    | none =>
      match s.valueEngines h with
      | some v => v
      | none =>
        match s.valueSystem h with
        | some v => v
        | none => s.regN h.ob h.a h.b h.k

/- Bytes of block objects. -/

/-- Byte i of a block object; a write-only one reads zero. -/
def State.blockByte (s : State) (h : Hit) (i : Nat) : Byte :=
  match h.ob with
  | .partName => partName.getD i 0
  | .orderCode => (orderCode s.grade).getD i 0
  | .i2cResult => (s.i2c[(Fin.ofNat 8 h.a)].result).getD i 0
  | .tempSensors => (leBytes 2 (s.power.temps[(Fin.ofNat 64 (i / 2))]).toNat).getD (i % 2) 0
  | .identityCert => Config.identityCert i
  | .segmentTable => (leBytes 4 ((s.seg (i / 4)).word (segAbsent s.grade (i / 4)))).getD (i % 4) 0
  | .attestReport => ((s.claim (Fin.ofNat 16 h.a)).report).getD i 0
  | .measurementLog => ((s.boot.measures[i / 64]?).map fun m => m.bytes.getD (i % 64) 0).getD 0
  | .errorLog => ((s.log.ring.find? fun r => r.seq.toNat % 512 = i / 32).map fun r => r.bytes.getD (i % 32) 0).getD 0
  | .flashLog => s.nv.flashByte (0x20000 + i)
  | _ => 0

/- The T5 layout (R438, R439). -/

/-- The T5 objects. -/
inductive T5Ob where
  | name | order | serial | offer | state | temp | cap | camera | log | reset
  deriving DecidableEq, Repr

/-- The feature bit, the native object it is a view of, and its type. -/
def T5Ob.info : T5Ob → Nat × Ob × ObTy
  | .name => (0, .partName, .text 8)
  | .order => (0, .orderCode, .text 8)
  | .serial => (0, .serialNumber, .u64)
  | .offer => (0, .ifOffer, .u64)
  | .state => (1, .crownState, .u8)
  | .temp => (2, .tempMax, .s16)
  | .cap => (3, .capSustained, .u16)
  | .camera => (4, .csiConfig, .u8)
  | .log => (5, .errorLog, .domain 16384)
  | .reset => (6, .boughReset, .u8)

/-- The T5 object at an index and subindex. -/
def t5Find (idx sub : Nat) : Option T5Ob :=
  if idx = 0x0100 then [T5Ob.name, .order, .serial, .offer][sub - 1]?.filter fun _ => 1 ≤ sub
  else if idx = 0x0200 && sub = 1 then some .state
  else if idx = 0x0300 && sub = 1 then some .temp
  else if idx = 0x0301 && sub = 1 then some .cap
  else if idx = 0x0400 && sub = 1 then some .camera
  else if idx = 0x0500 && sub = 0 then some .log
  else if idx = 0x0600 && sub = 1 then some .reset
  else none

/-- crown_state in the T5 encoding (R439). -/
def t5State : CrownState → Nat
  | .powerOn => 0
  | .early | .bringup => 1 | .operational => 2 | .degraded => 3 | .quiescing | .sleep => 4 | .recovery | .halted => 5

/-- What an access names: an object of the native layout, or a T5 view of one. -/
structure Target where
  hit : Hit
  t5 : Option T5Ob
  deriving DecidableEq, Repr

/-- Type of what is accessed. -/
def Target.ty (t : Target) : ObTy :=
  match t.t5 with
  | some o => o.info.2.2
  | none => t.hit.ob.row.ty

/-- The object that requester p reaches at an index and subindex: on the T5 path the T5 objects it has accepted and the interface
objects of R436 alone. -/
def State.target (s : State) (p : Fin 5) (idx sub : Nat) : Option Target :=
  let native := (findObj idx sub).map fun h => (⟨h, none⟩ : Target)
  if !s.onT5 p then native
  else
    match t5Find idx sub with
    | some o => if s.ports[p].t5.getLsbD o.info.1 then some ⟨⟨o.info.2.1, 0, 0, 0⟩, some o⟩ else none
    | none => if idx = 0x1100 || (0x1110 ≤ idx && idx ≤ 0x1114) then native else none

/-- The value of a short target. -/
def State.targetValue (s : State) (t : Target) : Nat :=
  match t.t5 with
  | none => s.value t.hit
  | some .name => leNat (partName.take 8)
  | some .order => leNat ((orderCode s.grade).take 8)
  | some .state => t5State s.crown
  | some .camera => maskWhere 8 s.camOn
  | some .reset => 0
  | some _ => s.value t.hit

/- Checks common to every access (R4, R408, R409, R453, R464, R466). -/

/-- The unit of an object is absent in the grade (R4). -/
def Hit.absent (h : Hit) (g : Grade) : Bool :=
  match h.ob with
  | .branchHaulerLimit | .leafSteps | .leafFrozenFeed | .leafFrozenDrain | .leafFrozenEscape | .leafFrozenGang | .bankConflicts
  | .branchCountersClear => branchesOf g ≤ h.b
  | .csiConfig | .csiStatus | .csiFrames | .csiFramesDropped | .csiPacketsDiscarded | .csiEccCorrected | .ipipePortConfig
  | .pyramidRatiosLo | .pyramidRatiosHi | .ipipeParamAddr | .encConfig | .encPicRing | .encBsBase | .encBsSize | .encBsWrite | .encBsRead
  | .encSkipped | .encDiscarded => camerasOf g ≤ h.a
  | .linkControl | .linkStatus | .linkPeerSerial | .linkFlits | .linkReplays | .linkRetrains => linksOf g ≤ h.a
  | _ => false

/-- An access denied in confidential mode (R122, R145, R213, R353, R373). R214 and R373 put R122 on the counters and R121 alone on their
clear objects, so those are not denied. -/
def State.denied (s : State) (h : Hit) : Bool :=
  let b : BoughId := Fin.ofNat 4 h.a
  let bound := fun (work : Bool) (k : Nat) => (s.claimState (Fin.ofNat 16 (s.blockClaim work b k))).confidential
  match h.ob with
  | .leafSteps | .leafFrozenFeed | .leafFrozenDrain | .leafFrozenEscape | .leafFrozenGang | .bankConflicts | .branchCountersClear
  | .sortOps | .sortBusySteps | .sortCountersClear | .wcClaims | .wcSentinels | .wcPointsSkipped | .seamMaxDebt
  | .seamForcedSweeps | .seamInOrderEvents | .seamPanicRequests | .seamRmw | .forcedWins | .sliceHits | .sliceMisses | .sliceWritebacks
  | .sliceCe | .sliceUe => !s.profilingOpen
  | .eventCounter => bound false ((h.b * 256 + h.k) / 64)
  | .wcNext | .wcEnd | .wcDone | .wcOwner => bound true (h.k / 16)
  | _ => false

/-- Objects that RECOVERY serves (R466). -/
def recoveryServes (idx : Nat) (h : Hit) : Bool :=
  idx = 0x1000 ||
  match h.ob with
  | .crownState | .fwUpdateStatus | .keyRevoked | .imageInfo | .measurementLog | .errorLog | .logNextSeq | .logOverwritten | .flashLog
  | .flashLogErase => true
  | _ => false

/-- Indices that the boot foreman serves until the hub foreman runs (R453). -/
def earlyServes (idx : Nat) : Bool := (0x1000 ≤ idx && idx ≤ 0x12FF) || (0x7000 ≤ idx && idx ≤ 0x78FF)

/-- The codes that apply to any access of a requester to a target. -/
def State.gateCodes (s : State) (r : Requester) (idx : Nat) (t : Target) : List Nat :=
  codeIf (t.hit.absent s.grade) 0xA101 ++ codeIf (!t.hit.ob.row.ports.testBit (reqPort r)) 0xA201 ++ codeIf (s.denied t.hit) 0xA202 ++
  codeIf (s.crown = .recovery && (r ≠ .burlyn || !recoveryServes idx t.hit)) 0xA400 ++
  codeIf (s.crown = .early && !s.foremanRuns 4 && !earlyServes idx) 0xA500

/-- The hub foreman is stopped where it is the one that serves (R453, R464). -/
def State.hubStopped (s : State) : Bool := !s.foremanRuns 4 && s.crown ≠ .early && s.crown ≠ .recovery

/-- A requester's port serves (R412, R422, R424, R431): none does in POWER_ON; a CAN controller while CAN_READY is 1. -/
def State.serves (s : State) (r : Requester) : Bool :=
  !s.porstLow && s.crown ≠ .powerOn &&
  match r with
  | .can0 => s.ready rCan && !s.can[(0 : Fin 2)].busOff
  | .can1 => s.ready rCan && !s.can[(1 : Fin 2)].busOff
  | _ => true

/- Reads (R409, R415). -/

/-- A short read: the value, and the code, recorded where it is refused. -/
def State.readObj (s : State) (r : Requester) (idx sub sel : Nat) (extra : List Nat) : Nat × Nat × State :=
  match s.target (reqNum r) idx sub with
  | none => (0, 0xA100, s.refuse r (objNum idx sub) true 0xA100)
  | some t =>
    match firstCode (s.gateCodes r idx t ++ codeIf (!t.ty.short) 0xA301 ++ codeIf (sel ≠ 0) 0xA300 ++ extra) with
    | some c => (0, c, s.refuse r (objNum idx sub) true c)
    | none => (s.targetValue t % 2 ^ (8 * t.ty.size), 0, s)

end Sys2Proof.Machine
end

