-- ==== Sys2Proof/Machine/Trunk.lean ====
section
/-! DEFINITION. The trunk and the system cache (R356 to R374): requests at the slices, replacement, the early window. -/
namespace Sys2Proof.Machine
open Sys2Proof

/-- The slice of a DRAM address (R357). -/
def sliceOf (a : Nat) : Fin 8 := Fin.ofNat 8 (2 * (a / 2 ^ 35) + a / 1024 % 2)

/-- The slice of an offset in the early window (R365). -/
def earlySlice (o : Nat) : Fin 8 := Fin.ofNat 8 (o / 128)

/-- The line number within its slice, and its set (R359). -/
def lineNumber (a : Nat) : Nat := a % 2 ^ 35 / 2048 * 8 + a % 1024 / 128
def setOf (a : Nat) : Nat := lineNumber a % 1536

/-- Ways that cache DRAM: the early window takes the upper ones (R365). -/
def State.ways (s : State) : Nat := 16 - s.regN .cacheEarlyWays

/-- The line at a set and way. -/
def Slice.at (q : Slice) (set way : Nat) : Option Line := SMap.get none q.lines (set * 16 + way)

def Slice.put (q : Slice) (set way : Nat) (l : Option Line) : Slice := { q with lines := SMap.set none q.lines (set * 16 + way) l }

/-- The way that holds a line. -/
def Slice.find (q : Slice) (set base ways : Nat) : Option Nat :=
  (List.range ways).find? fun w => (q.at set w).any fun l => l.addr = base

/-- Nodes of the replacement tree on the path to a way, from the root, with the side taken (R359): node n has children 2n + 1 and
2n + 2, and the 16 ways hang under nodes 7 to 14. -/
def treePath (way : Nat) : List (Nat × Bool) :=
  let b3 := way.testBit 3
  let b2 := way.testBit 2
  let b1 := way.testBit 1
  let n1 := if b3 then 2 else 1
  let n2 := 2 * n1 + (if b2 then 2 else 1)
  let n3 := 2 * n2 + (if b1 then 2 else 1)
  [(0, b3), (n1, b2), (n2, b1), (n3, way.testBit 0)]

/-- A way is used: every node on its path points away from it. -/
def touchTree (t : BitVec 15) (way : Nat) : BitVec 15 := (treePath way).foldl (fun t p => setBit t p.1 (!p.2)) t

/-- The way that the tree points to among the first `ways`: a side with no usable way is passed over. -/
def treeVictim (t : BitVec 15) (ways : Nat) : Nat :=
  let step := fun (node lo half : Nat) =>
    let right := t.getLsbD node && lo + half < ways
    (2 * node + (if right then 2 else 1), if right then lo + half else lo)
  let (n1, l1) := step 0 0 8
  let (n2, l2) := step n1 l1 4
  let (n3, l3) := step n2 l2 2
  (step n3 l3 1).2

/-- The way a new line takes: an empty one, or the tree's (log entry 20). -/
def Slice.victim (q : Slice) (set ways : Nat) : Nat :=
  match (List.range ways).find? fun w => (q.at set w).isNone with
  | some w => w
  | none => treeVictim (SMap.get 0 q.plru set) ways

/-- A way of a set is used. -/
def Slice.use (q : Slice) (set way : Nat) : Slice :=
  { q with plru := SMap.set 0 q.plru set (touchTree (SMap.get 0 q.plru set) way) }

/-- A line is allocated: a dirty victim is written back and counted. -/
def State.allocate (s : State) (k : Fin 8) (l : Line) : State :=
  let q := s.slices[k]
  let set := setOf l.addr
  let w := q.victim set s.ways
  let s := if (q.at set w).any (·.dirty) then s.count 1 .sliceWritebacks k.val else s
  s.updSlice k fun q => (q.put set w (some l)).use set w

/-- The slice's array domain is on (R364). -/
def State.sliceOn (s : State) (k : Fin 8) : Bool := !s.power.domainOff.getLsbD (48 + k.val)

/-- A slice's answer to a request. -/
def State.sliceAnswer (s : State) (k : Fin 8) (stamp : Nat) (a : MemAnswer) : State := s.updSlice k fun q => { q with answers := q.answers ++ [(stamp, a)] }

/- The trunk's points (R356, R357, R367, R374): a request waits at its port, then at its slice, and a read that misses at its bough's port
towards the bough. -/

/-- The port by which a request enters the trunk, as its bit of starve_flags, and its input there (R373, R374). -/
def entryPort : Entry → Nat × Nat
  | .bough b i => (24 + b.val, i.val)
  | .host => (32, 0)
  | .media e => (33, e.val)
  | .external i => (34, i.val)

/-- A port's input at every slice (R374). -/
def sliceInput (port : Nat) : Nat := if port < 28 then port - 24 else port - 28

/-- Requests that wait at a point, oldest first. -/
def State.waiting (s : State) (p : Nat) : List TrunkReq := SMap.get [] s.trunk p

/-- A request joins those of a point. -/
def State.enterPoint (s : State) (p : Nat) (r : TrunkReq) : State := { s with trunk := SMap.set [] s.trunk p (s.waiting p ++ [r]) }

def TrunkReq.bid (r : TrunkReq) : Bid := ⟨r.stamp, r.input, r.panic⟩

/-- A point decides among the requests that wait there (R367, R369). -/
def State.pointTake (s : State) (p : Nat) : Option TrunkReq × State :=
  let l := s.waiting p
  match (s.grants p (l.map TrunkReq.bid)).bind fun x => (l.find? fun r => r.stamp = x.1.stamp).map fun r => (r, x.2) with
  | none => (none, s)
  | some (r, forced) =>
    let s := s.decides p (l.map TrunkReq.bid) r.bid forced
    (some r, { s with trunk := SMap.set [] s.trunk p (l.filter fun x => x.stamp ≠ r.stamp) })

/-- The bytes that a request moves. -/
def accessSize (len : Nat) : AccessKind → Nat
  | .write bs => bs.length
  | .read | .fetch => len

/-- Where an address is served: by a slice, at a device address (R357, R365). -/
def State.sliceFor (s : State) (m : MemRequest) : Option (Fin 8 × MemRequest) :=
  let n := accessSize m.len m.kind
  let r := s.region m.addr
  if n = 0 || 128 < m.addr % 128 + n || !reachesRow m.who m.addr r then none
  else
    match r with
    | .dram a => some (sliceOf a, { m with addr := a })
    | .early o => some (earlySlice o, m)
    | _ => none

/-- A request arrives at its port; one that no slice serves is none of the trunk's. -/
def State.trunkArrive (s : State) (m : MemRequest) : State :=
  match s.sliceFor m with
  | none => s
  | some (_, m) =>
    let (p, i) := entryPort m.entry
    { s.enterPoint p ⟨s.trunkStamp, i, m, s.marks m⟩ with trunkStamp := s.trunkStamp + 1 }

/-- A port passes a request to its slice. -/
def State.portDecide (s : State) (p : Nat) : State :=
  match s.pointTake p with
  | (none, s) => s
  | (some r, s) =>
    match s.sliceFor r.req with
    | none => s
    | some (k, _) => s.enterPoint (16 + k.val) { r with input := sliceInput p }

/-- Bytes of a cached line as a hit reads them; those of a burst that a full initialisation left unspecified are free. -/
def State.hitBytes (s : State) : List (Nat × Nat) → List Byte × State
  | [] => ([], s)
  | (a, n) :: rest =>
    let (bs, s) := if s.rawBurst a then s.drawBytes n else (s.mem.readBytes a n, s)
    let (cs, s) := s.hitBytes rest
    (bs ++ cs, s)

/-- A dirty line whose word is uncorrectable (R362): it is written to the seam poisoned, dropped, and logged. -/
def State.poisonLine (s : State) (k : Fin 8) (set way : Nat) (l : Line) : State :=
  let sm := seamOf l.addr
  let s := ((s.poisonBurst sm (burstOf l.addr)).poisonBurst sm (burstOf (l.addr + 64))).count 1 .sliceWritebacks k.val
  (s.updSlice k fun q => q.put set way none).logOpen 0x3801 7 (16 + k.val) (some (BitVec.ofNat 64 l.addr))

/-- A read misses: it goes to the seam by the bough's port (R357), whose input is the slice. -/
def State.readMiss (s : State) (k : Fin 8) (r : TrunkReq) : State := s.enterPoint (28 + k.val / 2) { r with input := k.val }

/-- A read or fetch that passes the segment check (R360, R362). -/
def State.sliceRead (s : State) (k : Fin 8) (r : TrunkReq) (e : SliceError) : State :=
  let m := r.req
  let base := m.addr / 128 * 128
  let set := setOf base
  let host := m.who = .host
  match if s.sliceOn k then ((s.slices[k]).find set base s.ways).bind fun w => ((s.slices[k]).at set w).map fun l => (w, l) else none with
  | none => (if s.sliceOn k then s.count 1 .sliceMisses k.val else s).readMiss k r
  | some (w, l) =>
    let s := s.count 1 .sliceHits k.val
    match e, l.dirty with
    | .uncorrectable, true => (s.poisonLine k set w l).sliceAnswer k r.stamp (.fails .uncorrectable)
    | .uncorrectable, false => ((s.count 1 .sliceUe k.val).updSlice k fun q => q.put set w none).readMiss k r
    | e, _ =>
      let s := if e = .corrected then s.count 1 .sliceCe k.val else s
      let s := s.updSlice k fun q => (q.put set w (some { l with host := l.host || host })).use set w
      let (bs, s) := s.hitBytes (pieces m.addr m.len)
      s.sliceAnswer k r.stamp (.data bs)

/-- A read that has missed reaches the seam; its line is kept where the slice caches and the line is sound. -/
def State.sliceFill (s : State) (r : TrunkReq) : State :=
  let m := r.req
  let k := sliceOf m.addr
  let base := m.addr / 128 * 128
  match s.readDram m.who (kindAct m.kind) (pieces m.addr m.len) with
  | (.error f, s) => s.sliceAnswer k r.stamp (.fails f)
  | (.ok bs, s) =>
    let held := ((s.slices[k]).find (setOf base) base s.ways).isSome
    let keep := s.sliceOn k && !held && !s.poisonedBurst base && !s.poisonedBurst (base + 64)
    (if keep then s.allocate k { addr := base, dirty := false, under := [], host := m.who = .host } else s).sliceAnswer k r.stamp (.data bs)

/-- Bytes stored piece by piece, by a merge in the cache or by the seam. -/
def storePieces (put : State → Nat → List Byte → State) : List (Nat × Nat) → List Byte → State → State
  | [], _, s => s
  | (a, n) :: rest, bs, s => storePieces put rest (bs.drop n) (put s a (bs.take n))

/-- A write that passes the segment check (R360, R361): a whole line allocates without a read, a part that hits merges, and a part that
misses passes to the seam. -/
def State.sliceWrite (s : State) (k : Fin 8) (r : TrunkReq) (bs : List Byte) : State :=
  let m := r.req
  let base := m.addr / 128 * 128
  let set := setOf base
  let host := m.who = .host
  let whole := m.addr = base && bs.length = 128
  let bad := fun (p : Nat → Bool) => ([base, base + 64].filter p).map burstOf
  let new : Line := ⟨base, true, s.mem.readBytes base 128, host, bad s.poisonedBurst, bad s.rawBurst⟩
  let ps := pieces m.addr bs.length
  match if s.sliceOn k then (s.slices[k]).find set base s.ways else none with
  | some w =>
    let s := s.count 1 .sliceHits k.val
    let dirty := fun (l : Line) => if l.dirty then { l with host } else new
    (storePieces State.storeBurst ps bs (s.updSlice k fun q => (q.put set w ((q.at set w).map dirty)).use set w)).sliceAnswer k r.stamp .acked
  | none =>
    let s := if s.sliceOn k then s.count 1 .sliceMisses k.val else s
    if !s.dramServed m.addr then s.sliceAnswer k r.stamp (.fails .fenced)
    else if whole && s.sliceOn k then (storePieces State.storeBurst ps bs (s.allocate k new)).sliceAnswer k r.stamp .acked
    else (storePieces State.mergeBurst ps bs s).sliceAnswer k r.stamp .acked

/-- A read of the early window (R362, R365): its words have no copy at a seam, so an uncorrectable one fails the reader as that of a dirty
line does (log entry 58). -/
def State.earlyRead (s : State) (k : Fin 8) (r : TrunkReq) (e : SliceError) : State :=
  let m := r.req
  match e with
  | .uncorrectable => (s.sliceAnswer k r.stamp (.fails .uncorrectable)).logOpen 0x3801 7 (16 + k.val) (some (BitVec.ofNat 64 m.addr))
  | .corrected => (s.count 1 .sliceCe k.val).sliceAnswer k r.stamp (.data (s.mem.readBytes m.addr m.len))
  | .clean => s.sliceAnswer k r.stamp (.data (s.mem.readBytes m.addr m.len))

/-- A slice serves the request it grants (R360 to R363, R366, R479): it checks the request against its segment's entry; a fenced bough's
lines are answered FENCED whether they hit or miss; the early window serves claim 0. -/
def State.sliceServe (s : State) (k : Fin 8) (r : TrunkReq) (e : SliceError) : State :=
  let m := r.req
  if m.addr < 2 ^ 37 then
    match s.checkSeg m.who (kindAct m.kind) (m.addr / 2 ^ 21) with
    | some f => s.sliceAnswer k r.stamp (.fails f)
    | none =>
      if s.boughs[boughOf m.addr].state.inReset then s.sliceAnswer k r.stamp (.fails .fenced)
      else
        match m.kind with
        | .write bs => s.sliceWrite k r bs
        | _ => s.sliceRead k r e
  else if whoClaim m.who ≠ 0 then s.sliceAnswer k r.stamp (.fails .access)
  else
    match m.kind with
    | .write bs => ({ s with mem := s.mem.writeBytes m.addr bs }).sliceAnswer k r.stamp .acked
    | _ => s.earlyRead k r e

/-- One decision of a slice; the write of an image pipeline's that it accepts drains its write buffer (R309). -/
def State.sliceDecide (s : State) (k : Fin 8) (e : SliceError) : State :=
  match s.pointTake (16 + k.val) with
  | (none, s) => s
  | (some r, s) => (s.sliceServe k r e).mediaDrain r.req

/-- One decision of a bough's port towards the bough. -/
def State.fillDecide (s : State) (p : Nat) : State :=
  match s.pointTake p with
  | (none, s) => s
  | (some r, s) => s.sliceFill r

/-- SLICE_ACCEPT (R357, R367, R479): requests arrive in one handshake; each port, then each slice, then each bough's port decides once. -/
def sliceAccept (ms : List MemRequest) (e : Vector SliceError 8) (s : State) : State :=
  let s := ms.foldl State.trunkArrive { s with slices := s.slices.map fun q => { q with answers := [] } }
  let s := [24, 25, 26, 27, 32, 33, 34].foldl State.portDecide s
  let s := (List.finRange 8).foldl (fun s k => s.sliceDecide k e[k]) s
  [28, 29, 30, 31].foldl State.fillDecide s

def execSliceAccept (q : List MemRequest × Vector SliceError 8) (s : State) : Host.Outcome State Fault Refusal :=
  done s (sliceAccept q.1 q.2 s)

/-- STARVE_FLAGS_CLEAR (R370): w1c; STARVE in alert_cause stays. -/
def starveClearFx (v : Word) (s : State) : State := s.setReg .starveFlags (s.reg .starveFlags &&& ~~~v)

/- The early window (R365, R366). -/

/-- Where the part of the early window above n ways begins. -/
def earlyTop (n : Nat) : Nat := 0x4200000000 + n * 0x180000

/-- Something bound or enabled lies in the part of the window that a write of n would release. -/
def State.earlyHeld (s : State) (n : Nat) : Bool :=
  let lo := earlyTop n
  let hi := earlyTop (s.regN .cacheEarlyWays)
  let hits := fun a len => a < hi && lo < a + len
  (([0, 1, 2, 3] : List BoughId).any fun b => (List.range 32).any fun i =>
    let h := s.hq b (Fin.ofNat 32 i)
    h.bound && hits h.base (h.count * h.stride)) ||
  (List.range 16).any fun p => (s.reg .csiConfig p).getLsbD 0 && hits (s.regN .ipipeParamAddr p) 2048

/-- CACHE_EARLY_WAYS_WRITE's codes. -/
def earlyWaysCodes (v : Nat) (s : State) : List Nat :=
  codeIf (8 < v) 0xA300 ++ codeIf (v < s.regN .cacheEarlyWays && s.earlyHeld v) 0xA400

/-- CACHE_EARLY_WAYS_WRITE: raising writes back and invalidates the lines of the ways taken, and the new part reads zero; lowering
discards the released part. With no way left EARLY_WINDOW_READY clears, and it sets when the window has one again (R36). -/
def earlyWaysFx (v : Nat) (s : State) : State :=
  let old := s.regN .cacheEarlyWays
  let taken := fun (p : Nat × Option Line) => 16 - v ≤ p.1 % 16 && p.1 % 16 < 16 - old
  let s := if old < v then
      (List.finRange 8).foldl (fun s k =>
        let n := ((s.slices[k]).lines.filter fun p => taken p && p.2.any (·.dirty)).length
        (s.count n .sliceWritebacks k.val).updSlice k fun q => { q with lines := q.lines.filter fun p => !taken p }) s
    else s
  let s := { s with mem := s.mem.clear (min (earlyTop old) (earlyTop v)) (max (earlyTop old) (earlyTop v)) }
  let s := s.setReg .cacheEarlyWays (BitVec.ofNat 64 v)
  if v = 0 then s.leaveService rEarly else if old = 0 then s.reportReady rEarly else s

end Sys2Proof.Machine
end

