-- ==== Sys2Proof/Machine/Writes.lean ====
section
/-! DEFINITION. Writes of dictionary objects: what each object's own rules refuse, what a write of it does, and the write as a whole
(R409, R410, R438). -/
namespace Sys2Proof.Machine
open Sys2Proof

/-- The operation that seg_command names (R481): none where OP is reserved. -/
def segOpOf (v : Nat) : Option SegOp :=
  match nbits v 31 28 with
  | 1 => some (.assign (Fin.ofNat 16 (nbits v 27 24)) (BitVec.ofNat 3 (nbits v 2 0)))
  | 2 => some .clear
  | 3 => some .revive
  | _ => none

/-- The codes of seg_command's own conditions, reserved bits apart (R481). -/
def segCommandCodes (v : Nat) (s : State) : List Nat :=
  match segOpOf v with
  | some op => segCodes op (nbits v 47 32) (nbits v 63 48) s
  | none => 0xA300 :: codeIf s.sec.segRun.isSome 0xA500

/-- The claim or the claim's command codes (R475, R497). -/
def claimCommandCodes (c : ClaimId) (v : Nat) (s : State) : List Nat :=
  match v with
  | 1 => claimOpenCodes s c
  | 2 => openConfidentialCodes s c
  | 3 => releaseCodes s c
  | _ => [0xA300]

/-- A host of either H requester holds an accepted declaration of ABI_MAJOR 3 (R437). -/
def State.abi3 (s : State) : Bool := ([3, 4] : List (Fin 5)).any fun p => declAbi s.ports[p].accepted.toNat = 3

/-- What an object of the control plane and the work hub refuses by its own rules. -/
def coreCodes (r : Requester) (h : Hit) (w : Word) (s : State) : Option (List Nat) :=
  let v := w.toNat
  let p : Fin 5 := Fin.ofNat 5 h.a
  let q : QueueId := Fin.ofNat 64 h.a
  let b : BoughId := Fin.ofNat 4 h.a
  let hq : HqPos := Fin.ofNat 32 h.b
  match h.ob with
  | .ifDeclare => some (codeIf (p ≠ reqNum r) 0xA201 ++ declareCodes p v s)
  | .t5Accept => some (codeIf (p ≠ reqNum r) 0xA201)
  | .canBaseId => some (codeIf (0x1FFFFFFC < v || v % 4 ≠ 0) 0xA300)
  | .canBitrate => some (codeIf (3 < nbits v 7 0 || 4 < nbits v 15 8) 0xA300)
  | .readinessAlertMask => some (codeIf (2 ^ 40 ≤ v) 0xA300)
  | .readinessExpected => some (expectedCodes w s)
  | .crownCommand => some (crownCodes r v s)
  | .alertCause => some (alertCodes w)
  | .alertEnable => some (codeIf (2 ^ 9 ≤ v) 0xA300)
  | .wqSubBase | .wqCompBase => some (codeIf (s.wq q).enabled 0xA400)
  | .wqShape => some (codeIf (nbits v 31 28 ≠ 0 || nbits v 23 8 ≠ 0) 0xA300 ++ codeIf (s.wq q).enabled 0xA400)
  | .wqEnable => some (
      if v = 1 then s.wqEnableCodes q ++ codeIf (s.crown = .quiescing) 0xA400 ++ codeIf (!s.abi3) 0xA600 else s.wqDisableCodes q)
  | .wqCancel => some (codeIf (2 ^ 33 ≤ v || (v.testBit 32 && v % 2 ^ 32 ≠ 0)) 0xA300)
  | .fenceDrainLimit => some (codeIf (v < 1000 || 10000000 < v) 0xA300)
  | .replayLimit => some (codeIf (15 < v) 0xA300)
  | .cancelBundle => some (codeIf (63 < v) 0xA300)
  | .loadRequest => some (loadRequestCodes s)
  | .unload => some (unloadCodes s v)
  | .boughReset => some (s.boughResetCodes b w)
  | .ecBlockClaims => some (counterBlockCodes s b false w)
  | .wcBlockClaims => some (counterBlockCodes s b true w)
  | .hqPoolBase => some (codeIf (s.hq b hq).bound 0xA400)
  | .hqPoolShape => some (codeIf (2 ^ 48 ≤ v || nbits v 43 40 ≠ 0) 0xA300 ++ codeIf (s.hq b hq).bound 0xA400)
  | .hqBind => some (if v = 1 then s.hqBindCodes b hq else s.hqUnbindCodes b hq)
  | .hqPost => some (s.hqPostCodes b hq w)
  | .branchHaulerLimit | .boughHaulerLimit => some (codeIf (v = 0 || 64 < v) 0xA300)
  | .fwUpdateStart => some (updateCodes v s)
  | .foremanRestart => some (restartCodes v s)
  | .firmwareConfirm => some (confirmCodes v s)
  | .trialTime => some (codeIf (v < 10 || 3600 < v) 0xA300)
  | .hostL2Lock => some (codeIf (r ≠ .host) 0xA201 ++ codeIf (v ≠ 0) 0xA300)
  | .flashLogErase => some (codeIf (!s.foremanRuns 0) 0xA500)
  | _ => none

/-- What an object of the memory, the media and the rest refuses by its own rules; a write of domain_off may draw a free value. -/
def unitCodes (h : Hit) (w : Word) (s : State) : List Nat × State :=
  let v := w.toNat
  let b : BoughId := Fin.ofNat 4 h.a
  let c : ClaimId := Fin.ofNat 16 h.a
  match h.ob with
  | .dramGroupMode => (codeIf (2 < v) 0xA300 ++ groupCodes b s, s)
  | .sweepDebtLimit => (codeIf (v < 8 || 256 < v) 0xA300, s)
  | .scrubPeriod => (codeIf (v < 1 || 168 < v) 0xA300, s)
  | .starveWarn => (codeIf (v < 16 || 65534 < v || s.regN .starveLimit ≤ v) 0xA300, s)
  | .starveLimit => (codeIf (v ≤ s.regN .starveWarn) 0xA300, s)
  | .starveFlags | .starveAlertMask => (codeIf (2 ^ 35 ≤ v) 0xA300, s)
  | .cacheEarlyWays => (earlyWaysCodes v s, s)
  | .csiConfig => (csiConfigCodes h.a v s, s)
  | .ipipePortConfig | .pyramidRatiosLo | .pyramidRatiosHi | .ipipeParamAddr => (ipipeCodes h.ob h.a v s, s)
  | .i2cSpeed => (codeIf (2 < v) 0xA300, s)
  | .fsyncPeriod | .fsyncPhase | .fsyncWidth => (fsyncCodes h.ob h.a v s, s)
  | .ipipePanic => (ipipePanicCodes v, s)
  | .encConfig => (encConfigCodes h.a v s, s)
  | .encPicRing | .encBsBase | .encBsSize | .encBsRead => (encCodes h.ob h.a v s, s)
  | .decRingBase | .decRingShape | .decTail | .decWorkBase | .decWorkSize => (decCodes h.ob v s, s)
  | .spControl => (spControlCodes v s, s)
  | .spStoreBase | .spStoreSize | .spIndexBase | .spSampleCount | .spSeed | .spEpoch | .spStartPos | .spShape | .spImgStride | .spPadToken
  | .spTarget => (spCodes h.ob v s, s)
  | .coreVTarget | .hostVTarget | .coreILimit | .capSustained | .capPriority | .classLinks | .classMemory | .classCompute | .bucketEnable
  | .throttleTemp => (codeIf (s.powerBad h.ob v) 0xA300 ++ codeIf (!s.foremanRuns 2) 0xA500, s)
  | .domainOffLo => domainOffCodes false w s
  | .domainOffHi => domainOffCodes true w s
  | .groveMember | .groveRoute | .groveSignalBase | .groveTimeSource => (groveCodes h.ob v s, s)
  | .groveMemberFence => (memberFenceCodes v s, s)
  | .linkControl => (linkControlCodes (Fin.ofNat 4 h.a) v s, s)
  | .peerClaims => (peerClaimsCodes c v s, s)
  | .claimCommand => (claimCommandCodes c v s, s)
  | .claimFlags => (claimFlagsCodes s c v, s)
  | .segCommand => (codeIf (nbits v 23 3 ≠ 0) 0xA300 ++ segCommandCodes v s, s)
  | .sessionCommand => (if v = 1 then reportCodes s c else if v = 2 then unwrapCodes s c else [0xA300], s)
  | .cryptStart => (if v = 1 then cryptCodes false s else if v = 2 then cryptCodes true s else [0xA300], s)
  | _ => ([], s)

/-- What an object's own rules refuse. -/
def ownCodes (r : Requester) (h : Hit) (w : Word) (s : State) : List Nat × State :=
  match coreCodes r h w s with
  | some l => (l, s)
  | none => unitCodes h w s

/-- A seam waits for the hub foreman to reset its bough (R348, R402). -/
def State.seamWaits (s : State) (b : BoughId) : Bool := (seamsOf b).any fun q => (s.seam q).outPending

/-- The effect of a write of a control-plane or work-hub object. -/
def coreFx (h : Hit) (w : Word) (s : State) : Option State :=
  let v := w.toNat
  let p : Fin 5 := Fin.ofNat 5 h.a
  let q : QueueId := Fin.ofNat 64 h.a
  let b : BoughId := Fin.ofNat 4 h.a
  let hq : HqPos := Fin.ofNat 32 h.b
  match h.ob with
  | .ifDeclare => some (declareFx p v s)
  | .t5Accept => some (t5AcceptFx p v s)
  | .readinessExpected => some (expectedFx w s)
  | .crownCommand => some (crownFx v s)
  | .alertCause => some (alertFx w s)
  | .alertEnable => some (alertEnableFx w s)
  | .wqEnable => some (if v = 1 then s.wqEnableFx q else s.wqDisableFx q)
  | .wqCancel => some (
      if v.testBit 32 then s.cancelWhere fun j => j.decision.isNone && j.queue = q
      else if (s.job? q (BitVec.ofNat 32 v)).any fun j => j.decision.isNone then s.cancelJob q (BitVec.ofNat 32 v) else s)
  | .cancelBundle => some (s.cancelWhere fun j => j.decision.isNone && j.handle.val = v)
  | .loadRequest => some (loadRequestFx v s)
  | .unload => some (unloadFx s v)
  | .boughReset => some (s.fence b (s.seamWaits b))
  | .eventCounter => some (s.setEvent b (h.b * 256 + h.k) (BitVec.ofNat 32 v)).wake
  | .ecBlockClaims => some (counterBlockFx s b false w)
  | .wcBlockClaims => some (counterBlockFx s b true w)
  | .wcCountersClear => some (if v = 1 then s.clearGroup (.work b) else s)
  | .branchCountersClear => some (if v = 1 then s.clearGroup (.branch b (Fin.ofNat 6 h.b)) else s)
  | .sortCountersClear => some (if v = 1 then s.clearGroup (.sort b) else s)
  | .sliceCountersClear => some (if v = 1 then s.clearGroup (.slice (Fin.ofNat 8 h.a)) else s)
  | .hqBind => some (if v = 1 then s.hqBindFx b hq else s.hqUnbindFx b hq)
  | .hqPost => some (s.hqPostFx b hq w).wake
  | .fwUpdateStart => some (updateFx v s)
  | .foremanRestart => some (foremanRestartFx v s)
  | .firmwareConfirm => some (confirmFx v s)
  | .hostL2Lock => some (l2UnlockFx s)
  | .flashLogErase => some (if v = 1 then flashEraseFx s else s)
  | _ => none

/-- The effect of a write of any other object with a behaviour of its own, and whether it is applied at once. -/
def unitFx (r : Requester) (h : Hit) (w : Word) (s : State) : Option (Bool × State) :=
  let v := w.toNat
  let b : BoughId := Fin.ofNat 4 h.a
  let c : ClaimId := Fin.ofNat 16 h.a
  match h.ob with
  | .dramGroupMode => some (true, if v = 0 then groupOnFx b s else if v = 1 then groupKeepFx b s else groupDropFx b s)
  | .starveFlags => some (true, starveClearFx w s)
  | .cacheEarlyWays => some (true, earlyWaysFx v s)
  | .csiConfig => some (true, csiConfigFx c v s)
  | .fsyncPeriod | .fsyncPhase | .fsyncWidth => some (true, (s.setReg h.ob w h.a h.b h.k).fsyncWritten c)
  | .fsyncEpoch => some (true, (s.setReg .fsyncEpoch w).epochWritten)
  | .encConfig => some (true, encConfigFx c v s)
  | .spControl => some (true, spControlFx v s)
  | .domainOffLo => some (true, domainOffFx false w s)
  | .domainOffHi => some (true, domainOffFx true w s)
  | .groveMemberFence => some (true, memberFenceFx v s)
  | .linkControl => some (true, linkControlFx (Fin.ofNat 4 h.a) v s)
  | .peerClaims => some (peerClaimsFx r c v s)
  | .claimCommand => some (true, if v = 1 then claimOpenFx s c else if v = 2 then openConfidentialFx s c else releaseFx s c)
  | .claimFlags => some (true, claimFlagsFx s c v)
  | .segCommand =>
    match segOpOf v with
    | some op => some (true, segFx op (nbits v 47 32) (nbits v 63 48) s)
    | none => some (true, s)
  | .sessionCommand => some (true, if v = 1 then reportFx s c else unwrapFx s c)
  | .cryptStart => some (true, cryptFx (v = 2) s)
  | _ => none

/-- A write that passes every check takes effect whole (R410): an object with no behaviour of its own keeps the value. -/
def ownFx (r : Requester) (h : Hit) (w : Word) (s : State) : Bool × State :=
  match coreFx h w s with
  | some t => (true, t)
  | none =>
    match unitFx r h w s with
    | some t => t
    | none => (true, s.setReg h.ob w h.a h.b h.k)

/-- What a write refused by an object's own rules leaves behind beside port_status: seg_status (R481), and hq_drops for a post at a
fenced bough (R265, R269). -/
def refusedFx (h : Hit) (w : Word) (own : Bool) (code : Nat) (s : State) : State :=
  match h.ob with
  | .segCommand => if own && firstCode (segCommandCodes w.toNat s) = some code then segRefused code s else s
  | .hqPost => if own && code = 0xA400 then s.hqPostRefused (Fin.ofNat 4 h.a) (Fin.ofNat 32 h.b) else s
  | _ => s

/- The T5 views that are written (R439). -/

/-- Ports of a T5 camera write, in order: each is checked against what the ones before it leave; the code of the first that refuses. -/
def t5Cameras (v : Nat) : List Nat → State → Except (List Nat) State
  | [], s => .ok s
  | p :: ps, s =>
    let old := s.regN .csiConfig p
    let w := old / 2 * 2 + bitN (v.testBit p) 0
    match csiConfigCodes p w s with
    | [] => t5Cameras v ps (csiConfigFx (Fin.ofNat 16 p) w s)
    | l => .error l

/-- The codes and the effect of a write through a T5 view. -/
def t5Codes (o : T5Ob) (r : Requester) (h : Hit) (w : Word) (s : State) : List Nat × State :=
  match o with
  | .camera =>
    match t5Cameras w.toNat (List.range 8) s with
    | .ok _ => ([], s)
    | .error l => (l, s)
  | .reset => (codeIf (16 ≤ w.toNat) 0xA300 ++ (maskBoughs (w.toNat % 16)).flatMap fun b => s.boughResetCodes b 1, s)
  | _ => ownCodes r h w s

def t5Fx (o : T5Ob) (r : Requester) (h : Hit) (w : Word) (s : State) : Bool × State :=
  match o with
  | .camera =>
    match t5Cameras w.toNat (List.range 8) s with
    | .ok t => (true, t)
    | .error _ => (true, s)
  | .reset => (true, (maskBoughs (w.toNat % 16)).foldl (fun s b => s.fence b (s.seamWaits b)) s)
  | _ => ownFx r h w s

/- The write as a whole. -/

/-- The codes that the dictionary's own checks of a write give: access right, length, type and state (R19, R407, R409). -/
def State.writeCodes (s : State) (r : Requester) (idx sel : Nat) (t : Target) (v : Word) : List Nat :=
  let row := t.hit.ob.row
  let ro := row.acc = .const || row.acc = .ro
  let command := t.hit.ob = .crownCommand
  s.gateCodes r idx t ++ codeIf ro 0xA200 ++ codeIf (!t.ty.short || (t.ty.size < 8 && 2 ^ (8 * t.ty.size) ≤ v.toNat)) 0xA301 ++
  codeIf (sel ≠ 0 || (t.ty = .bool && 1 < v.toNat)) 0xA300 ++ codeIf (!ro && !row.states.testBit s.crown.code) 0xA400 ++
  codeIf (s.hubStopped && !command) 0xA500

/-- A short write to a target: the code where it is refused, and the state. `idx` and `sub` name what was accessed. -/
def State.writeTarget (s : State) (r : Requester) (idx sub sel : Nat) (t : Option Target) (v : Word) (extra : List Nat) : Nat × State :=
  match t with
  | none => (0xA100, s.refuse r (objNum idx sub) false 0xA100)
  | some t =>
    let gate := s.writeCodes r idx sel t v ++ extra
    let (own, s) := match t.t5 with
      | none => ownCodes r t.hit v s
      | some o => t5Codes o r t.hit v s
    let ro := t.hit.ob.row.acc = .const || t.hit.ob.row.acc = .ro
    match firstCode (if ro then gate else gate ++ own) with
    | some c => (c, (refusedFx t.hit v (firstCode gate ≠ some c) c s).refuse r (objNum idx sub) false c)
    | none =>
      let (now, s) := match t.t5 with
        | none => ownFx r t.hit v s
        | some o => t5Fx o r t.hit v s
      (0, if now then s.countDone r else s)

/-- A short write at an index and subindex. -/
def State.writeObj (s : State) (r : Requester) (idx sub sel : Nat) (v : Word) (extra : List Nat) : Nat × State :=
  s.writeTarget r idx sub sel (s.target (reqNum r) idx sub) v extra

/-- Index and subindex of an object (R406). -/
def Ob.index (o : Ob) (a b : Nat) : Nat := o.row.base + a * o.row.s1 + b * o.row.s2
def Ob.subindex (o : Ob) (k : Nat) : Nat := o.row.sub + k

/-- The target of a command that names an object: a requester on the T5 path reaches the interface objects alone (R438). -/
def State.named (s : State) (p : Fin 5) (o : Ob) (a b k : Nat) : Option Target :=
  let idx := o.index a b
  if s.onT5 p && !(idx = 0x1100 || (0x1110 ≤ idx && idx ≤ 0x1114)) then none else some ⟨⟨o, a, b, k⟩, none⟩

/-- A write of an object as a command names it, through a port that serves it. -/
def dictWrite (r : Requester) (o : Ob) (a b k : Nat) (v : Word) (s : State) : State :=
  if !s.serves r then s else (s.writeTarget r (o.index a b) (o.subindex k) 0 (s.named (reqNum r) o a b k) v []).2

end Sys2Proof.Machine
end

