-- ==== Sys2Proof/Machine/Ports.lean ====
section
/-! DEFINITION. The ports of the dictionary: block access (R419, R420), Burlyn frames (R412 to R418), the host window and the block
engines (R35, R422, R423), CAN FD (R424 to R428). -/
namespace Sys2Proof.Machine
open Sys2Proof

/- Block access (R419). -/

/-- Change a requester's block operation. -/
def State.updBlk (s : State) (r : Requester) (f : Block → Block) : State := s.updPort r fun p => { p with blk := f p.blk }

/-- Bytes of a block buffer from an offset; a transfer past 4,095 wraps. -/
def Block.bytes (b : Block) (o n : Nat) : List Byte := (List.range n).map fun i => SMap.get 0 b.buffer ((o + i) % 4096)

/-- Bytes put into a block buffer from an offset; a transfer past 4,095 wraps. -/
def Block.put (b : Block) (o : Nat) : List Byte → Block
  | [] => b
  | x :: xs => Block.put { b with buffer := SMap.set 0 b.buffer (o % 4096) x } (o + 1) xs

/-- A range of a block object. -/
def State.blockRead (s : State) (h : Hit) (o n : Nat) : List Byte := (List.range n).map fun i => s.blockByte h (o + i)

/-- What a commit to a BYTES object is refused for by the object's own rules (R314, R494). -/
def bytesCodes (h : Hit) (data : List Byte) (s : State) : List Nat :=
  match h.ob with
  | .i2cXfer => i2cXferCodes (Fin.ofNat 8 h.a) data s
  | .ownerKeyProgram => ownerKeyCodes data s
  | _ => []

/-- A commit takes effect (R314, R490, R494). -/
def bytesFx (h : Hit) (data : List Byte) (s : State) : State :=
  let c : ClaimId := Fin.ofNat 16 h.a
  match h.ob with
  | .i2cXfer => i2cXferFx (Fin.ofNat 8 h.a) data s
  | .ownerKeyProgram => ownerKeyFx data s
  | .sessionNonce => s.updClaim c fun x => { x with nonce := data }
  | .sessionWrap => s.updClaim c fun x => { x with wrap := data }
  | _ => s

/-- The codes of an open or a commit, BUSY apart. -/
def State.blockCodes (s : State) (r : Requester) (commit : Bool) (a : BlockArgs) (t : Target) : List Nat :=
  let row := t.hit.ob.row
  let o := a.offset.toNat
  let n := a.length.toNat
  let ro := row.acc = .const || row.acc = .ro
  let whole := match t.ty with
    | .bytes k | .text k => o = 0 && n = k
    | _ => true
  s.gateCodes r a.idx.toNat t ++ codeIf (t.ty.short || (commit && !whole)) 0xA301 ++
  codeIf (a.sel ≠ 0 || n = 0 || 4096 < n || t.ty.size < o + n) 0xA300 ++ codeIf (commit && ro) 0xA200 ++
  codeIf (commit && !ro && !row.states.testBit s.crown.code) 0xA400 ++
  (if commit && !ro then bytesCodes t.hit ((s.port r).blk.bytes 0 n) s else []) ++ codeIf s.hubStopped 0xA500

/-- An open or a commit is applied: it starts, reading BUSY, or is refused. A refusal while an operation is BUSY leaves block_status. -/
def State.blockStart (s : State) (r : Requester) (commit : Bool) (a : BlockArgs) : Nat × State :=
  let busy := (s.port r).blk.state = .busy
  let codes := match s.target (reqNum r) a.idx.toNat a.sub.toNat with
    | none => [0xA100]
    | some t => s.blockCodes r commit a t
  match firstCode (codes ++ codeIf busy 0xA500) with
  | some c =>
    let s := if busy then s else s.updBlk r fun b => { b with state := .refused, code := BitVec.ofNat 16 c }
    (c, s.refuse r (objNum a.idx.toNat a.sub.toNat) (!commit) c)
  | none => (0, (s.updBlk r fun b => { b with state := .busy, code := 0, op := some (commit, a) }).countDone r)

/-- BLOCK_TRANSFER_DONE (R419, R421): the copy or the write ends; a commit is checked again against the state that it finds. -/
def blockTransferDone (r : Requester) (s : State) : State :=
  let b := (s.port r).blk
  match b.op with
  | none => s
  | some (commit, a) =>
    let n := a.length.toNat
    let ends := fun (s : State) => s.updBlk r fun b => { b with state := .ready, op := none, crc := crc32c (b.bytes 0 n) }
    let fails := fun (c : Nat) =>
      (s.updBlk r fun b => { b with state := .refused, op := none, code := BitVec.ofNat 16 c }).refuse r
        (objNum a.idx.toNat a.sub.toNat) (!commit) c
    match s.target (reqNum r) a.idx.toNat a.sub.toNat with
    | none => fails 0xA100
    | some t =>
      match firstCode (s.blockCodes r commit a t) with
      | some c => fails c
      | none =>
        if commit then ends (bytesFx t.hit (b.bytes 0 n) s)
        else ends (s.updBlk r fun b => b.put 0 (s.blockRead t.hit a.offset.toNat n))

def execBlockTransferDone (r : Requester) (s : State) : Host.Outcome State Fault Refusal := done s (blockTransferDone r s)

/-- The bytes that a read of the buffer returns: during an open in progress, byte by byte, the old contents or the new (R419). -/
def State.bufferRead (s : State) (r : Requester) (o : Nat) : Nat → List Byte × State
  | 0 => ([], s)
  | n + 1 =>
    let b := (s.port r).blk
    let i := o % 4096
    let old := SMap.get 0 b.buffer i
    let fresh := match b.op with
      | some (false, a) =>
        if i < a.length.toNat then (s.target (reqNum r) a.idx.toNat a.sub.toNat).map fun t => s.blockByte t.hit (a.offset.toNat + i) else none
      | _ => none
    let (x, s) := match fresh with
      | none => (old, s)
      | some new =>
        let (c, s) := s.drawChoice
        (if c then new else old, s)
    let (xs, s) := s.bufferRead r (o + 1) n
    (x :: xs, s)

/-- PORT_RESET's effect on a requester's block operation (R420). -/
def State.blockReset (s : State) (r : Requester) : State := s.updBlk r fun b => { b with state := .idle, code := 0, op := none }

/- The Burlyn port (R412 to R418). -/

/-- The T9 drives bytes to the requester. -/
def State.drive (s : State) (r : Requester) (bs : List Byte) : State := s.updPort r fun p => { p with out := bs }

/-- A posted frame is held, or refused while 16 are held (R417). -/
def State.post (s : State) (f : Posted) (obj : BitVec 24) (isRead : Bool) : State :=
  if 16 ≤ (s.port .burlyn).posted.length then s.refuse .burlyn obj isRead 0xA500
  else s.updPort .burlyn fun p => { p with posted := p.posted ++ [f] }

/-- What a READ frame drives (R415): the data, the code and the CRC over the address and what follows it. -/
def readAnswer (addr : List Byte) (value code : Nat) : List Byte :=
  let body := leBytes 8 value ++ leBytes 2 code
  body ++ leBytes 2 (crc16 (addr ++ body)).toNat

/-- A READ (R415). -/
def State.burlynRead (s : State) (addr : List Byte) : State :=
  let (v, c, s) := s.readObj .burlyn (leAt addr 1 2) (leAt addr 0 1) (leAt addr 3 1) []
  s.drive .burlyn (readAnswer addr v c)

/-- A frame of the Burlyn port (R413, R414): `n` is how many bytes the T9 drives to a BLOCK_DATA_READ. -/
def State.burlynFrame (s : State) (f : List Byte) : State :=
  if !s.serves .burlyn then s
  else
    let op := leAt f 0 1
    let addr := slice f 2 4
    let data := f.drop 6
    let idx := BitVec.ofNat 16 (leAt addr 1 2)
    let sub := BitVec.ofNat 8 (leAt addr 0 1)
    let sel := BitVec.ofNat 8 (leAt addr 3 1)
    let obj := objNum idx.toNat sub.toNat
    let args : BlockArgs := ⟨idx, sub, sel, BitVec.ofNat 32 (leAt data 0 4), BitVec.ofNat 32 (leAt data 4 4), none⟩
    let crcOk := f.length = 14 || (f.length = 16 && (crc16 (slice f 2 12)).toNat = leAt f 14 2)
    if f.length < 6 || op + leAt f 1 1 ≠ 255 then s.frameError .burlyn
    else if op = 0x0B then (if f.length = 6 then s.burlynRead addr else s.frameError .burlyn)
    else if op = 0x12 then (if crcOk then s.post (.write idx sub sel (BitVec.ofNat 64 (leAt data 0 8))) obj false else s.frameError .burlyn)
    else if op = 0x30 then (if crcOk then s.post (.block false args) obj true else s.frameError .burlyn)
    else if op = 0x31 then (if crcOk then s.post (.block true args) obj false else s.frameError .burlyn)
    else if op = 0x32 || op = 0x33 then
      if leAt addr 2 2 ≠ 0 then s.frameError .burlyn
      else if op = 0x33 then s.updBlk .burlyn fun b => b.put (leAt addr 0 2) data
      else
        let (bs, s) := s.bufferRead .burlyn (leAt addr 0 2) data.length
        s.drive .burlyn bs
    else if op = 0x99 then (if f.length = 6 && leNat addr = 0 then s.blockReset .burlyn else s.frameError .burlyn)
    else s.frameError .burlyn

/-- READ (R415): the bytes are a frame, and the frame says what it is. -/
def execRead (frame : List Byte) (s : State) : Host.Outcome State Fault Refusal := done s (s.burlynFrame frame)

/-- WRITE (R417). -/
def execWrite (frame : List Byte) (s : State) : Host.Outcome State Fault Refusal := done s (s.burlynFrame frame)

/-- PORT_RESET (R420). -/
def execPortReset (frame : List Byte) (s : State) : Host.Outcome State Fault Refusal := done s (s.burlynFrame frame)

/-- POSTED_WRITE_APPLY (R417): the oldest posted frame is applied. -/
def postedWriteApply (s : State) : State :=
  match (s.port .burlyn).posted with
  | [] => s
  | f :: rest =>
    let s := s.updPort .burlyn fun p => { p with posted := rest }
    match f with
    | .write idx sub sel v => (s.writeObj .burlyn idx.toNat sub.toNat sel.toNat v []).2
    | .block commit a => (s.blockStart .burlyn commit a).2

def execPostedWriteApply (s : State) : Host.Outcome State Fault Refusal := done s (postedWriteApply s)

/-- The four address bytes and the range of an open or a commit, as its CRC covers them (R414). -/
def blockArgBytes (a : BlockArgs) : List Byte :=
  [a.sub] ++ leBytes 2 a.idx.toNat ++ [a.sel] ++ leBytes 4 a.offset.toNat ++ leBytes 4 a.length.toNat

/-- An open or a commit of a requester: posted at the Burlyn port, applied at once at any other (R417, R423, R426). -/
def blockAccess (commit : Bool) (r : Requester) (a : BlockArgs) (s : State) : State :=
  if !s.serves r then s
  else if r = .burlyn then
    if a.crc.all fun c => c = crc16 (blockArgBytes a) then s.post (.block commit { a with crc := none }) (objNum a.idx.toNat a.sub.toNat) (!commit)
    else s.frameError r
  else (s.blockStart r commit a).2

/-- BLOCK_OPEN (R419). -/
def execBlockOpen (r : Requester) (a : BlockArgs) (s : State) : Host.Outcome State Fault Refusal := done s (blockAccess false r a s)

/-- BLOCK_COMMIT (R419). -/
def execBlockCommit (r : Requester) (a : BlockArgs) (s : State) : Host.Outcome State Fault Refusal := done s (blockAccess true r a s)

/-- BLOCK_DATA_READ (R414, R419). -/
def blockDataRead (r : Requester) (addr : BitVec 32) (n : Nat) (s : State) : State :=
  if !s.serves r then s
  else if 2 ^ 16 ≤ addr.toNat then s.frameError r
  else
    let (bs, s) := s.bufferRead r addr.toNat n
    s.drive r bs

def execBlockDataRead (r : Requester) (addr : BitVec 32) (n : Nat) (s : State) : Host.Outcome State Fault Refusal :=
  done s (blockDataRead r addr n s)

/-- BLOCK_DATA_WRITE (R414, R419). -/
def blockDataWrite (r : Requester) (addr : BitVec 32) (data : List Byte) (s : State) : State :=
  if !s.serves r then s
  else if 2 ^ 16 ≤ addr.toNat then s.frameError r
  else s.updBlk r fun b => b.put addr.toNat data

def execBlockDataWrite (r : Requester) (addr : BitVec 32) (data : List Byte) (s : State) : Host.Outcome State Fault Refusal :=
  done s (blockDataWrite r addr data s)

/- CAN FD (R424 to R428). -/

/-- The requester of a controller. -/
def canRequester (k : Fin 2) : Requester := if k = 0 then .can0 else .can1

/-- A response frame (R425). -/
def canResponse (q : List Byte) (code : Nat) (data : List Byte) : List Byte :=
  [BitVec.ofNat 8 (leAt q 0 1 + 0x80)] ++ slice q 1 5 ++ leBytes 2 code ++ slice data 0 56

/-- A request is executed: its code and its response's data (R425, R426); none where a block data frame's address is refused (R414). -/
def State.canExecute (s : State) (r : Requester) (q : List Byte) : Option (Nat × List Byte × State) :=
  let op := leAt q 0 1
  let idx := leAt q 3 2
  let sub := leAt q 2 1
  let sel := leAt q 5 1
  let len := leAt q 6 2
  let args : BlockArgs := ⟨BitVec.ofNat 16 idx, BitVec.ofNat 8 sub, BitVec.ofNat 8 sel, BitVec.ofNat 32 (leAt q 8 4), BitVec.ofNat 32 (leAt q 12 4), none⟩
  let dataOp := op = 0x32 || op = 0x33
  let listed := dataOp || op = 0x0B || op = 0x12 || op = 0x30 || op = 0x31
  let badLen := if dataOp then len = 0 || 56 < len else len ≠ 0
  if !listed then some (0xA301, [], s.refuse r (objNum idx sub) false 0xA301)
  else if dataOp && leAt q 4 2 ≠ 0 then none
  else if op = 0x0B then
    let (v, c, s) := s.readObj r idx sub sel (codeIf badLen 0xA301)
    some (c, leBytes 8 v, s)
  else if op = 0x12 then
    let (c, s) := s.writeObj r idx sub sel (BitVec.ofNat 64 (leAt q 8 8)) (codeIf badLen 0xA301)
    some (c, [], s)
  else if badLen then some (0xA301, [], s.refuse r (objNum idx sub) (op = 0x30 || op = 0x32) 0xA301)
  else if op = 0x30 || op = 0x31 then
    let (c, s) := s.blockStart r (op = 0x31) args
    some (c, [], s)
  else if op = 0x33 then some (0, [], s.updBlk r fun b => b.put (leAt q 2 2) (slice q 8 len))
  else
    let (bs, s) := s.bufferRead r (leAt q 2 2) len
    some (0, bs, s)

/-- CAN_REQUEST (R424 to R426). -/
def canRequest (k : Fin 2) (f : CanFrame) (s : State) : State :=
  let r := canRequester k
  let base := s.regN .canBaseId k.val
  let n := f.ident.toNat
  if !s.serves r || !f.extended || n < base || base + 2 < n then s
  else if !f.fd || f.dlc ≠ 15 || f.data.length ≠ 64 then s.frameError r
  else if n ≠ base then s
  else
    match (s.port r).prev with
    | some (q, resp) => if q = f.data then s.drive r resp else run r s
    | none => run r s
where
  run (r : Requester) (s : State) : State :=
    match s.canExecute r f.data with
    | none => s.frameError r
    | some (code, data, s) =>
      let resp := canResponse f.data code data
      (s.drive r resp).updPort r fun p => { p with prev := some (f.data, resp) }

def execCanRequest (k : Fin 2) (f : CanFrame) (s : State) : Host.Outcome State Fault Refusal := done s (canRequest k f s)

/-- CAN_BUS_OFF (R424, R428): the controller leaves the bus and is counted, or has recovered under ISO 11898-1. While
one of the two is off the bus CAN_READY is 0, and it is so restored (R36). -/
def canBusOff (k : Fin 2) (recovered : Bool) (s : State) : State :=
  if s.porstLow || s.crown = .powerOn || s.can[k].busOff ≠ recovered then s
  else
    let s := { s with can := upd s.can k fun c => { c with busOff := !recovered } }
    if recovered then
      if s.can.toList.any (·.busOff) || !s.can.toList.any (·.tookReady) then s
      else
        let fresh := s.can.map fun (c : CanCtl) => { c with tookReady := false }
        { s with can := fresh }.reportReady rCan
    else
      let s := if s.ready rCan then { s with can := upd s.can k fun c => { c with tookReady := true } } else s
      (s.bump .canBusOffEvents k.val).leaveService rCan

def execCanBusOff (k : Fin 2) (recovered : Bool) (s : State) : Host.Outcome State Fault Refusal := done s (canBusOff k recovered s)

/- The host window (R35, R422, R423). -/

/-- LAST_OBJ of a refused access to a block engine. -/
def objBlock : BitVec 24 := 0xFFFFFF

/-- A naturally aligned access of 1, 2, 4 or 8 bytes. -/
def aligned (offset width : Nat) : Bool := (width = 1 || width = 2 || width = 4 || width = 8) && offset % width = 0

/-- The offset of a requester's own block engine. -/
def engineBase (r : Requester) : Nat := if r = .host then 0x8000000 else 0x9000000

/-- A register of a block engine: its offset and width. -/
def engineReg (rel : Nat) : Option (Nat × Nat) :=
  [(0x00, 4), (0x08, 8), (0x10, 4), (0x18, 8)].find? fun x => x.1 ≤ rel && rel < x.1 + x.2

/-- An offset within an engine's registers or buffer. -/
def inEngine (base offset : Nat) : Bool :=
  (base ≤ offset && offset < base + 0x20) || (base + 0x1000 ≤ offset && offset < base + 0x2000)

/-- The other H requester's engine. -/
def otherEngine (r : Requester) : Nat := if r = .host then 0x9000000 else 0x8000000

/-- The value of an engine's register. -/
def Block.reg (b : Block) (o : Nat) : Nat :=
  if o = 0 then b.regObject.toNat else if o = 8 then b.regRange.toNat else if o = 0x18 then b.status else 0

/-- A load of the block area: the bytes' value (R423). -/
def State.areaLoad (s : State) (r : Requester) (offset width : Nat) : Nat × State :=
  let rel := offset - engineBase r
  let refuse := fun (c : Nat) => (0, s.refuse r objBlock true c)
  if inEngine (otherEngine r) offset then refuse 0xA201
  else if !inEngine (engineBase r) offset then (0, s)
  else if 0x1000 ≤ rel then
    if !aligned offset width then refuse 0xA301
    else
      let (bs, s) := s.bufferRead r (rel - 0x1000) width
      (leNat bs, s)
  else
    match engineReg rel with
    | none => (0, s)
    | some (o, w) => if aligned offset width && rel + width ≤ o + w then ((s.port r).blk.reg o / 2 ^ (8 * (rel - o)) % 2 ^ (8 * width), s) else refuse 0xA301

/-- A store to the block area (R423). -/
def State.areaStore (s : State) (r : Requester) (offset width : Nat) (v : Word) : State :=
  let rel := offset - engineBase r
  let refuse := fun (c : Nat) => s.refuse r objBlock false c
  if inEngine (otherEngine r) offset then refuse 0xA201
  else if inEngine (engineBase r) offset && 0x1000 ≤ rel then
    if aligned offset width then s.updBlk r fun b => b.put (rel - 0x1000) (leBytes width v.toNat) else refuse 0xA301
  else
    match if inEngine (engineBase r) offset then engineReg rel else none with
    | none => refuse 0xA300
    | some (o, w) =>
      if o = 0x18 then refuse 0xA200
      else if !aligned offset width || rel ≠ o || width < w || 2 ^ (8 * w) ≤ v.toNat then refuse 0xA301
      else if o = 0x00 then s.updBlk r fun b => { b with regObject := BitVec.ofNat 32 v.toNat }
      else if o = 0x08 then s.updBlk r fun b => { b with regRange := v }
      else if v ≠ 1 && v ≠ 2 then refuse 0xA300
      else
        let b := (s.port r).blk
        (s.blockStart r (v = 2)
          ⟨BitVec.ofNat 16 (bits b.regObject 23 8), BitVec.ofNat 8 (bits b.regObject 7 0), 0, BitVec.ofNat 32 (bits b.regRange 31 0),
            BitVec.ofNat 32 (bits b.regRange 63 32), none⟩).2

/-- A load through the host window; what it returns is driven to the requester (R422). -/
def windowLoad (r : Requester) (offset width : Nat) (s : State) : State :=
  let (v, s) :=
    if 0x8000000 ≤ offset then s.areaLoad r offset width
    else
      let (v, c, s) := s.readObj r (offset / 0x800) (offset / 8 % 256) 0 (codeIf (!aligned offset width) 0xA301)
      if c ≠ 0 then (0, s) else (v / 2 ^ (8 * (offset % 8)) % 2 ^ (8 * width), s)
  s.drive r (leBytes width v)

/-- A store through the host window (R422): a slot takes whole aligned 8-byte stores only. -/
def windowStore (r : Requester) (offset width : Nat) (v : Word) (s : State) : State :=
  if 0x8000000 ≤ offset then s.areaStore r offset width v
  else (s.writeObj r (offset / 0x800) (offset / 8 % 256) 0 v (codeIf (width ≠ 8 || offset % 8 ≠ 0) 0xA301)).2

/-- DICTIONARY_WRITE (R410, R422, R423): a write of an object, or a store or load of an H requester at an offset of the host window. -/
def dictionaryWrite (r : Requester) (a : DictAccess) (s : State) : State :=
  if !s.serves r then s
  else
    match a with
    | .write idx sub v => (s.writeObj r idx.toNat sub.toNat 0 v []).2
    | .store o w v => if reachesWindow r && o + w ≤ 0x10000000 then windowStore r o w v s else s
    | .load o w => if reachesWindow r && o + w ≤ 0x10000000 then windowLoad r o w s else s

def execDictionaryWrite (r : Requester) (a : DictAccess) (s : State) : Host.Outcome State Fault Refusal := done s (dictionaryWrite r a s)

end Sys2Proof.Machine
end

