-- ==== Sys2Proof/Machine/Commands.lean ====
section
/-! DEFINITION. Commands that are writes of one object: each names the object, and the value where the row fixes it (R410). -/
namespace Sys2Proof.Machine
open Sys2Proof

/-- A BYTES object written whole (R419): the bytes enter the requester's buffer, and a commit writes them into the object. -/
def bytesWrite (r : Requester) (o : Ob) (a : Nat) (data : List Byte) (s : State) : State :=
  if !s.serves r then s
  else
    let row := o.row
    let s := s.updBlk r fun b => b.put 0 data
    let args : BlockArgs := ⟨BitVec.ofNat 16 (row.base + a * row.s1), BitVec.ofNat 8 row.sub, 0, 0, BitVec.ofNat 32 data.length, none⟩
    let (c, s) := s.blockStart r true args
    if c = 0 then blockTransferDone r s else s

/-- The value of a seg_command (R481). -/
def segWord (countM1 first : BitVec 16) (op claim perm : Nat) : Word :=
  BitVec.ofNat 64 (countM1.toNat * 2 ^ 48 + first.toNat * 2 ^ 32 + op * 2 ^ 28 + claim * 2 ^ 24 + perm)

/-- BOUGH_RESET by the hub foreman: it begins the reset that a seam it took out of service waits for (R348, R402). -/
def hubBoughReset (b : BoughId) (s : State) : State := if s.foremanRuns 4 && s.seamWaits b then s.hubReset b else s

/-- BOUGH_RESET (R395, R398). -/
def boughReset (b : BoughId) (src : ResetSource) (s : State) : State :=
  match src with
  | .write r v => dictWrite r .boughReset b.val 0 0 v s
  | .hubForeman => hubBoughReset b s

def execBoughReset (b : BoughId) (src : ResetSource) (s : State) : Host.Outcome State Fault Refusal := done s (boughReset b src s)

/-- LINK_FENCE (R535): FENCE is written beside the link's other bits. -/
def linkFence (r : Requester) (k : LinkId) (s : State) : State :=
  dictWrite r .linkControl k.val 0 0 (BitVec.ofNat 64 (s.linkUnits[k].control ||| 2)) s

def execLinkFence (r : Requester) (k : LinkId) (s : State) : Host.Outcome State Fault Refusal := done s (linkFence r k s)

/-- COUNTER_GROUP_CLEAR (R121): the clear object of the group is written. -/
def counterGroupClear (r : Requester) (g : CounterGroup) (v : Word) (s : State) : State :=
  dictWrite r (groupClear g).1 (groupClear g).2.1 (groupClear g).2.2 0 v s

def execCounterGroupClear (r : Requester) (g : CounterGroup) (v : Word) (s : State) : Host.Outcome State Fault Refusal :=
  done s (counterGroupClear r g v s)

/-- FOREMAN_RESTART (R463). -/
def execForemanRestart (r : Requester) (v : Word) (s : State) : Host.Outcome State Fault Refusal :=
  done s (dictWrite r .foremanRestart 0 0 0 v s)

/-- FW_UPDATE_START (R461). -/
def execFwUpdateStart (r : Requester) (v : Word) (s : State) : Host.Outcome State Fault Refusal :=
  done s (dictWrite r .fwUpdateStart 0 0 0 v s)

/-- FIRMWARE_CONFIRM (R459). -/
def execFirmwareConfirm (r : Requester) (v : Word) (s : State) : Host.Outcome State Fault Refusal :=
  done s (dictWrite r .firmwareConfirm 0 0 0 v s)

/-- HOST_L2_UNLOCK (R454, R469). -/
def execHostL2Unlock (r : Requester) (v : Word) (s : State) : Host.Outcome State Fault Refusal :=
  done s (dictWrite r .hostL2Lock 0 0 0 v s)

/-- FLASH_LOG_ERASE (R472). -/
def execFlashLogErase (r : Requester) (v : Word) (s : State) : Host.Outcome State Fault Refusal :=
  done s (dictWrite r .flashLogErase 0 0 0 v s)

/-- ALERT_CAUSE_CLEAR (R429). -/
def execAlertCauseClear (r : Requester) (v : Word) (s : State) : Host.Outcome State Fault Refusal :=
  done s (dictWrite r .alertCause 0 0 0 v s)

/-- IF_DECLARE (R437). -/
def execIfDeclare (r : Requester) (p : Fin 5) (v : Word) (s : State) : Host.Outcome State Fault Refusal :=
  done s (dictWrite r .ifDeclare p.val 0 0 v s)

/-- T5_ACCEPT (R438). -/
def execT5Accept (r : Requester) (p : Fin 5) (v : Word) (s : State) : Host.Outcome State Fault Refusal :=
  done s (dictWrite r .t5Accept p.val 0 0 v s)

/-- READINESS_EXPECTED_WRITE (R432). -/
def execReadinessExpectedWrite (r : Requester) (v : Word) (s : State) : Host.Outcome State Fault Refusal :=
  done s (dictWrite r .readinessExpected 0 0 0 v s)

/-- QUIESCE (R433). -/
def execQuiesce (r : Requester) (s : State) : Host.Outcome State Fault Refusal :=
  done s (dictWrite r .crownCommand 0 0 0 1 s)

/-- RESUME (R433). -/
def execResume (r : Requester) (s : State) : Host.Outcome State Fault Refusal :=
  done s (dictWrite r .crownCommand 0 0 0 2 s)

/-- SLEEP (R433). -/
def execSleep (r : Requester) (s : State) : Host.Outcome State Fault Refusal :=
  done s (dictWrite r .crownCommand 0 0 0 3 s)

/-- WAKE (R433). -/
def execWake (r : Requester) (s : State) : Host.Outcome State Fault Refusal :=
  done s (dictWrite r .crownCommand 0 0 0 4 s)

/-- BOUGH_DOWN (R433). -/
def execBoughDown (r : Requester) (mask : BitVec 4) (s : State) : Host.Outcome State Fault Refusal :=
  done s (dictWrite r .crownCommand 0 0 0 (BitVec.ofNat 64 (5 + mask.toNat * 256)) s)

/-- BOUGH_UP (R433). -/
def execBoughUp (r : Requester) (mask : BitVec 4) (s : State) : Host.Outcome State Fault Refusal :=
  done s (dictWrite r .crownCommand 0 0 0 (BitVec.ofNat 64 (6 + mask.toNat * 256)) s)

/-- HALT (R433). -/
def execHalt (r : Requester) (s : State) : Host.Outcome State Fault Refusal :=
  done s (dictWrite r .crownCommand 0 0 0 7 s)

/-- WQ_ENABLE (R376). -/
def execWqEnable (r : Requester) (q : QueueId) (s : State) : Host.Outcome State Fault Refusal :=
  done s (dictWrite r .wqEnable q.val 0 0 1 s)

/-- WQ_DISABLE (R376). -/
def execWqDisable (r : Requester) (q : QueueId) (s : State) : Host.Outcome State Fault Refusal :=
  done s (dictWrite r .wqEnable q.val 0 0 0 s)

/-- WQ_CANCEL (R389). -/
def execWqCancel (r : Requester) (q : QueueId) (seq : BitVec 32) (s : State) : Host.Outcome State Fault Refusal :=
  done s (dictWrite r .wqCancel q.val 0 0 (BitVec.ofNat 64 seq.toNat) s)

/-- WQ_CANCEL_ALL (R389). -/
def execWqCancelAll (r : Requester) (q : QueueId) (seq : BitVec 32) (s : State) : Host.Outcome State Fault Refusal :=
  done s (dictWrite r .wqCancel q.val 0 0 (BitVec.ofNat 64 (2 ^ 32 + seq.toNat)) s)

/-- CANCEL_BUNDLE (R389). -/
def execCancelBundle (r : Requester) (v : Word) (s : State) : Host.Outcome State Fault Refusal :=
  done s (dictWrite r .cancelBundle 0 0 0 v s)

/-- EVENT_COUNTER_WRITE (R145). -/
def execEventCounterWrite (r : Requester) (b : BoughId) (c : BitVec 10) (v : Word) (s : State) : Host.Outcome State Fault Refusal :=
  done s (dictWrite r .eventCounter b.val (c.toNat / 256) (c.toNat % 256) v s)

/-- HQ_BIND (R263). -/
def execHqBind (r : Requester) (b : BoughId) (q : HqPos) (s : State) : Host.Outcome State Fault Refusal :=
  done s (dictWrite r .hqBind b.val q.val 0 1 s)

/-- HQ_UNBIND (R270). -/
def execHqUnbind (r : Requester) (b : BoughId) (q : HqPos) (s : State) : Host.Outcome State Fault Refusal :=
  done s (dictWrite r .hqBind b.val q.val 0 0 s)

/-- HQ_POST (R265). -/
def execHqPost (r : Requester) (b : BoughId) (q : HqPos) (v : Word) (s : State) : Host.Outcome State Fault Refusal :=
  done s (dictWrite r .hqPost b.val q.val 0 v s)

/-- LOAD_REQUEST (R182). -/
def execLoadRequest (r : Requester) (v : Word) (s : State) : Host.Outcome State Fault Refusal :=
  done s (dictWrite r .loadRequest 0 0 0 v s)

/-- UNLOAD (R187). -/
def execUnload (r : Requester) (v : Word) (s : State) : Host.Outcome State Fault Refusal :=
  done s (dictWrite r .unload 0 0 0 v s)

/-- COUNTER_BLOCK_BIND (R189). -/
def execCounterBlockBind (r : Requester) (b : BoughId) (work : Bool) (v : Word) (s : State) : Host.Outcome State Fault Refusal :=
  done s (dictWrite r (if work then .wcBlockClaims else .ecBlockClaims) b.val 0 0 v s)

/-- SP_START (R288). -/
def execSpStart (r : Requester) (s : State) : Host.Outcome State Fault Refusal :=
  done s (dictWrite r .spControl 0 0 0 1 s)

/-- SP_STOP (R289). -/
def execSpStop (r : Requester) (s : State) : Host.Outcome State Fault Refusal :=
  done s (dictWrite r .spControl 0 0 0 2 s)

/-- CSI_ENABLE (R300). -/
def execCsiEnable (r : Requester) (p : CamId) (v : Word) (s : State) : Host.Outcome State Fault Refusal :=
  done s (dictWrite r .csiConfig p.val 0 0 v s)

/-- CSI_DISABLE (R300). -/
def execCsiDisable (r : Requester) (p : CamId) (v : Word) (s : State) : Host.Outcome State Fault Refusal :=
  done s (dictWrite r .csiConfig p.val 0 0 v s)

/-- I2C_XFER (R314). -/
def execI2cXfer (r : Requester) (i : Fin 8) (data : List Byte) (s : State) : Host.Outcome State Fault Refusal :=
  done s (bytesWrite r .i2cXfer i.val data s)

/-- ENC_ENABLE (R319). -/
def execEncEnable (r : Requester) (e : Fin 16) (v : Word) (s : State) : Host.Outcome State Fault Refusal :=
  done s (dictWrite r .encConfig e.val 0 0 v s)

/-- ENC_DISABLE (R319). -/
def execEncDisable (r : Requester) (e : Fin 16) (v : Word) (s : State) : Host.Outcome State Fault Refusal :=
  done s (dictWrite r .encConfig e.val 0 0 v s)

/-- ENC_BS_READ_WRITE (R319). -/
def execEncBsReadWrite (r : Requester) (e : Fin 16) (v : Word) (s : State) : Host.Outcome State Fault Refusal :=
  done s (dictWrite r .encBsRead e.val 0 0 v s)

/-- DEC_TAIL_WRITE (R320). -/
def execDecTailWrite (r : Requester) (v : Word) (s : State) : Host.Outcome State Fault Refusal :=
  done s (dictWrite r .decTail 0 0 0 v s)

/-- DRAM_GROUP_KEEP (R349). -/
def execDramGroupKeep (r : Requester) (b : BoughId) (s : State) : Host.Outcome State Fault Refusal :=
  done s (dictWrite r .dramGroupMode b.val 0 0 1 s)

/-- DRAM_GROUP_DROP (R349). -/
def execDramGroupDrop (r : Requester) (b : BoughId) (s : State) : Host.Outcome State Fault Refusal :=
  done s (dictWrite r .dramGroupMode b.val 0 0 2 s)

/-- DRAM_GROUP_ON (R350). -/
def execDramGroupOn (r : Requester) (b : BoughId) (s : State) : Host.Outcome State Fault Refusal :=
  done s (dictWrite r .dramGroupMode b.val 0 0 0 s)

/-- STARVE_FLAGS_CLEAR (R370). -/
def execStarveFlagsClear (r : Requester) (v : Word) (s : State) : Host.Outcome State Fault Refusal :=
  done s (dictWrite r .starveFlags 0 0 0 v s)

/-- CACHE_EARLY_WAYS_WRITE (R366). -/
def execCacheEarlyWaysWrite (r : Requester) (v : Word) (s : State) : Host.Outcome State Fault Refusal :=
  done s (dictWrite r .cacheEarlyWays 0 0 0 v s)

/-- DOMAIN_OFF_WRITE (R515). -/
def execDomainOffWrite (r : Requester) (hi : Bool) (v : Word) (s : State) : Host.Outcome State Fault Refusal :=
  done s (dictWrite r (if hi then .domainOffHi else .domainOffLo) 0 0 0 v s)

/-- CLAIM_OPEN (R475). -/
def execClaimOpen (r : Requester) (c : ClaimId) (s : State) : Host.Outcome State Fault Refusal :=
  done s (dictWrite r .claimCommand c.val 0 0 1 s)

/-- OPEN_CONFIDENTIAL (R490). -/
def execOpenConfidential (r : Requester) (c : ClaimId) (s : State) : Host.Outcome State Fault Refusal :=
  done s (dictWrite r .claimCommand c.val 0 0 2 s)

/-- RELEASE (R485). -/
def execRelease (r : Requester) (c : ClaimId) (s : State) : Host.Outcome State Fault Refusal :=
  done s (dictWrite r .claimCommand c.val 0 0 3 s)

/-- ASSIGN (R481). -/
def execAssign (r : Requester) (first countM1 : BitVec 16) (claim : ClaimId) (perm : BitVec 3) (s : State) : Host.Outcome State Fault Refusal :=
  done s (dictWrite r .segCommand 0 0 0 (segWord countM1 first 1 claim.val perm.toNat) s)

/-- CLEAR (R481). -/
def execClear (r : Requester) (first countM1 : BitVec 16) (s : State) : Host.Outcome State Fault Refusal :=
  done s (dictWrite r .segCommand 0 0 0 (segWord countM1 first 2 0 0) s)

/-- REVIVE (R481). -/
def execRevive (r : Requester) (first countM1 : BitVec 16) (s : State) : Host.Outcome State Fault Refusal :=
  done s (dictWrite r .segCommand 0 0 0 (segWord countM1 first 3 0 0) s)

/-- REPORT (R490). -/
def execReport (r : Requester) (c : ClaimId) (s : State) : Host.Outcome State Fault Refusal :=
  done s (dictWrite r .sessionCommand c.val 0 0 1 s)

/-- UNWRAP (R493). -/
def execUnwrap (r : Requester) (c : ClaimId) (s : State) : Host.Outcome State Fault Refusal :=
  done s (dictWrite r .sessionCommand c.val 0 0 2 s)

/-- IMPORT (R489). -/
def execImportData (r : Requester) (s : State) : Host.Outcome State Fault Refusal :=
  done s (dictWrite r .cryptStart 0 0 0 1 s)

/-- EXPORT (R489). -/
def execExportData (r : Requester) (s : State) : Host.Outcome State Fault Refusal :=
  done s (dictWrite r .cryptStart 0 0 0 2 s)

/-- OWNER_KEY_PROGRAM (R494). -/
def execOwnerKeyProgram (r : Requester) (data : List Byte) (s : State) : Host.Outcome State Fault Refusal :=
  done s (bytesWrite r .ownerKeyProgram 0 data s)

/-- LINK_ENABLE (R526). -/
def execLinkEnable (r : Requester) (k : LinkId) (dateline : Bool) (s : State) : Host.Outcome State Fault Refusal :=
  done s (dictWrite r .linkControl k.val 0 0 (BitVec.ofNat 64 (1 + bitN dateline 2)) s)

/-- LINK_DISABLE (R535). -/
def execLinkDisable (r : Requester) (k : LinkId) (dateline : Bool) (s : State) : Host.Outcome State Fault Refusal :=
  done s (dictWrite r .linkControl k.val 0 0 (BitVec.ofNat 64 (bitN dateline 2)) s)

/-- MEMBER_FENCE (R535). -/
def execMemberFence (r : Requester) (v : Word) (s : State) : Host.Outcome State Fault Refusal :=
  done s (dictWrite r .groveMemberFence 0 0 0 v s)

/-- PEER_CLAIMS_WRITE (R531). -/
def execPeerClaimsWrite (r : Requester) (m : Fin 16) (v : Word) (s : State) : Host.Outcome State Fault Refusal :=
  done s (dictWrite r .peerClaims m.val 0 0 v s)

end Sys2Proof.Machine
end

