-- ==== Sys2Proof/Machine/PcieIn.lean ====
section
/-! DEFINITION. Inbound PCIe requests: the BARs of the endpoint's function (R540), and the requests of devices in root-port mode (R542). -/
namespace Sys2Proof.Machine
open Sys2Proof

/-- An inbound request is answered. -/
def State.tlpAnswer (s : State) (a : TlpAnswer) : State := { s with pcie := { s.pcie with answer := a } }

/-- An uncorrectable error or a refused inbound request: counted, and a PCIE_ERROR record is written (R538, R544); its details are free. -/
def State.pcieError (s : State) : State :=
  let s := s.bump .pcieErrors
  let (w0, s) := s.drawWord
  let (w1, s) := s.drawWord
  s.logRec 0x5806 3 7 9 w0 w1

/-- A request that is not served (R540, R542). -/
def State.tlpRefuse (s : State) (a : TlpAnswer) : State := s.pcieError.tlpAnswer a

/- BAR2: the queue window (R377). -/

/-- A load of the queue window: the value of 4 bytes of a register; every other offset reads 0. -/
def State.queueLoad (s : State) (off width : Nat) : Nat :=
  let w := s.wq (Fin.ofNat 64 (off / 0x10000))
  let o := off % 0x10000
  let reg := fun (base : Nat) (v : BitVec 32) =>
    if base ≤ o && o + width ≤ base + 4 then v.toNat / 2 ^ (8 * (o - base)) % 2 ^ (8 * width) else if o = base then v.toNat else 0
  if o / 8 = 1 then reg 0x8 w.acceptIndex else if o / 8 = 2 then reg 0x10 w.compWrite else if o / 8 = 3 then reg 0x18 w.compRead else 0

/-- A store to the queue window; a store that is not of a U32 register's own form is refused with 0xA301 (DEDUCED, log entry 28). -/
def queueStore (r : Requester) (off width : Nat) (v : Word) (s : State) : State :=
  let q : QueueId := Fin.ofNat 64 (off / 0x10000)
  let o := off % 0x10000
  let reg := o / 4 = 0 || o / 4 = 2 || o / 4 = 4 || o / 4 = 6
  let form := o % 8 = 0 && (width = 4 || (width = 8 && v.toNat < 2 ^ 32))
  if !reg then s.refuseWindow r q 0xA300
  else if o / 4 = 2 || o / 4 = 4 then s.refuseWindow r q 0xA200
  else if !form then s.refuseWindow r q 0xA301
  else if o / 4 = 0 then doorbell r q (BitVec.ofNat 32 v.toNat) s
  else compReadWrite r q (BitVec.ofNat 32 v.toNat) s

/- BAR4: the MSI-X table and its pending bits (R540). -/

/-- A 4-byte word of the table or the pending-bit array. -/
def Pcie.msixWord (p : Pcie) (off : Nat) : Nat :=
  if off < 1040 then
    let e := p.msix[(Fin.ofNat 65 (off / 16))]
    match off % 16 / 4 with
    | 0 => bits e.addr 31 0
    | 1 => bits e.addr 63 32
    | 2 => e.data.toNat
    | _ => bitN e.masked 0
  else if 0x8000 ≤ off && off < 0x8010 then p.pendingBits.toNat / 2 ^ (8 * (off - 0x8000)) % 2 ^ 32
  else 0

/-- A write of a 4-byte word of the table; the message of a pending vector is sent when it is unmasked. -/
def State.msixPut (s : State) (off v : Nat) : State :=
  if 1040 ≤ off then s
  else
    let i : Fin 65 := Fin.ofNat 65 (off / 16)
    let set := fun (e : Msix) =>
      match off % 16 / 4 with
      | 0 => { e with addr := BitVec.ofNat 64 (bits e.addr 63 32 * 2 ^ 32 + v % 2 ^ 32) }
      | 1 => { e with addr := BitVec.ofNat 64 (v % 2 ^ 32 * 2 ^ 32 + bits e.addr 31 0) }
      | 2 => { e with data := BitVec.ofNat 32 v }
      | _ => { e with masked := v.testBit 0 }
    let s := { s with pcie := { s.pcie with msix := upd s.pcie.msix i set } }
    let p := s.pcie
    if !p.msix[i].masked && p.pendingBits.getLsbD i.val && p.up[(0 : Fin 2)] then
      { s with pcie := { p with pendingBits := setBit p.pendingBits i.val false, lastVector := some i.val, messages := p.messages + 1 } }
    else s

/-- An access of 4 or 8 aligned bytes of BAR4, word by word. -/
def State.msixStore (s : State) (off width : Nat) (v : Word) : State :=
  let s := s.msixPut off (v.toNat % 2 ^ 32)
  if width = 8 then s.msixPut (off + 4) (v.toNat / 2 ^ 32) else s

/-- A TLP to a BAR of the endpoint (R540). -/
def barAccess (bar off width : Nat) (write : Option Word) (s : State) : State :=
  let fits := fun (size : Nat) => 0 < width && off + width ≤ size
  let answers := fun (v : Nat) (s : State) => s.tlpAnswer (.success (leBytes width v))
  if bar = 0 && fits 0x10000000 then
    match write with
    | some v => (if s.serves .pcie then windowStore .pcie off width v s else s).tlpAnswer (.success [])
    | none => if s.serves .pcie then let s := windowLoad .pcie off width s; s.tlpAnswer (.success (s.port .pcie).out) else answers 0 s
  else if bar = 2 && fits 0x400000 then
    match write with
    | some v => (if s.serves .pcie then queueStore .pcie off width v s else s).tlpAnswer (.success [])
    | none => answers (s.queueLoad off width) s
  else if bar = 4 && fits 0x10000 then
    let whole := (width = 4 || width = 8) && off % width = 0
    match write with
    | some v => (if whole then s.msixStore off width v else s).tlpAnswer (.success [])
    | none => answers (if whole then s.pcie.msixWord off + (if width = 8 then s.pcie.msixWord (off + 4) * 2 ^ 32 else 0) else 0) s
  else s.tlpRefuse .unsupported

/-- A read or write by a device in root-port mode (R542). -/
def deviceAccess (addr len : Nat) (write : Option (List Byte)) (s : State) : State :=
  if addr + len ≤ 2 ^ 37 then
    match write with
    | some bs =>
      match s.writeMem .pcieDevice addr bs with
      | (none, s) => s.tlpAnswer (.success [])
      | (some _, s) => s.tlpRefuse .completerAbort
    | none =>
      match s.readMem .pcieDevice addr len with
      | (.ok bs, s) => s.tlpAnswer (.success bs)
      | (.error _, s) => s.tlpRefuse .completerAbort
  else
    match write with
    | some bs =>
      if 0x2000000000 ≤ addr && addr + len ≤ 0x2000010000 then { s with pcie := { s.pcie with hostMsi := some (addr, bs), answer := .success [] } }
      else s.tlpRefuse .unsupported
    | none => s.tlpRefuse .unsupported

/-- PCIE_INBOUND_REQUEST (R540, R542): a request through a port whose link is up. -/
def pcieInboundRequest (t : PcieTlp) (s : State) : State :=
  let p := s.pcie
  let live := fun (port : Fin 2) => !s.porstLow && p.up[port]
  match t with
  | .barAccess bar off width w => if !live 0 then s else if p.strap = 0 then barAccess bar off width w s else s.tlpRefuse .unsupported
  | .memRead port a n => if !live port then s else if p.strap = 0 then s.tlpRefuse .unsupported else deviceAccess a n none s
  | .memWrite port a bs => if !live port then s else if p.strap = 0 then s.tlpRefuse .unsupported else deviceAccess a bs.length (some bs) s
  | .uncorrectableError => if live 0 || live 1 then s.pcieError else s

def execPcieInboundRequest (t : PcieTlp) (s : State) : Host.Outcome State Fault Refusal := done s (pcieInboundRequest t s)

end Sys2Proof.Machine
end

