-- ==== Sys2Proof/Machine/Dispatch.lean ====
section
/-! DEFINITION. One arm per command, in the table's order: a direct call of its meaning. -/
namespace Sys2Proof.Machine
open Sys2Proof

def exec (i : Instr) (s : State) : Host.Outcome State Fault Refusal :=
  match i with
  | .porstNFall widthNs => Sys2Proof.Machine.execPorstNFall widthNs s
  | .porstNRise pcieMode testEn => Sys2Proof.Machine.execPorstNRise pcieMode testEn s
  | .foremanImageLoad t readOk => Sys2Proof.Machine.execForemanImageLoad t readOk s
  | .hostPayloadLoad readOk => Sys2Proof.Machine.execHostPayloadLoad readOk s
  | .foremanTrap f cause => Sys2Proof.Machine.execForemanTrap f cause s
  | .foremanRestart r v => Sys2Proof.Machine.execForemanRestart r v s
  | .fwUpdateStart r v => Sys2Proof.Machine.execFwUpdateStart r v s
  | .fwUpdateDone flashOk => Sys2Proof.Machine.execFwUpdateDone flashOk s
  | .firmwareConfirm r v => Sys2Proof.Machine.execFirmwareConfirm r v s
  | .trialExpiry t => Sys2Proof.Machine.execTrialExpiry t s
  | .hostL2Unlock r v => Sys2Proof.Machine.execHostL2Unlock r v s
  | .flashLogCopy => Sys2Proof.Machine.execFlashLogCopy s
  | .flashLogErase r v => Sys2Proof.Machine.execFlashLogErase r v s
  | .recoveryHello p => Sys2Proof.Machine.execRecoveryHello p s
  | .recoveryBegin p => Sys2Proof.Machine.execRecoveryBegin p s
  | .recoveryData p => Sys2Proof.Machine.execRecoveryData p s
  | .recoveryFinish p => Sys2Proof.Machine.execRecoveryFinish p s
  | .recoveryReboot p => Sys2Proof.Machine.execRecoveryReboot p s
  | .recoveryPacketGap => Sys2Proof.Machine.execRecoveryPacketGap s
  | .read frame => Sys2Proof.Machine.execRead frame s
  | .write frame => Sys2Proof.Machine.execWrite frame s
  | .blockOpen r a => Sys2Proof.Machine.execBlockOpen r a s
  | .blockCommit r a => Sys2Proof.Machine.execBlockCommit r a s
  | .blockDataRead r addr n => Sys2Proof.Machine.execBlockDataRead r addr n s
  | .blockDataWrite r addr data => Sys2Proof.Machine.execBlockDataWrite r addr data s
  | .portReset frame => Sys2Proof.Machine.execPortReset frame s
  | .postedWriteApply => Sys2Proof.Machine.execPostedWriteApply s
  | .blockTransferDone r => Sys2Proof.Machine.execBlockTransferDone r s
  | .canRequest k f => Sys2Proof.Machine.execCanRequest k f s
  | .canBusOff k recovered => Sys2Proof.Machine.execCanBusOff k recovered s
  | .alertCauseClear r v => Sys2Proof.Machine.execAlertCauseClear r v s
  | .dictionaryWrite r a => Sys2Proof.Machine.execDictionaryWrite r a s
  | .ifDeclare r p v => Sys2Proof.Machine.execIfDeclare r p v s
  | .t5Accept r p v => Sys2Proof.Machine.execT5Accept r p v s
  | .readinessExpectedWrite r v => Sys2Proof.Machine.execReadinessExpectedWrite r v s
  | .quiesce r => Sys2Proof.Machine.execQuiesce r s
  | .resume r => Sys2Proof.Machine.execResume r s
  | .sleep r => Sys2Proof.Machine.execSleep r s
  | .wake r => Sys2Proof.Machine.execWake r s
  | .boughDown r mask => Sys2Proof.Machine.execBoughDown r mask s
  | .boughUp r mask => Sys2Proof.Machine.execBoughUp r mask s
  | .halt r => Sys2Proof.Machine.execHalt r s
  | .boughReset b src => Sys2Proof.Machine.execBoughReset b src s
  | .boughDrainLimit b => Sys2Proof.Machine.execBoughDrainLimit b s
  | .boughDrainEnd b => Sys2Proof.Machine.execBoughDrainEnd b s
  | .boughResetDone b => Sys2Proof.Machine.execBoughResetDone b s
  | .doorbell r q v => Sys2Proof.Machine.execDoorbell r q v s
  | .compReadWrite r q v => Sys2Proof.Machine.execCompReadWrite r q v s
  | .wqEnable r q => Sys2Proof.Machine.execWqEnable r q s
  | .wqDisable r q => Sys2Proof.Machine.execWqDisable r q s
  | .wqCancel r q seq => Sys2Proof.Machine.execWqCancel r q seq s
  | .wqCancelAll r q seq => Sys2Proof.Machine.execWqCancelAll r q seq s
  | .cancelBundle r v => Sys2Proof.Machine.execCancelBundle r v s
  | .jobDeadline q seq => Sys2Proof.Machine.execJobDeadline q seq s
  | .jobHandleTake b q => Sys2Proof.Machine.execJobHandleTake b q s
  | .jobBufferReserve b q => Sys2Proof.Machine.execJobBufferReserve b q s
  | .completionRecordWrite q => Sys2Proof.Machine.execCompletionRecordWrite q s
  | .completionRecordRetry q => Sys2Proof.Machine.execCompletionRecordRetry q s
  | .descriptorStart => Sys2Proof.Machine.execDescriptorStart s
  | .branchJoin b r => Sys2Proof.Machine.execBranchJoin b r s
  | .counterSeek b c => Sys2Proof.Machine.execCounterSeek b c s
  | .workClaim u => Sys2Proof.Machine.execWorkClaim u s
  | .leafStep b r l e => Sys2Proof.Machine.execLeafStep b r l e s
  | .drainWriteoutDone b r l => Sys2Proof.Machine.execDrainWriteoutDone b r l s
  | .tileFinish u e => Sys2Proof.Machine.execTileFinish u e s
  | .descriptorComplete q seq id inst => Sys2Proof.Machine.execDescriptorComplete q seq id inst s
  | .eventCounterWrite r b c v => Sys2Proof.Machine.execEventCounterWrite r b c v s
  | .sortUnitStart b => Sys2Proof.Machine.execSortUnitStart b s
  | .sortUnitDone b => Sys2Proof.Machine.execSortUnitDone b s
  | .rotatePass b => Sys2Proof.Machine.execRotatePass b s
  | .counterGroupClear r g v => Sys2Proof.Machine.execCounterGroupClear r g v s
  | .transferIssue h => Sys2Proof.Machine.execTransferIssue h s
  | .transferComplete h ix => Sys2Proof.Machine.execTransferComplete h ix s
  | .hqBind r b q => Sys2Proof.Machine.execHqBind r b q s
  | .hqUnbind r b q => Sys2Proof.Machine.execHqUnbind r b q s
  | .hqPost r b q v => Sys2Proof.Machine.execHqPost r b q v s
  | .producerBufferTake src b q => Sys2Proof.Machine.execProducerBufferTake src b q s
  | .loadRequest r v => Sys2Proof.Machine.execLoadRequest r v s
  | .loadComplete => Sys2Proof.Machine.execLoadComplete s
  | .unload r v => Sys2Proof.Machine.execUnload r v s
  | .counterBlockBind r b work v => Sys2Proof.Machine.execCounterBlockBind r b work v s
  | .spStart r => Sys2Proof.Machine.execSpStart r s
  | .spStop r => Sys2Proof.Machine.execSpStop r s
  | .packSample => Sys2Proof.Machine.execPackSample s
  | .batchPost => Sys2Proof.Machine.execBatchPost s
  | .csiEnable r p v => Sys2Proof.Machine.execCsiEnable r p v s
  | .csiDisable r p v => Sys2Proof.Machine.execCsiDisable r p v s
  | .csiPacket p k => Sys2Proof.Machine.execCsiPacket p k s
  | .frameStart p => Sys2Proof.Machine.execFrameStart p s
  | .csiLine p pixels => Sys2Proof.Machine.execCsiLine p pixels s
  | .ipipeLine q => Sys2Proof.Machine.execIpipeLine q s
  | .frameEnd p => Sys2Proof.Machine.execFrameEnd p s
  | .i2cXfer r ix data => Sys2Proof.Machine.execI2cXfer r ix data s
  | .i2cDone ix code count data => Sys2Proof.Machine.execI2cDone ix code count data s
  | .stretchTimeout ix count => Sys2Proof.Machine.execStretchTimeout ix count s
  | .fsyncEdge f => Sys2Proof.Machine.execFsyncEdge f s
  | .fsyncPulseEnd f => Sys2Proof.Machine.execFsyncPulseEnd f s
  | .encEnable r sm v => Sys2Proof.Machine.execEncEnable r sm v s
  | .encDisable r sm v => Sys2Proof.Machine.execEncDisable r sm v s
  | .encAccessUnit sm => Sys2Proof.Machine.execEncAccessUnit sm s
  | .encBsReadWrite r sm v => Sys2Proof.Machine.execEncBsReadWrite r sm v s
  | .decTailWrite r v => Sys2Proof.Machine.execDecTailWrite r v s
  | .decCommand => Sys2Proof.Machine.execDecCommand s
  | .decPicturePost => Sys2Proof.Machine.execDecPicturePost s
  | .seamRequest sm q => Sys2Proof.Machine.execSeamRequest sm q s
  | .seamCommandIssue sm => Sys2Proof.Machine.execSeamCommandIssue sm s
  | .seamReadData sm e => Sys2Proof.Machine.execSeamReadData sm e s
  | .sweepDebtTick sm k => Sys2Proof.Machine.execSweepDebtTick sm k s
  | .dramTempPoll sm twice => Sys2Proof.Machine.execDramTempPoll sm twice s
  | .rowOpenTimeout sm k => Sys2Proof.Machine.execRowOpenTimeout sm k s
  | .scrubPromote sm => Sys2Proof.Machine.execScrubPromote sm s
  | .refTick sm => Sys2Proof.Machine.execRefTick sm s
  | .refWindowEnd sm => Sys2Proof.Machine.execRefWindowEnd sm s
  | .seamTrainDone sm ok => Sys2Proof.Machine.execSeamTrainDone sm ok s
  | .seamOut sm cause => Sys2Proof.Machine.execSeamOut sm cause s
  | .dramGroupKeep r b => Sys2Proof.Machine.execDramGroupKeep r b s
  | .dramGroupDrop r b => Sys2Proof.Machine.execDramGroupDrop r b s
  | .dramGroupOn r b => Sys2Proof.Machine.execDramGroupOn r b s
  | .dramGroupChangeDone b => Sys2Proof.Machine.execDramGroupChangeDone b s
  | .dramEnHoldEnd b => Sys2Proof.Machine.execDramEnHoldEnd b s
  | .sliceAccept q => Sys2Proof.Machine.execSliceAccept q s
  | .starveFlagsClear r v => Sys2Proof.Machine.execStarveFlagsClear r v s
  | .cacheEarlyWaysWrite r v => Sys2Proof.Machine.execCacheEarlyWaysWrite r v s
  | .domainOffWrite r hi v => Sys2Proof.Machine.execDomainOffWrite r hi v s
  | .powerPeriod m => Sys2Proof.Machine.execPowerPeriod m s
  | .paceUpdate m host => Sys2Proof.Machine.execPaceUpdate m host s
  | .voltageStepAck => Sys2Proof.Machine.execVoltageStepAck s
  | .vrAlert rail => Sys2Proof.Machine.execVrAlert rail s
  | .vrAlertRelease => Sys2Proof.Machine.execVrAlertRelease s
  | .thermalSensorRead t => Sys2Proof.Machine.execThermalSensorRead t s
  | .claimOpen r c => Sys2Proof.Machine.execClaimOpen r c s
  | .openConfidential r c => Sys2Proof.Machine.execOpenConfidential r c s
  | .release r c => Sys2Proof.Machine.execRelease r c s
  | .claimReleaseDone c => Sys2Proof.Machine.execClaimReleaseDone c s
  | .assign r first countM1 claim perm => Sys2Proof.Machine.execAssign r first countM1 claim perm s
  | .clear r first countM1 => Sys2Proof.Machine.execClear r first countM1 s
  | .revive r first countM1 => Sys2Proof.Machine.execRevive r first countM1 s
  | .segmentChange => Sys2Proof.Machine.execSegmentChange s
  | .report r c => Sys2Proof.Machine.execReport r c s
  | .reportReady c => Sys2Proof.Machine.execReportReady c s
  | .unwrap r c => Sys2Proof.Machine.execUnwrap r c s
  | .lmsTreeReady => Sys2Proof.Machine.execLmsTreeReady s
  | .importData r => Sys2Proof.Machine.execImportData r s
  | .exportData r => Sys2Proof.Machine.execExportData r s
  | .cryptDone => Sys2Proof.Machine.execCryptDone s
  | .ownerKeyProgram r data => Sys2Proof.Machine.execOwnerKeyProgram r data s
  | .drbgReseed => Sys2Proof.Machine.execDrbgReseed s
  | .entropyHealthFail => Sys2Proof.Machine.execEntropyHealthFail s
  | .linkEnable r k dateline => Sys2Proof.Machine.execLinkEnable r k dateline s
  | .linkUp k o => Sys2Proof.Machine.execLinkUp k o s
  | .linkDisable r k dateline => Sys2Proof.Machine.execLinkDisable r k dateline s
  | .linkFence r k => Sys2Proof.Machine.execLinkFence r k s
  | .memberFence r v => Sys2Proof.Machine.execMemberFence r v s
  | .flitReceive k f => Sys2Proof.Machine.execFlitReceive k f s
  | .linkRetrainDone k ok => Sys2Proof.Machine.execLinkRetrainDone k ok s
  | .laneRepaired k lane => Sys2Proof.Machine.execLaneRepaired k lane s
  | .linkRekey k ok => Sys2Proof.Machine.execLinkRekey k ok s
  | .readReq k t => Sys2Proof.Machine.execReadReq k t s
  | .writeTransaction k t => Sys2Proof.Machine.execWriteTransaction k t s
  | .readCpl k t a => Sys2Proof.Machine.execReadCpl k t a s
  | .writeAck k t a => Sys2Proof.Machine.execWriteAck k t a s
  | .pair m c peerSealed peerTag => Sys2Proof.Machine.execPair m c peerSealed peerTag s
  | .peerClaimsWrite r m v => Sys2Proof.Machine.execPeerClaimsWrite r m v s
  | .timeExchange offset => Sys2Proof.Machine.execTimeExchange offset s
  | .pcieInboundRequest t => Sys2Proof.Machine.execPcieInboundRequest t s
  | .pcieCompletionTimeout tag => Sys2Proof.Machine.execPcieCompletionTimeout tag s
  | .pcieLinkReset k => Sys2Proof.Machine.execPcieLinkReset k s
  | .pcieLinkUp port width speed => Sys2Proof.Machine.execPcieLinkUp port width speed s
  | .functionReportsReady f => Sys2Proof.Machine.execFunctionReportsReady f s
  | .localMemoryZeroed b => Sys2Proof.Machine.execLocalMemoryZeroed b s
  | .claimInSession c => Sys2Proof.Machine.execClaimInSession c s
  | .claimSealed c => Sys2Proof.Machine.execClaimSealed c s
  | .hsBurst p begins => Sys2Proof.Machine.execHsBurst p begins s
  | .skewCalibration p => Sys2Proof.Machine.execSkewCalibration p s

end Sys2Proof.Machine
end

