-- ==== Sys2Proof/Machine/Step.lean ====
section
/-! DEFINITION. One step: the command at the front of the queue runs on the queue's rest; with nothing waiting the timebase
counts one tick. -/
namespace Sys2Proof.Machine
open Sys2Proof

/-- With nothing waiting the block idles for one tick of the timebase (R7; log entry 4, DESIGN CHOICE). -/
def State.tick (s : State) : State := { s with now := s.now + 1 }

/-- One step of the block. -/
def step (s : State) : Host.Outcome State Fault Refusal :=
  match s.pending with
  | [] => .next s.tick
  | i :: rest => exec i { s with pending := rest }

/-- s with the command that a word spells put at the front of its queue; s unchanged where the word spells none. -/
def State.withFetchWord (s : State) (nbits w : Nat) : State :=
  match decodeTableWord nbits w with
  | some i => { s with pending := i :: s.pending }
  | none => s

end Sys2Proof.Machine
end

