-- ==== Sys2Proof/Safety.lean ====
section
/-! DEFINITION. What the statements speak of: when a write of a dictionary object passes the dictionary's own checks, how an applied
write is counted, and the invariants that every step keeps. -/
namespace Sys2Proof.Safety
open Sys2Proof Sys2Proof.Machine

/-- Requester r may write v to object o (a, b, k) now: its port serves, its layout has the object (R438), and none of the checks of R409
that are the same for every object refuses (the unit is present, the port's column, the length, the type, the crown's state, the foreman
that serves). The object's own conditions are stated beside it. -/
abbrev Writes (s : State) (r : Requester) (o : Ob) (a b k : Nat) (v : Word) : Prop :=
  s.serves r = true ∧ s.named (reqNum r) o a b k = some ⟨⟨o, a, b, k⟩, none⟩ ∧ s.writeCodes r (o.index a b) 0 ⟨⟨o, a, b, k⟩, none⟩ v = []

/-- Requester r may open a range of, or commit to, object o (a, b, k) now: what is the same for every object (R409, R419). -/
abbrev Commits (s : State) (r : Requester) (a : BlockArgs) (t : Target) (commit : Bool) : Prop :=
  s.serves r = true ∧ s.target (reqNum r) a.idx.toNat a.sub.toNat = some t ∧ s.blockCodes r commit a t = [] ∧
  (s.port r).blk.state ≠ .busy

/-- The requester's DONE count has risen by one, and no other field of any port has changed (R418). -/
abbrev Counted (s t : State) (r : Requester) : Prop :=
  t.ports = upd s.ports (reqNum r) fun p => { p with done := p.done + 1 }

/-- Every plain register and counter of the dictionary reads as before, but for those of the keys listed. -/
abbrev KeepsRegs (s t : State) (keys : List Nat) : Prop := ∀ (o : Ob) (a b k : Nat), o.key a b k ∉ keys → t.reg o a b k = s.reg o a b k

/-- No request for a buffer of the queue has waited longer than the producer's, another producer's or a job's (R265, R268). -/
abbrev Oldest (s : State) (p : Producer) (b : BoughId) (q : HqPos) : Prop :=
  (s.asking b q).takeWhile (fun a => a.1 ≠ p) = [] ∧
  ∀ j ∈ s.reserving b q, (((s.asking b q).find? fun a => a.1 = p).map (·.2)).getD s.hub.nextOrder ≤ j.order

/-- Memory is in its canonical form. -/
abbrev MemOk (s : State) : Prop := s.mem.wf = true

/-- Readiness bits stand only for functions present in the grade (R37). -/
abbrev ReadyOk (s : State) : Prop :=
  s.readiness &&& ~~~(presentReady s.grade) = 0 ∧ s.readyFailed &&& ~~~(presentReady s.grade) = 0

/-- The Burlyn port holds at most 16 posted frames (R417). -/
abbrev PostedOk (s : State) : Prop := (s.port .burlyn).posted.length ≤ 16

end Sys2Proof.Safety
end

