-- ==== Sys2Proof/Certificates/Slice0/Obligations.lean ====
section
/-! DEFINITION. The statements for the provers, family by family: what each command does where it has its own effect, what it leaves as
it was, and what every step keeps. -/
open Sys2Proof Sys2Proof.Machine

/- The machine as a whole. -/

/-- A step with a command waiting is that command's effect on the state whose queue is the rest (in place of a processor's fetch). -/
def Obligations.StepRunsFrontCommand : Prop :=
  ∀ (s : State) (c : Instr), step { s with pending := c :: s.pending } = exec c s

/-- No command ends the run: each answers a next state, and the queue stays first in, first out. With nothing waiting the step counts one
tick of the timebase and changes nothing else: the tick is the model's choice (log entry 4). -/
def Obligations.EveryStepTakesTheFrontCommand : Prop :=
  (∀ (c : Instr) (s : State), ∃ t, exec c s = .next t ∧ t.pending = s.pending) ∧
  (∀ s : State, ∃ t, step s = .next t ∧ t.pending = s.pending.tail) ∧
  (∀ s : State, s.pending = [] → step s = .next { s with now := s.now + 1 })

/-- What reset leaves, where the spec states it: POWER_ON, no function ready or failed (R36, R431), claim 0 open and every other closed
(R475), no segment in a claim but 0, every queue disabled, no job, no bundle, no handle queue bound, every object at the default of its
table, no cause of an alert. -/
def Obligations.ResetLeavesTheStatedValues : Prop :=
  State.reset.crown = .powerOn ∧ State.reset.readiness = 0 ∧ State.reset.readyFailed = 0 ∧
  (∀ c : ClaimId, State.reset.claimState c = if c = 0 then .opened else .closed) ∧
  (∀ n : Nat, (State.reset.seg n).claim = 0 ∧ (State.reset.seg n).lost = true ∧ (State.reset.seg n).locks = 0) ∧
  (∀ q : QueueId, (State.reset.wq q).enabled = false) ∧ State.reset.hub.jobs = [] ∧ State.reset.hub.bundles = [] ∧
  (∀ (b : BoughId) (q : HqPos), (State.reset.hq b q).bound = false) ∧
  (∀ (o : Ob) (a b k : Nat), State.reset.reg o a b k = BitVec.ofNat 64 o.row.dflt) ∧
  State.reset.alertCause = 0 ∧ State.reset.alertAsserted = false ∧ State.reset.pending = []

/-- Reset meets the invariants that every step keeps. Where the spec leaves a point open the model chooses: log entry 2. -/
def Obligations.ResetMeetsTheInvariants : Prop :=
  Safety.MemOk State.reset ∧ Safety.ReadyOk State.reset ∧ Safety.PostedOk State.reset

/-- Every step, whatever the command, keeps memory in its canonical form. Where the spec leaves a point open the model chooses: log entry
2. -/
def Obligations.EveryStepKeepsMemoryCanonical : Prop :=
  ∀ s t : State, Safety.MemOk s → step s = .next t → Safety.MemOk t

/-- Every step keeps the readiness bits of absent functions at 0 (R37), and the grade, which is fuses (R1). -/
def Obligations.EveryStepKeepsAbsentFunctionsUnready : Prop :=
  ∀ s t : State, Safety.ReadyOk s → step s = .next t → Safety.ReadyOk t ∧ t.grade = s.grade

/-- The word of seg_command (R481) drops no bit of its operands: OP, the claim, PERM, the first segment and the count come back from the
word at every value, and its reserved bits are 0. -/
def Obligations.SegCommandWordRoundTrip : Prop :=
  (∀ (first countM1 : BitVec 16) (c : ClaimId) (perm : BitVec 3),
    let v := (segWord countM1 first 1 c.val perm.toNat).toNat
    segOpOf v = some (.assign c perm) ∧ nbits v 47 32 = first.toNat ∧ nbits v 63 48 = countM1.toNat ∧ nbits v 23 3 = 0) ∧
  (∀ first countM1 : BitVec 16,
    let v := (segWord countM1 first 2 0 0).toNat
    segOpOf v = some .clear ∧ nbits v 47 32 = first.toNat ∧ nbits v 63 48 = countM1.toNat ∧ nbits v 27 0 = 0) ∧
  (∀ first countM1 : BitVec 16,
    let v := (segWord countM1 first 3 0 0).toNat
    segOpOf v = some .revive ∧ nbits v 47 32 = first.toNat ∧ nbits v 63 48 = countM1.toNat ∧ nbits v 27 0 = 0)

/-- A Burlyn frame (R413, R414) drops no bit of what it carries: the frame of a write, an open or a commit, with or without its CRC, is
posted with its index, subindex, SELECT, value and range at every value they can take. -/
def Obligations.BurlynFrameRoundTrip : Prop :=
  (∀ (s : State) (idx : BitVec 16) (sub sel : BitVec 8) (v : Word) (crc : Bool),
    s.serves .burlyn = true → (s.port .burlyn).posted.length < 16 →
    let body := [sub] ++ leBytes 2 idx.toNat ++ [sel] ++ leBytes 8 v.toNat
    let frame := [0x12, 0xED] ++ body ++ (if crc then leBytes 2 (crc16 body).toNat else [])
    exec (.write frame) s = .next (s.updPort .burlyn fun p => { p with posted := p.posted ++ [.write idx sub sel v] })) ∧
  (∀ (s : State) (a : BlockArgs) (commit crc : Bool),
    s.serves .burlyn = true → (s.port .burlyn).posted.length < 16 → a.crc = none →
    let op : Byte := if commit then 0x31 else 0x30
    let body := blockArgBytes a
    let frame := [op, ~~~op] ++ body ++ (if crc then leBytes 2 (crc16 body).toNat else [])
    exec (.write frame) s = .next (s.updPort .burlyn fun p => { p with posted := p.posted ++ [.block commit a] }))

/-- A whole burst stored in DRAM reads back as stored, for any requester that the checks of R479 and R351 let do both, and every other
byte of memory is as it was: the store clears the burst's poison (R343) and it is no longer unspecified (R345). Where the spec leaves a
point open the model chooses: log entry 50. -/
def Obligations.StoredBurstReadsBack : Prop :=
  ∀ (s : State) (who : MemRequester) (a : Nat) (bs : List Byte),
    a < 2 ^ 37 → a % 64 = 0 → bs.length = 64 → s.checkDram who .write a = none → s.checkDram who .read a = none →
    (s.seams[seamOf a].poisoned).Nodup →
    ∃ t, s.writeBurst who a bs = (none, t) ∧ (t.readBurst who .read a 64).1 = .ok bs ∧
      (∀ x, x < a ∨ a + 64 ≤ x → t.mem.read x = s.mem.read x) ∧ t = { s with mem := t.mem, seams := t.seams }

/- PORST_N, the boot chain and firmware. -/

/-- PORST_N (R560, R561): a fall of 10 µs resets everything but fuses, flash and what the model itself counts, and holds DRAM_EN off where
it was on (R562); a rise samples the straps and begins the load of STAGE1, or with TEST_EN high stays in POWER_ON. That the timebase, the
grade and the count of free values go on is the model's choice (log entries 3 and 29). -/
def Obligations.PorstResetsAndStarts : Prop :=
  (∀ (s : State) (w : Nat), 10000 ≤ w →
    ∃ t, exec (.porstNFall w) s = .next t ∧
      t = { State.reset with pending := s.pending, free := s.free, grade := s.grade, now := s.now, nv := s.nv, groups := t.groups } ∧
      (∀ b : BoughId, t.groups[b] = { enHold := s.groups[b].enable || s.groups[b].enHold, enFell := (t.groups[b]).enFell } ∧
        (t.groups[b]).enFell = (if s.groups[b].enable then s.now else s.groups[b].enFell))) ∧
  (∀ (s : State) (m : Fin 4), s.porstLow = true → s.crown = .powerOn →
    ∃ t, exec (.porstNRise m false) s = .next t ∧ t.porstLow = false ∧ t.testEn = false ∧ t.pcie.strap = m.val ∧
      t.crown = .powerOn ∧ (t.boot.loads[(0 : Fin 8)]).isSome = true ∧ (t.boot.foremen[(0 : Fin 5)]).state = .loading ∧
      t.mem = s.mem ∧ t.sec = s.sec ∧ t.seams = s.seams ∧ t.boughs = s.boughs) ∧
  (∀ (s : State) (m : Fin 4), s.porstLow = true →
    exec (.porstNRise m true) s = .next { s with porstLow := false, testEn := true, pcie := { s.pcie with strap := m.val } })

/-- FOREMAN_IMAGE_LOAD (R453, R454, R456, R460): a load in progress whose slot verifies ends: its image runs, one measurement of it joins
the log, a foreman's type leaves that foreman RUNNING from the slot loaded, and at a crown start the next type's load begins, or after
type 0x07 the wait for the host payload. One whose slot fails gives way to the other slot, once, and measures nothing. Claims, queues and
the journal stay. HOST_PAYLOAD_LOAD (R453 step 6, R455): with every bough READY, a payload of no trial whose slot verifies and whose
segments are in claim 0 ends the wait, its segments locked and its measurement kept. Where the spec leaves a point open the model chooses:
log entry 51. -/
def Obligations.ImagesAndPayloadLoad : Prop :=
  let measured := fun (s t : State) (n : Nat) (slot trial : Bool) =>
    let img := s.nv.slotImage n slot
    ∃ m, t.boot.measures = s.boot.measures ++ [m] ∧ m.digest = sha384 (slice img 0 (parseHeader img).size) ∧ m.trial = trial ∧
      m.slot = slot ∧ m.time = s.now
  (∀ (s : State) (i : ImageSlot) (l : ImageLoad), s.boot.loads[i] = some l → s.verifySlot (i.val + 1) l.slot = 0 →
     ∃ t, exec (.foremanImageLoad i true) s = .next t ∧ (t.boot.loaded[i]) = true ∧ t.boot.loads[i] = none ∧
       measured s t (i.val + 1) l.slot l.trial ∧
       (2 ≤ i.val + 1 → i.val + 1 ≤ 6 → let f := t.boot.foremen[foremanOf (i.val + 1)]
         f.state = .running ∧ f.slot = l.slot ∧ f.trial = l.trial) ∧
       (l.why = .crownStart → i.val + 1 ≤ 6 → (t.boot.loads[(Fin.ofNat 8 (i.val + 1))]).isSome = true) ∧
       (l.why = .crownStart → i.val + 1 = 7 → t.boot.payloadWaits = true) ∧
       t.sec = s.sec ∧ t.hub.jobs = s.hub.jobs ∧ t.hub.queues = s.hub.queues) ∧
  (∀ (s : State) (i : ImageSlot) (l : ImageLoad), s.boot.loads[i] = some l → s.verifySlot (i.val + 1) l.slot ≠ 0 → l.fellBack = false →
     ∃ t, exec (.foremanImageLoad i true) s = .next t ∧
       t.boot = { s.boot with loads := upd s.boot.loads i fun _ => some ⟨!l.slot, false, l.why, true⟩ } ∧
       (l.trial = false → t.nv = s.nv) ∧ t.mem = s.mem ∧ t.sec = s.sec ∧ t.hub = s.hub) ∧
  (∀ s : State, s.boot.payloadWaits = true → s.foremanRuns 0 = true → (∀ b : BoughId, s.boughs[b].state = .ready) →
     (s.nv.entry 8).trial = false → s.verifySlot 8 (s.nv.entry 8).active = 0 →
     (let img := s.nv.slotImage 8 (s.nv.entry 8).active
      ∀ n ∈ sectionSegs (copiedSections img 0), (s.seg n).claim = 0) →
     ∃ t, exec (.hostPayloadLoad true) s = .next t ∧ t.boot.payloadWaits = false ∧
       (let segs := sectionSegs (copiedSections (s.nv.slotImage 8 (s.nv.entry 8).active) 0)
        t.boot.payloadLocks = segs ∧ ∀ n, (t.seg n).locks = (s.seg n).locks + segs.count n) ∧
       (t.boot.loaded[(7 : Fin 8)]) = true ∧ measured s t 8 (s.nv.entry 8).active false ∧ t.boot.foremen = s.boot.foremen ∧
       t.sec.claims = s.sec.claims ∧ t.hub = s.hub ∧ t.nv = s.nv)

/-- FOREMAN_TRAP and FOREMAN_RESTART (R463, R465): a running foreman that traps, fewer than two traps before it within 10 s and the
measurement log not full, is loaded again and alone; the third is fatal and the crown enters HALTED. A write of foreman_restart stops the
named foreman and begins its load. Where the spec leaves a point open the model chooses: log entry 51. -/
def Obligations.ForemanTrapAndRestart : Prop :=
  (∀ (s : State) (f : ForemanId) (cause : Word), s.boot.foremen[f].state = .running →
    (s.boot.foremen[f].traps.filter fun u => (s.now - u).toNat < 10000000000).length < 2 → s.boot.measures.length < 128 →
    ∃ t, exec (.foremanTrap f cause) s = .next t ∧ (t.boot.foremen[f]).state = .loading ∧ (t.boot.loads[firstImage f]).isSome = true ∧
      (∀ g, g ≠ f → t.boot.foremen[g] = s.boot.foremen[g]) ∧
      t.crown = s.crown ∧ t.mem = s.mem ∧ t.sec = s.sec ∧ t.hub = s.hub ∧ t.boughs = s.boughs ∧ t.seams = s.seams) ∧
  (∀ (s : State) (f : ForemanId) (cause : Word), s.boot.foremen[f].state = .running → s.crown ≠ .powerOn →
    2 ≤ (s.boot.foremen[f].traps.filter fun u => (s.now - u).toNat < 10000000000).length →
    ∃ t, exec (.foremanTrap f cause) s = .next t ∧ (t.boot.foremen[f]).state = .fatal ∧ t.crown = .halted ∧ t.mem = s.mem) ∧
  (∀ (s : State) (r : Requester) (v : Word), Safety.Writes s r .foremanRestart 0 0 0 v → v.toNat ≤ 4 → s.confidentialOpen = false →
    s.boot.measures.length < 120 → s.foremanBusy v.toNat = false → s.boot.updState ≠ .busy →
    (∀ f : Fin 5, s.boot.foremen[f].state ≠ .loading) → s.foremanRuns 0 = true →
    ∃ t, exec (.foremanRestart r v) s = .next t ∧ Safety.Counted s t r ∧ (t.boot.foremen[(Fin.ofNat 5 v.toNat)]).state = .loading ∧
      (t.boot.loads[firstImage (Fin.ofNat 5 v.toNat)]).isSome = true ∧ t.mem = s.mem ∧ t.sec = s.sec ∧ t.hub = s.hub ∧
      t.crown = s.crown)

/-- Firmware updates (R461): a start with the image staged in claim 0 locks its segments and reads BUSY; the end of one whose image
verifies, is programmed and verifies again in the slot that is not ACTIVE releases the locks, reads DONE, and leaves TRIAL set and TRIED
clear in the table beside the same ACTIVE; an image that fails to verify, or a flash that fails, releases the locks and reads REFUSED. -/
def Obligations.FirmwareUpdateStartsAndEnds : Prop :=
  let staged := fun (s : State) => s.readMem (.loader 0) (s.regN .fwUpdateAddr) (s.regN .fwUpdateSize)
  let kind := fun (s : State) => s.boot.updType.toNat
  let freed := fun (s t : State) => t.boot.updLocks = [] ∧ ∀ n, (t.seg n).locks = (s.seg n).locks - s.boot.updLocks.count n
  (∀ (s : State) (r : Requester) (v : Word), Safety.Writes s r .fwUpdateStart 0 0 0 v → updateCodes v.toNat s = [] →
    ∃ t, exec (.fwUpdateStart r v) s = .next t ∧ Safety.Counted s t r ∧ t.boot.updState = .busy ∧ t.boot.updType = BitVec.ofNat 8 v.toNat ∧
      t.boot.updLocks = (if s.regN .fwUpdateAddr < 2 ^ 37 then segsOf (s.regN .fwUpdateAddr) (s.regN .fwUpdateSize) else []) ∧
      (∀ n, (t.seg n).locks = (s.seg n).locks + t.boot.updLocks.count n) ∧
      t = { s with ports := t.ports, boot := t.boot, sec := { s.sec with segs := t.sec.segs } }) ∧
  (∀ (s u : State) (img : List Byte), s.boot.updState = .busy → s.foremanRuns 0 = true → 1 ≤ kind s → kind s ≤ 8 → staged s = (.ok img, u) →
    s.regN .fwUpdateSize ≤ slotSize (kind s) → verifyImage s.grade s.nv (kind s) (s.regN .fwUpdateSize) img = 0 →
    (let slot := !(s.nv.entry (kind s)).active
     let nv := (s.nv.flashErase (slotBase (kind s) slot) (roundUp (s.regN .fwUpdateSize) 0x10000)).flashProgram (slotBase (kind s) slot) img
     ({ s with nv := nv }).verifySlot (kind s) slot = 0) →
    ∃ t, exec (.fwUpdateDone true) s = .next t ∧ freed s t ∧ t.boot.updState = .done ∧ t.boot.updCode = 0 ∧
      t.nv.entry (kind s) = { active := (s.nv.entry (kind s)).active, trial := true, tried := false } ∧
      t.nv.flashRead (slotBase (kind s) (!(s.nv.entry (kind s)).active)) img.length = img ∧
      t.sec.claims = s.sec.claims ∧ t.mem = s.mem ∧ t.boot.foremen = s.boot.foremen ∧ t.hub = s.hub) ∧
  (∀ (s u : State) (img : List Byte) (ok : Bool), s.boot.updState = .busy → s.foremanRuns 0 = true → staged s = (.ok img, u) →
    verifyImage s.grade s.nv (kind s) (s.regN .fwUpdateSize) img ≠ 0 →
    ∃ t, exec (.fwUpdateDone ok) s = .next t ∧ freed s t ∧ t.boot.updState = .refused ∧ t.nv = s.nv ∧ t.mem = s.mem ∧
      t.sec.claims = s.sec.claims ∧ t.boot.foremen = s.boot.foremen ∧ t.hub = s.hub) ∧
  (∀ (s : State), s.boot.updState = .busy → s.foremanRuns 0 = true →
    ∃ t, exec (.fwUpdateDone false) s = .next t ∧ freed s t ∧ t.boot.updState = .refused ∧ t.mem = s.mem ∧
      t.sec.claims = s.sec.claims ∧ t.boot.foremen = s.boot.foremen ∧ t.hub = s.hub)

/-- Trials (R449, R450, R459): confirming an open trial makes the trial slot ACTIVE with TRIAL and TRIED clear, stops its timer, raises
the type's counter to the image's security version where that is higher, and revokes the keys it names; with no trial open the counter of
the ACTIVE slot's image rises so and the table stays. The timer's end leaves ACTIVE and clears TRIAL and TRIED, and the trial image keeps
running. -/
def Obligations.TrialsAreConfirmedOrExpire : Prop :=
  let header := fun (s : State) (v : Nat) (slot : Bool) => parseHeader (s.nv.flashRead (slotBase v slot) 64)
  let raised := fun (s t : State) (v n : Nat) =>
    t.nv.secCounter = upd s.nv.secCounter (Fin.ofNat 8 (v - 1)) fun c => max c n
  (∀ (s : State) (r : Requester) (v : Word), Safety.Writes s r .firmwareConfirm 0 0 0 v → 1 ≤ v.toNat → v.toNat ≤ 8 →
    s.foremanRuns 0 = true → (s.nv.entry v.toNat).trial = true → (s.nv.entry v.toNat).tried = true →
    (s.boot.trialEnds[(Fin.ofNat 8 (v.toNat - 1))]).isSome = true →
    ∃ t, exec (.firmwareConfirm r v) s = .next t ∧ Safety.Counted s t r ∧
      t.nv.entry v.toNat = { active := !(s.nv.entry v.toNat).active, trial := false, tried := false } ∧
      t.boot.trialEnds = upd s.boot.trialEnds (Fin.ofNat 8 (v.toNat - 1)) (fun _ => none) ∧
      (let h := header s v.toNat (!(s.nv.entry v.toNat).active)
       raised s t v.toNat h.secVersion ∧
       ∀ k, k < 16 → t.nv.revoked.getLsbD k = (s.nv.revoked.getLsbD k || h.revoke.testBit k)) ∧
      t.boot.loads = s.boot.loads ∧ t.mem = s.mem ∧ t.sec = s.sec ∧ t.hub = s.hub) ∧
  (∀ (s : State) (r : Requester) (v : Word), Safety.Writes s r .firmwareConfirm 0 0 0 v → 1 ≤ v.toNat → v.toNat ≤ 8 →
    s.foremanRuns 0 = true → (s.nv.entry v.toNat).trial = false →
    (header s v.toNat (s.nv.entry v.toNat).active).magic = 0x4D495454 →
    ∃ t, exec (.firmwareConfirm r v) s = .next t ∧ Safety.Counted s t r ∧
      raised s t v.toNat (header s v.toNat (s.nv.entry v.toNat).active).secVersion ∧ t.nv.flash = s.nv.flash ∧
      t.nv.revoked = s.nv.revoked ∧ t.boot = s.boot ∧ t.mem = s.mem ∧ t.sec = s.sec ∧ t.hub = s.hub) ∧
  (∀ (s : State) (i : ImageSlot) (d : BitVec 64), s.boot.trialEnds[i] = some d → d.toNat ≤ s.now.toNat →
    ∃ t, exec (.trialExpiry i) s = .next t ∧
      t.nv.entry (i.val + 1) = { active := (s.nv.entry (i.val + 1)).active, trial := false, tried := false } ∧
      t.boot = { s.boot with trialEnds := upd s.boot.trialEnds i fun _ => none } ∧
      t.now = s.now ∧ t.mem = s.mem ∧ t.sec = s.sec ∧ t.hub = s.hub)

/-- host_l2_lock and the flash summary (R454, R472): a host core's write of 0 lets the HOST_L2 sections be written; a record that waits is
copied and leaves the wait; an erase leaves both halves reading erased. -/
def Obligations.L2UnlockAndFlashSummary : Prop :=
  (∀ s : State, Safety.Writes s .host .hostL2Lock 0 0 0 0 →
    ∃ t, exec (.hostL2Unlock .host 0) s = .next t ∧ Safety.Counted s t .host ∧ t.boot = { s.boot with l2Locks := [], l2Lock := false } ∧
      t = { s with ports := t.ports, boot := t.boot }) ∧
  (∀ (s : State) (r : LogRec) (rest : List LogRec), s.log.toFlash = r :: rest → s.foremanRuns 0 = true → s.nv.flashNext < 4096 →
    ∃ t, exec .flashLogCopy s = .next t ∧ t.log = { s.log with toFlash := rest } ∧
      t.nv.flashRead (0x20000 + s.nv.flashNext * 32) 32 = r.bytes ∧ t.nv.flashNext = (s.nv.flashNext + 1) % 4096 ∧
      (∀ a, a < 0x20000 ∨ 0x40000 ≤ a → t.nv.flashByte a = s.nv.flashByte a) ∧ t = { s with log := t.log, nv := t.nv }) ∧
  (∀ (s : State) (r : Requester), Safety.Writes s r .flashLogErase 0 0 0 1 → s.foremanRuns 0 = true →
    ∃ t, exec (.flashLogErase r 1) s = .next t ∧ Safety.Counted s t r ∧ t.nv.flashNext = 0 ∧
      (∀ a, t.nv.flashByte a = if 0x20000 ≤ a ∧ a < 0x40000 then 0xFF else s.nv.flashByte a) ∧ t = { s with ports := t.ports, nv := t.nv })

/-- The recovery loader (R467, R468): a packet in order with a good CRC is answered with its command + 0x80, its SEQ and a status, which
the loader keeps for a repeat; HELLO names what caused RECOVERY; BEGIN erases the slot it names; DATA at the bytes received so far
programs them; FINISH reads the slot back, answers what verifying it gives, and where it verifies makes it ACTIVE with no trial; REBOOT
starts the crown again where every type has a verifying slot and is refused where one has none; a gap in a packet leaves nothing behind.
-/
def Obligations.RecoveryLoaderAnswers : Prop :=
  (∀ (s : State) (p : RecoveryPacket), s.crown = .recovery → packetCrcOk p 0x01 = true → p.payload = [] →
    (∀ q f, s.boot.recovery.last = some (q, f) → q ≠ p.seq) →
    ∃ t, exec (.recoveryHello p) s = .next t ∧ t = { s with boot := t.boot } ∧
      t.boot.recovery.response = recoveryFrame 0x81 p.seq (0 :: s.boot.recovery.causeType :: s.boot.recovery.causeCode ::
        (orderCode s.grade ++ leBytes 8 Config.serialNumber.toNat)) ∧
      t.boot.recovery.last = some (p.seq, t.boot.recovery.response)) ∧
  (∀ (s : State) (p : RecoveryPacket) (q : Byte) (f : List Byte), s.crown = .recovery → packetCrcOk p 0x02 = true →
    s.boot.recovery.last = some (q, f) → p.seq = q + 1 → p.payload.length = 6 → 1 ≤ leAt p.payload 0 1 → leAt p.payload 0 1 ≤ 8 →
    leAt p.payload 1 1 ≤ 1 → leAt p.payload 2 4 ≤ slotSize (leAt p.payload 0 1) →
    ∃ t, exec (.recoveryBegin p) s = .next t ∧ t = { s with boot := t.boot, nv := t.nv } ∧
      t.boot.recovery.response = recoveryFrame 0x82 p.seq [0] ∧
      t.boot.recovery.begun = some (leAt p.payload 0 1, decide (leAt p.payload 1 1 = 1), leAt p.payload 2 4, 0) ∧
      (∀ a, t.nv.flashByte a = (let b := slotBase (leAt p.payload 0 1) (decide (leAt p.payload 1 1 = 1))
        if b ≤ a ∧ a < b + slotSize (leAt p.payload 0 1) then 0xFF else s.nv.flashByte a))) ∧
  (∀ (s : State) (p : RecoveryPacket) (q : Byte) (f : List Byte) (ty n got : Nat) (sl : Bool) (bs : List Byte),
    s.crown = .recovery → packetCrcOk p 0x03 = true → s.boot.recovery.last = some (q, f) → p.seq = q + 1 →
    s.boot.recovery.begun = some (ty, sl, n, got) → p.payload = leBytes 4 got ++ bs → got < 2 ^ 32 → got + bs.length ≤ n →
    ∃ t, exec (.recoveryData p) s = .next t ∧ t = { s with boot := t.boot, nv := t.nv } ∧
      t.boot.recovery.response = recoveryFrame 0x83 p.seq [0] ∧ t.boot.recovery.begun = some (ty, sl, n, got + bs.length) ∧
      t.nv.flashRead (slotBase ty sl + got) bs.length = bs ∧
      (∀ a, a < slotBase ty sl + got ∨ slotBase ty sl + got + bs.length ≤ a → t.nv.flashByte a = s.nv.flashByte a)) ∧
  (∀ (s : State) (p : RecoveryPacket) (q : Byte) (f : List Byte) (ty n got : Nat) (sl : Bool),
    s.crown = .recovery → packetCrcOk p 0x04 = true → s.boot.recovery.last = some (q, f) → p.seq = q + 1 →
    s.boot.recovery.begun = some (ty, sl, n, got) →
    ∃ t, exec (.recoveryFinish p) s = .next t ∧ t.boot.recovery.begun = none ∧
      t.boot.recovery.response = recoveryFrame 0x84 p.seq [BitVec.ofNat 8 (s.verifySlot ty sl)] ∧
      t.crown = .recovery ∧ t.mem = s.mem ∧ (s.verifySlot ty sl ≠ 0 → t.nv = s.nv) ∧
      (s.verifySlot ty sl = 0 → 1 ≤ ty → ty ≤ 8 → t.nv.entry ty = { active := sl, trial := false, tried := false })) ∧
  (∀ (s : State) (p : RecoveryPacket) (q : Byte) (f : List Byte), s.crown = .recovery → packetCrcOk p 0x05 = true →
    s.boot.recovery.last = some (q, f) → p.seq = q + 1 → p.payload = [] →
    ∃ t, exec (.recoveryReboot p) s = .next t ∧ t.grade = s.grade ∧
      (s.allVerify = true → t.crown = .powerOn ∧ t.mem = [] ∧ t.readiness = 0 ∧ (t.boot.loads[(0 : Fin 8)]).isSome = true) ∧
      (s.allVerify = false → t.crown = .recovery ∧ t.boot.recovery.response = recoveryFrame 0x85 p.seq [0x12] ∧ t = { s with boot := t.boot })) ∧
  (∀ s : State, s.crown = .recovery → exec .recoveryPacketGap s = .next s)

/- The ports of the dictionary. -/

/-- READ and WRITE at the Burlyn port (R415, R417): a READ of a short object that nothing refuses drives its value, the code 0 and the CRC
over the address and what follows, and changes nothing else; the oldest posted frame is applied as a write of the Burlyn requester. -/
def Obligations.BurlynReadsAndPostedWrites : Prop :=
  (∀ (s : State) (idx : BitVec 16) (sub : BitVec 8) (g : Target), s.serves .burlyn = true →
    s.target (reqNum .burlyn) idx.toNat sub.toNat = some g → s.gateCodes .burlyn idx.toNat g = [] → g.ty.short = true →
    let addr := [sub] ++ leBytes 2 idx.toNat ++ [(0 : Byte)]
    ∃ t, exec (.read ([0x0B, 0xF4] ++ addr)) s = .next t ∧ t = { s with ports := t.ports } ∧
      (t.port .burlyn).out = readAnswer addr (s.targetValue g % 2 ^ (8 * g.ty.size)) 0 ∧
      t.port .burlyn = { s.port .burlyn with out := (t.port .burlyn).out }) ∧
  (∀ (s : State) (idx : BitVec 16) (sub sel : BitVec 8) (v : Word) (rest : List Posted),
    (s.port .burlyn).posted = .write idx sub sel v :: rest →
    ∃ t, exec .postedWriteApply s = .next t ∧ (t.port .burlyn).posted = rest ∧
      t = ((s.updPort .burlyn fun p => { p with posted := rest }).writeObj .burlyn idx.toNat sub.toNat sel.toNat v []).2) ∧
  (∀ (s : State) (a : BlockArgs) (commit : Bool) (rest : List Posted), (s.port .burlyn).posted = .block commit a :: rest →
    ∃ t, exec .postedWriteApply s = .next t ∧ (t.port .burlyn).posted = rest ∧
      t = ((s.updPort .burlyn fun p => { p with posted := rest }).blockStart .burlyn commit a).2)

/-- PORT_RESET (R420) ends the requester's block operation: block_status reads IDLE, the buffer's contents and the posted frames stay, and
nothing beyond the port changes. -/
def Obligations.PortResetEndsTheBlockOperation : Prop :=
  ∀ s : State, s.serves .burlyn = true →
    ∃ t, exec (.portReset [0x99, 0x66, 0, 0, 0, 0]) s = .next t ∧ t = { s with ports := t.ports } ∧
      (t.port .burlyn).blk.state = .idle ∧ (t.port .burlyn).blk.op = none ∧
      (t.port .burlyn).blk.buffer = (s.port .burlyn).blk.buffer ∧ (t.port .burlyn).posted = (s.port .burlyn).posted ∧
      (∀ r, r ≠ .burlyn → t.port r = s.port r) ∧
      (t.port .burlyn).done = (s.port .burlyn).done ∧ (t.port .burlyn).refused = (s.port .burlyn).refused ∧
      (t.port .burlyn).accepted = (s.port .burlyn).accepted ∧
      (∀ f rest, (s.port .burlyn).posted = f :: rest → ∃ u, exec .postedWriteApply t = .next u ∧ (u.port .burlyn).posted = rest)

/-- Block access (R419, R421): an open or a commit that nothing refuses reads BUSY and is counted, posted first where it comes by the
Burlyn port; its end reads READY with the CRC of the range, and after an open the buffer holds the object's bytes. Data writes land in the
requester's buffer alone, and data reads return it. Where the spec leaves a point open the model chooses: log entry 15. -/
def Obligations.BlockAccessOpensCommitsAndMovesData : Prop :=
  (∀ (s : State) (r : Requester) (a : BlockArgs) (g : Target), r ≠ .burlyn → Safety.Commits s r a g false →
    ∃ t, exec (.blockOpen r a) s = .next t ∧ t = { s with ports := t.ports } ∧ (t.port r).blk.state = .busy ∧
      (t.port r).blk.op = some (false, a) ∧ (t.port r).done = (s.port r).done + 1 ∧ (t.port r).blk.buffer = (s.port r).blk.buffer) ∧
  (∀ (s : State) (r : Requester) (a : BlockArgs) (g : Target), r ≠ .burlyn → Safety.Commits s r a g true →
    ∃ t, exec (.blockCommit r a) s = .next t ∧ t = { s with ports := t.ports } ∧ (t.port r).blk.state = .busy ∧
      (t.port r).blk.op = some (true, a) ∧ (t.port r).done = (s.port r).done + 1 ∧ (t.port r).blk.buffer = (s.port r).blk.buffer) ∧
  (∀ (s : State) (a : BlockArgs), s.serves .burlyn = true → a.crc = none → (s.port .burlyn).posted.length < 16 →
    (∃ t, exec (.blockOpen .burlyn a) s = .next t ∧ t = { s with ports := t.ports } ∧
      (t.port .burlyn).posted = (s.port .burlyn).posted ++ [.block false a]) ∧
    (∃ t, exec (.blockCommit .burlyn a) s = .next t ∧ t = { s with ports := t.ports } ∧
      (t.port .burlyn).posted = (s.port .burlyn).posted ++ [.block true a])) ∧
  (∀ (s : State) (r : Requester) (a : BlockArgs) (g : Target), (s.port r).blk.op = some (false, a) →
    s.target (reqNum r) a.idx.toNat a.sub.toNat = some g → s.blockCodes r false a g = [] →
    ∃ t, exec (.blockTransferDone r) s = .next t ∧ t = { s with ports := t.ports } ∧ (t.port r).blk.state = .ready ∧
      (t.port r).blk.op = none ∧ (t.port r).blk.crc = crc32c ((t.port r).blk.bytes 0 a.length.toNat) ∧
      (∀ i, i < a.length.toNat → SMap.get 0 (t.port r).blk.buffer i = s.blockByte g.hit (a.offset.toNat + i)) ∧
      (∀ i, a.length.toNat ≤ i → SMap.get 0 (t.port r).blk.buffer i = SMap.get 0 (s.port r).blk.buffer i)) ∧
  (∀ (s : State) (r : Requester) (addr : BitVec 32) (data : List Byte), s.serves r = true → addr.toNat < 2 ^ 16 → data.length ≤ 4096 →
    ∃ t, exec (.blockDataWrite r addr data) s = .next t ∧ t = { s with ports := t.ports } ∧
      (t.port r).blk.bytes addr.toNat data.length = data ∧ (t.port r).blk.state = (s.port r).blk.state ∧
      (∀ q, reqNum q ≠ reqNum r → t.port q = s.port q)) ∧
  (∀ (s : State) (r : Requester) (addr : BitVec 32) (n : Nat), s.serves r = true → addr.toNat < 2 ^ 16 → (s.port r).blk.state = .ready →
    (s.port r).blk.op = none →
    ∃ t, exec (.blockDataRead r addr n) s = .next t ∧ t = { s with ports := t.ports } ∧
      (t.port r).out = (s.port r).blk.bytes addr.toNat n ∧ (t.port r).blk = (s.port r).blk)

/-- CAN FD (R424 to R426, R428): a READ request of a serving controller is answered with its own first bytes, the operation + 0x80, code 0
and the value; the same request again receives the stored response and nothing more. A controller that goes bus-off is counted and takes
CAN_READY away (R36), so that neither serves; when it has recovered, with the other on its bus too, CAN_READY that was so lost returns.
Where the spec leaves a point open the model chooses: log entries 12 and 27. -/
def Obligations.CanRequestsAreAnswered : Prop :=
  let others := fun (s t : State) =>
    (∀ i, i ≠ rCan → i < 64 → (presentReady s.grade).getLsbD i = true → t.ready i = s.ready i) ∧
    t = { s with can := t.can, objs := t.objs, readiness := t.readiness, readyFailed := t.readyFailed, crown := t.crown,
                 crownTime := t.crownTime, alertCause := t.alertCause, pcie := t.pcie }
  (∀ (s : State) (k : Fin 2) (f : CanFrame) (idx : BitVec 16) (sub : BitVec 8) (pad : List Byte) (g : Target),
    s.serves (canRequester k) = true → f.extended = true → f.fd = true → f.dlc = 15 → f.ident.toNat = s.regN .canBaseId k.val →
    pad.length = 56 → f.data = [0x0B, 0, sub] ++ leBytes 2 idx.toNat ++ [0, 0, 0] ++ pad →
    s.target (reqNum (canRequester k)) idx.toNat sub.toNat = some g → s.gateCodes (canRequester k) idx.toNat g = [] → g.ty.short = true →
    (∀ q resp, (s.port (canRequester k)).prev = some (q, resp) → q ≠ f.data) →
    ∃ t, exec (.canRequest k f) s = .next t ∧ t = { s with ports := t.ports } ∧
      (t.port (canRequester k)).out = [0x8B, 0, sub] ++ leBytes 2 idx.toNat ++ [0, 0, 0] ++
        leBytes 8 (s.targetValue g % 2 ^ (8 * g.ty.size)) ++ List.replicate 48 0 ∧
      (t.port (canRequester k)).prev = some (f.data, (t.port (canRequester k)).out)) ∧
  (∀ (s : State) (k : Fin 2) (f : CanFrame) (resp : List Byte), s.serves (canRequester k) = true → f.extended = true → f.fd = true →
    f.dlc = 15 → f.data.length = 64 → f.ident.toNat = s.regN .canBaseId k.val → (s.port (canRequester k)).prev = some (f.data, resp) →
    exec (.canRequest k f) s = .next (s.updPort (canRequester k) fun p => { p with out := resp })) ∧
  (∀ (s : State) (k : Fin 2), s.porstLow = false → s.crown ≠ .powerOn → s.can[k].busOff = false →
    ∃ t, exec (.canBusOff k false) s = .next t ∧ t.can[k].busOff = true ∧ t.ready rCan = false ∧
      (∀ j : Fin 2, t.serves (canRequester j) = false) ∧ t.reg .canBusOffEvents k.val = s.reg .canBusOffEvents k.val + 1 ∧
      Safety.KeepsRegs s t [Ob.key .canBusOffEvents k.val 0 0] ∧ others s t) ∧
  (∀ (s : State) (k : Fin 2), s.porstLow = false → s.crown ≠ .powerOn → s.can[k].busOff = true →
    (∀ j : Fin 2, j ≠ k → s.can[j].busOff = false) → (∃ j : Fin 2, s.can[j].tookReady = true) →
    ∃ t, exec (.canBusOff k true) s = .next t ∧ (∀ j : Fin 2, t.can[j].busOff = false ∧ t.can[j].tookReady = false) ∧ t.ready rCan = true ∧
      (∀ j : Fin 2, t.serves (canRequester j) = true) ∧ t.objs = s.objs ∧ others s t) ∧
  (∀ (s : State) (k : Fin 2), s.porstLow = false → s.crown ≠ .powerOn → s.can[k].busOff = true →
    ((∃ j : Fin 2, j ≠ k ∧ s.can[j].busOff = true) ∨ ∀ j : Fin 2, s.can[j].tookReady = false) →
    exec (.canBusOff k true) s = .next { s with can := upd s.can k fun c => { c with busOff := false } })

/-- On each assertion of ALERT_N, each serving controller sends one alert frame of the form R427 gives. -/
def Obligations.AlertAssertionSendsTheAlertFrame : Prop :=
  ∀ (s : State) (i : Nat), i < 64 → s.crown ≠ .powerOn → s.alertAsserted = false → (s.alertEnable).getLsbD i = true → s.ready rCan = true →
    let t := s.alert i
    t.alertAsserted = true ∧
    (∀ k : Fin 2, s.can[k].busOff = false →
      t.can[k].alertFrame.length = 64 ∧ slice t.can[k].alertFrame 0 8 = [0xA0, 0, 0, 0, 0, 0, 0, 0] ∧
      leAt t.can[k].alertFrame 8 8 = t.alertCause.toNat ∧ leAt t.can[k].alertFrame 16 8 = s.now.toNat ∧
      slice t.can[k].alertFrame 24 40 = List.replicate 40 0) ∧
    (∀ k : Fin 2, s.can[k].busOff = true → t.can[k].alertFrame = s.can[k].alertFrame)

/-- A write of an object with no behaviour of its own (R410) keeps the value and changes no other object: shown for capSustained through
the dictionary, by an access by index and by an aligned 8-byte store of the host window (R422); a load of the window returns the object's
value, shown for crown_state. Where the spec leaves a point open the model chooses: log entry 32. -/
def Obligations.DictionaryWritesAndHostWindow : Prop :=
  (∀ (s : State) (r : Requester) (v : Word), Safety.Writes s r .capSustained 0 0 0 v → s.onT5 (reqNum r) = false →
    s.powerBad .capSustained v.toNat = false → s.foremanRuns 2 = true →
    ∃ t, exec (.dictionaryWrite r (.write 0x5010 1 v)) s = .next t ∧ Safety.Counted s t r ∧ t.reg .capSustained = v ∧
      (∀ n, n ≠ Ob.key .capSustained 0 0 0 → ∀ d : BitVec 64, SMap.get d t.objs n = SMap.get d s.objs n) ∧
      t = { s with ports := t.ports, objs := t.objs }) ∧
  (∀ (s : State) (v : Word), Safety.Writes s .host .capSustained 0 0 0 v → s.onT5 (reqNum .host) = false →
    s.powerBad .capSustained v.toNat = false → s.foremanRuns 2 = true →
    exec (.dictionaryWrite .host (.store (0x5010 * 0x800 + 8) 8 v)) s = exec (.dictionaryWrite .host (.write 0x5010 1 v)) s) ∧
  (∀ s : State, s.serves .host = true → s.onT5 (reqNum .host) = false → s.gateCodes .host 0x1200 ⟨⟨.crownState, 0, 0, 0⟩, none⟩ = [] →
    ∃ t, exec (.dictionaryWrite .host (.load (0x1200 * 0x800 + 8) 1)) s = .next t ∧ (t.port .host).out = [BitVec.ofNat 8 s.crown.code] ∧
      t = { s with ports := t.ports })

/-- Versions (R437, R438): a requester's native declaration is accepted and ends its T5 path; a T5 declaration is accepted and keeps what
it has accepted of the T5 layout; t5_accept keeps the written value ANDed with t5_offer. Where the spec leaves a point open the model
chooses: log entry 19. -/
def Obligations.DeclarationsAndT5Accept : Prop :=
  (∀ (s : State) (r : Requester) (v : Word), Safety.Writes s r .ifDeclare (reqNum r).val 0 0 v →
    (declNative (reqNum r) v.toNat = true ∨ declT5 (reqNum r) v.toNat = true) →
    (onHost (reqNum r) = true → v.toNat = (s.port r).accepted.toNat ∨ ∀ q : QueueId, (s.wq q).enabled = false) →
    ∃ t, exec (.ifDeclare r (reqNum r) v) s = .next t ∧ t = { s with ports := t.ports } ∧
      (t.port r).accepted = BitVec.ofNat 32 v.toNat ∧ (t.port r).declared = BitVec.ofNat 32 v.toNat ∧
      ((t.port r).t5 = if declT5 (reqNum r) v.toNat then (s.port r).t5 else 0) ∧ (t.port r).done = (s.port r).done + 1 ∧
      (∀ q, reqNum q ≠ reqNum r → t.port q = s.port q)) ∧
  (∀ (s : State) (r : Requester) (v : Word), Safety.Writes s r .t5Accept (reqNum r).val 0 0 v →
    ∃ t, exec (.t5Accept r (reqNum r) v) s = .next t ∧ t = { s with ports := t.ports } ∧
      (t.port r).t5 = BitVec.ofNat 16 v.toNat &&& 0x7F ∧ (t.port r).accepted = (s.port r).accepted ∧
      (t.port r).done = (s.port r).done + 1 ∧ (∀ q, reqNum q ≠ reqNum r → t.port q = s.port q))

/-- Alerts and readiness (R36, R37, R429, R432): writing 1s to alert_cause clears those causes and no other; a write of readiness_expected
keeps the functions it names; a function that is present and powered reports ready, and its failed bit clears. Where the spec leaves a
point open the model chooses: log entry 31. -/
def Obligations.AlertCausesAndReadiness : Prop :=
  (∀ (s : State) (r : Requester) (v : Word), Safety.Writes s r .alertCause 0 0 0 v → v.toNat < 2 ^ 9 →
    ∃ t, exec (.alertCauseClear r v) s = .next t ∧ Safety.Counted s t r ∧ t.alertCause = s.alertCause &&& ~~~v ∧
      t = { s with ports := t.ports, alertCause := t.alertCause }) ∧
  (∀ (s : State) (r : Requester) (v : Word), Safety.Writes s r .readinessExpected 0 0 0 v → v &&& ~~~(presentReady s.grade) = 0 →
    ∃ t, exec (.readinessExpectedWrite r v) s = .next t ∧ Safety.Counted s t r ∧ t.expected = v ∧ t.readiness = s.readiness ∧
      t.readyFailed = s.readyFailed ∧ t.mem = s.mem ∧ t.objs = s.objs ∧ t.hub = s.hub ∧ t.boughs = s.boughs ∧
      (s.crown = .bringup → v &&& ~~~(s.readiness ||| s.readyFailed) = 0 →
        t.crown = if s.readyFailed = 0 then .operational else .degraded)) ∧
  (∀ (s : State) (f : ReadyFunction), s.porstLow = false → s.crown ≠ .powerOn → s.crown ≠ .recovery →
    (∀ d, functionDomain f = some d → s.domainOn.testBit d = true) →
    s.functionCanReport f = true → (f = .sysCache → ∃ k, k < 8 ∧ s.power.domainOff.getLsbD (48 + k) = false) → (presentReady s.grade).getLsbD (functionBit f) = true →
    ∃ t, exec (.functionReportsReady f) s = .next t ∧ t.ready (functionBit f) = true ∧ t.readyFailed.getLsbD (functionBit f) = false ∧
      (∀ i, i ≠ functionBit f → i < 64 → (presentReady s.grade).getLsbD i = true → t.ready i = s.ready i) ∧
      t.mem = s.mem ∧ t.objs = s.objs ∧ t.hub = s.hub ∧ t.boughs = s.boughs ∧ t.sec = s.sec ∧ t.ports = s.ports)

/-- crown_command, QUIESCE to WAKE and HALT (R433): from the states that the table names and for the ports it admits, each enters its
state. SLEEP takes every bough DOWN, WAKE brings up those whose group is ON, and HALT is applied whatever the hub foreman does (R464).
Where the spec leaves a point open the model chooses: log entries 14 and 31. -/
def Obligations.CrownCommandsChangeTheCrownState : Prop :=
  (∀ (s : State) (r : Requester), Safety.Writes s r .crownCommand 0 0 0 1 → s.crown = .operational ∨ s.crown = .degraded →
    s.foremanRuns 4 = true →
    ∃ t, exec (.quiesce r) s = .next t ∧ Safety.Counted s t r ∧ t.crown = .quiescing ∧ t.crownTime = s.now ∧
      t.alertCause.getLsbD aState = true ∧
      t = { s with ports := t.ports, crown := t.crown, crownTime := t.crownTime, alertCause := t.alertCause, can := t.can, pcie := t.pcie }) ∧
  (∀ (s : State) (r : Requester), Safety.Writes s r .crownCommand 0 0 0 2 → s.crown = .quiescing → reqPort r ≠ 1 → s.foremanRuns 4 = true →
    ∃ t, exec (.resume r) s = .next t ∧ Safety.Counted s t r ∧ (t.crown = if s.readyFailed = 0 then .operational else .degraded) ∧
      t = { s with ports := t.ports, crown := t.crown, crownTime := t.crownTime, alertCause := t.alertCause, can := t.can, pcie := t.pcie }) ∧
  (∀ (s : State) (r : Requester), Safety.Writes s r .crownCommand 0 0 0 3 → s.crown = .quiescing → reqPort r ≠ 1 → s.canSleep = true →
    s.foremanRuns 4 = true →
    ∃ t, exec (.sleep r) s = .next t ∧ Safety.Counted s t r ∧ t.crown = .sleep ∧ (∀ b : BoughId, t.boughs[b].state = .down) ∧
      (∀ u ∈ sleepUnits, t.ready u = false) ∧ t.mem = s.mem ∧ t.objs = s.objs ∧ t.sec = s.sec ∧ t.hub = s.hub ∧ t.seams = s.seams) ∧
  (∀ (s : State) (r : Requester), Safety.Writes s r .crownCommand 0 0 0 4 → s.crown = .sleep → reqPort r ≠ 1 → s.foremanRuns 4 = true →
    ∃ t, exec (.wake r) s = .next t ∧ Safety.Counted s t r ∧ (t.crown = .bringup ∨ t.crown = .operational ∨ t.crown = .degraded) ∧
      (∀ b : BoughId, s.boughs[b].state = .down → s.groups[b].mode = .on → t.boughs[b].state = .training) ∧
      (∀ b : BoughId, s.boughs[b].state ≠ .down → t.boughs[b] = s.boughs[b]) ∧ t.mem = s.mem ∧ t.objs = s.objs ∧ t.sec = s.sec ∧
      t.hub = s.hub) ∧
  (∀ (s : State) (r : Requester), Safety.Writes s r .crownCommand 0 0 0 7 → s.crown ≠ .halted →
    ∃ t, exec (.halt r) s = .next t ∧ Safety.Counted s t r ∧ t.crown = .halted ∧
      t = { s with ports := t.ports, crown := t.crown, crownTime := t.crownTime, alertCause := t.alertCause, can := t.can, pcie := t.pcie })

/-- crown_command, BOUGH_DOWN and BOUGH_UP (R433): every bough of the mask goes down, or comes up and trains; the other boughs, memory and
claims stay. Where the spec leaves a point open the model chooses: log entry 31. -/
def Obligations.CrownCommandsTakeBoughsDownAndUp : Prop :=
  (∀ (s : State) (r : Requester) (m : BitVec 4), Safety.Writes s r .crownCommand 0 0 0 (BitVec.ofNat 64 (5 + m.toNat * 256)) → m ≠ 0 →
    (commandStates 5).testBit s.crown.code = true → s.foremanRuns 4 = true →
    (∀ b : BoughId, m.getLsbD b.val = true → s.canGoDown b = true) →
    ∃ t, exec (.boughDown r m) s = .next t ∧ Safety.Counted s t r ∧
      (∀ b : BoughId, t.boughs[b] = if m.getLsbD b.val then { s.boughs[b] with state := .down } else s.boughs[b]) ∧
      (∀ b : BoughId, m.getLsbD b.val = true → t.ready (rBough b.val) = false) ∧
      t.mem = s.mem ∧ t.objs = s.objs ∧ t.sec = s.sec ∧ t.hub = s.hub ∧ t.seams = s.seams) ∧
  (∀ (s : State) (r : Requester) (m : BitVec 4), Safety.Writes s r .crownCommand 0 0 0 (BitVec.ofNat 64 (6 + m.toNat * 256)) → m ≠ 0 →
    reqPort r ≠ 1 → (commandStates 6).testBit s.crown.code = true → s.foremanRuns 4 = true → s.foremanRuns 1 = true →
    (∀ b : BoughId, m.getLsbD b.val = true → s.canComeUp b = true) →
    ∃ t, exec (.boughUp r m) s = .next t ∧ Safety.Counted s t r ∧
      (∀ b : BoughId, t.boughs[b] = if m.getLsbD b.val then { s.boughs[b] with state := .training, zeroed := false } else s.boughs[b]) ∧
      t.mem = s.mem ∧ t.objs = s.objs ∧ t.sec = s.sec ∧ t.hub = s.hub)

/- Bough resets. -/

/-- BOUGH_RESET (R395, R398 step 1): from READY, the bough is fenced and leaves service, the reset is counted, BOUGH_RESET is alerted, and
every undecided job it touches waits for the reset; by a write, or by the hub foreman where a seam it took out of service waits. Memory,
claims and the segment table stay. Where the spec leaves a point open the model chooses: log entry 33. -/
def Obligations.BoughResetFencesTheBough : Prop :=
  let fenced := fun (s t : State) (b : BoughId) =>
    t.boughs[b].state = .fencing ∧ (∀ c : BoughId, c ≠ b → t.boughs[c].state = s.boughs[c].state) ∧ t.ready (rBough b.val) = false ∧
    t.reg .boughResets b.val = s.reg .boughResets b.val + 1 ∧ t.alertCause.getLsbD aBoughReset = true ∧
    (∀ j ∈ t.hub.jobs, j.decision.isNone = true → j.touched.getLsbD b.val = true → j.pendingReset.getLsbD b.val = true) ∧
    t.mem = s.mem ∧ t.sec.claims = s.sec.claims ∧ t.sec.segs = s.sec.segs ∧ t.hub.queues = s.hub.queues ∧ t.seams = s.seams
  (∀ (s : State) (b : BoughId) (r : Requester), Safety.Writes s r .boughReset b.val 0 0 1 → s.boughs[b].state = .ready →
    s.foremanRuns 4 = true → ∃ t, exec (.boughReset b (.write r 1)) s = .next t ∧ fenced s t b ∧ Safety.Counted s t r) ∧
  (∀ (s : State) (b : BoughId), s.boughs[b].state = .ready → s.foremanRuns 4 = true → s.seamWaits b = true →
    ∃ t, exec (.boughReset b .hubForeman) s = .next t ∧ fenced s t b ∧ t.ports = s.ports ∧ t.boughs[b].fullTrain = true)

/-- The drain (R398 steps 2 to 4, R109, R269, R346): at the drain limit what is outstanding to the bough is answered FENCED; the drain's
end zeroes its local memory, marks its segments lost, empties its handle queues and starts its seams' training. Memory outside the bough's
local memory and outside the lines its slices drop dirty is as it was. Where the spec leaves a point open the model chooses: log entries
2, 33 and 50. -/
def Obligations.BoughDrainResetsTheBough : Prop :=
  (∀ (s : State) (b : BoughId), s.boughs[b].state = .fencing → s.boughs[b].drainAt.toNat ≤ s.now.toNat →
    ∃ t, exec (.boughDrainLimit b) s = .next t ∧ t.boughs[b] = { s.boughs[b] with limitPassed := true } ∧
      (∀ c : BoughId, c ≠ b → t.boughs[c] = s.boughs[c]) ∧ t.hub.xfers.length = s.hub.xfers.length ∧
      (∀ x ∈ t.hub.xfers, x.touches s b = true → x.fail = some stFenced) ∧
      t = { s with boughs := t.boughs, hub := { s.hub with xfers := t.hub.xfers } }) ∧
  (∀ (s : State) (b : BoughId), s.boughs[b].state = .fencing → s.boughs[b].limitPassed = true →
    ∃ t, exec (.boughDrainEnd b) s = .next t ∧ t.boughs[b].state = .resetting ∧
      (∀ q : HqPos, (t.hq b q).queued = [] ∧ (t.hq b q).bound = (s.hq b q).bound) ∧
      (∀ n, n / 16384 = b.val → (t.seg n).lost = true) ∧ (∀ n, n / 16384 ≠ b.val → t.seg n = s.seg n) ∧
      (∀ q ∈ seamsOf b, t.seams[q].state = .training ∧ t.ready (rSeam q.val) = false) ∧
      (∀ x, localBase b 0 ≤ x → x < localBase b 0 + 0x2000000 → t.mem.read x = 0) ∧
      (∀ x, x < localBase b 0 ∨ localBase b 0 + 0x2000000 ≤ x →
        (∀ k ∈ slicesOf b, ∀ l ∈ (s.slices[k]).held, l.dirty = true → x < l.addr ∨ l.addr + l.under.length ≤ x) →
        t.mem.read x = s.mem.read x)) ∧
  (∀ (s : State) (b : BoughId), s.boughs[b].state = .resetting → (∀ q ∈ seamsOf b, s.seams[q].state.inService = true) →
    ∃ t, exec (.boughResetDone b) s = .next t ∧ t.boughs[b].state = .ready ∧ t.ready (rBough b.val) = true ∧
      (∀ c : BoughId, c ≠ b → t.boughs[c].state = s.boughs[c].state) ∧ t.mem = s.mem ∧ t.sec = s.sec ∧ t.ports = s.ports)

/- Work queues and the journal. -/

/-- WQ_ENABLE and WQ_DISABLE (R376): enabling zeroes the queue's indices and its refusal; disabling, with no job unrecorded, keeps them.
Where the spec leaves a point open the model chooses: log entry 41. -/
def Obligations.QueuesAreEnabledAndDisabled : Prop :=
  (∀ (s : State) (r : Requester) (q : QueueId), Safety.Writes s r .wqEnable q.val 0 0 1 → s.wqEnableCodes q = [] → s.crown ≠ .quiescing →
    s.abi3 = true →
    ∃ t, exec (.wqEnable r q) s = .next t ∧ Safety.Counted s t r ∧
      t.wq q = { s.wq q with enabled := true, acceptIndex := 0, compWrite := 0, compRead := 0, refusal := 0, refusedAt := 0 } ∧
      (∀ p, p ≠ q → t.wq p = s.wq p) ∧ t = { s with ports := t.ports, hub := { s.hub with queues := t.hub.queues } }) ∧
  (∀ (s : State) (r : Requester) (q : QueueId), Safety.Writes s r .wqEnable q.val 0 0 0 → (∀ j ∈ s.hub.jobs, j.queue ≠ q) →
    ∃ t, exec (.wqDisable r q) s = .next t ∧ Safety.Counted s t r ∧ t.wq q = { s.wq q with enabled := false } ∧
      (∀ p, p ≠ q → t.wq p = s.wq p) ∧ t = { s with ports := t.ports, hub := { s.hub with queues := t.hub.queues } })

/-- DOORBELL and COMP_READ (R377 to R380): a record that passes every check is accepted: the queue's index rises by one, the acceptance is
counted, and one job of the queue with that index joins the end of the journal; a doorbell at a disabled queue is refused with code 0x01
and accepts nothing. comp_read takes a value between itself and comp_write. -/
def Obligations.DoorbellAcceptsJobs : Prop :=
  (∀ (s : State) (r : Requester) (q : QueueId) (bs : List Byte) (u : State), reachesWindow r = true → (s.wq q).enabled = true →
    s.ringRead (s.wqClaim q) (s.regN .wqSubBase q.val + (s.wq q).acceptIndex.toNat % 2 ^ s.wqSubLog q * 64) 64 = (.ok bs, u) →
    u.recordRefusal q (leNat bs) = none →
    ∃ t, exec (.doorbell r q ((s.wq q).acceptIndex + 1)) s = .next t ∧ (t.wq q).acceptIndex = (s.wq q).acceptIndex + 1 ∧
      t.hub.jobs.map (fun j => (j.queue, j.seq)) = s.hub.jobs.map (fun j => (j.queue, j.seq)) ++ [(q, (s.wq q).acceptIndex)] ∧
      (∀ p, p ≠ q → t.wq p = s.wq p) ∧ t.mem = s.mem ∧ t.sec = s.sec ∧ t.ports = s.ports) ∧
  (∀ (s : State) (r : Requester) (q : QueueId) (v : BitVec 32), reachesWindow r = true → (s.wq q).enabled = false →
    ∃ t, exec (.doorbell r q v) s = .next t ∧ t.wq q = { s.wq q with refusal := 0x01, refusedAt := (s.wq q).acceptIndex } ∧
      (t.port r).lastCode = 0xA400 ∧ t.hub.jobs = s.hub.jobs ∧ t.mem = s.mem) ∧
  (∀ (s : State) (r : Requester) (q : QueueId) (v : BitVec 32), reachesWindow r = true →
    (v - (s.wq q).compRead).toNat ≤ ((s.wq q).compWrite - (s.wq q).compRead).toNat →
    ∃ t, exec (.compReadWrite r q v) s = .next t ∧ t.wq q = { s.wq q with compRead := v } ∧ (∀ p, p ≠ q → t.wq p = s.wq p) ∧
      t = { s with hub := { s.hub with queues := t.hub.queues } })

/-- Cancels and deadlines (R389, R390): the undecided job named is decided CANCELLED at the present time; a cancel of a whole queue, or of
a bundle, so decides every undecided job of it; a deadline that has passed decides TIMED_OUT, or TIMED_OUT_UNSTARTED where no descriptor
has started. A job's queue and index name it, which the journal keeps (the first premise). Where the spec leaves a point open the model
chooses: log entries 4 and 47. -/
def Obligations.CancelsAndDeadlinesDecideJobs : Prop :=
  let named := fun (s : State) => (s.hub.jobs.map fun j => (j.queue, j.seq)).Nodup
  let cancelled := fun (s t : State) (j : Job) =>
    (t.job? j.queue j.seq).bind (·.decision) = some { status := stCancelled, time := s.now }
  (∀ (s : State) (r : Requester) (q : QueueId) (seq : BitVec 32) (j : Job), named s →
    Safety.Writes s r .wqCancel q.val 0 0 (BitVec.ofNat 64 seq.toNat) → s.job? q seq = some j → j.decision = none →
    ∃ t, exec (.wqCancel r q seq) s = .next t ∧ Safety.Counted s t r ∧ cancelled s t j ∧ t.mem = s.mem ∧ t.sec = s.sec) ∧
  (∀ (s : State) (r : Requester) (q : QueueId), named s → Safety.Writes s r .wqCancel q.val 0 0 (BitVec.ofNat 64 (2 ^ 32)) →
    ∃ t, exec (.wqCancelAll r q 0) s = .next t ∧ Safety.Counted s t r ∧
      (∀ j ∈ s.hub.jobs, j.decision = none → j.queue = q → cancelled s t j) ∧ t.mem = s.mem ∧ t.sec = s.sec) ∧
  (∀ (s : State) (r : Requester) (v : Word), named s → Safety.Writes s r .cancelBundle 0 0 0 v → v.toNat ≤ 63 →
    ∃ t, exec (.cancelBundle r v) s = .next t ∧ Safety.Counted s t r ∧
      (∀ j ∈ s.hub.jobs, j.decision = none → j.handle.val = v.toNat → cancelled s t j) ∧ t.mem = s.mem ∧ t.sec = s.sec) ∧
  (∀ (s : State) (q : QueueId) (seq : BitVec 32) (j : Job) (d : Nat), named s → s.job? q seq = some j → j.decision = none →
    j.deadline = some d → d ≤ s.now.toNat →
    ∃ t, exec (.jobDeadline q seq) s = .next t ∧
      (t.job? q seq).bind (·.decision) =
        some { status := if j.started || decide (0 < j.replays) then stTimedOut else stTimedOutUnstarted, time := s.now } ∧
      t.mem = s.mem ∧ t.sec = s.sec ∧ t.ports = s.ports)

/-- JOB_HANDLE_TAKE and JOB_BUFFER_RESERVE (R266, R268): the oldest job that waits for the queue takes its oldest posted handle, or, where
no producer asked before it, reserves its oldest FREE buffer; the buffer is then held, and what may start becomes startable (R140).
Nothing else changes. Where a producer asked before it, nothing changes. Where the spec leaves a point open the model chooses: log entry
41. -/
def Obligations.JobsTakeHandlesAndReserveBuffers : Prop :=
  (∀ (s : State) (b : BoughId) (q : HqPos) (j : Job) (h : BitVec 64) (rest : List (BitVec 64)),
    (s.oldestWaiting fun j => j.take = some (b, q) && j.taken.isNone) = some j → (s.hq b q).queued = h :: rest →
    ∃ t u : State, exec (.jobHandleTake b q) s = .next t ∧ t = u.wake ∧
      u.hq b q = { s.hq b q with queued := rest, held := (s.hq b q).held ++ [handleIndex h] } ∧
      (u.job? j.queue j.seq).bind (·.taken) = some h ∧ u = { s with boughs := u.boughs, hub := { s.hub with jobs := u.hub.jobs } }) ∧
  (∀ (s : State) (b : BoughId) (q : HqPos) (j : Job) (i : Nat) (rest : List Nat),
    (s.oldestWaiting fun j => j.post = some (b, q) && j.reserved.isNone) = some j → (s.hq b q).free = i :: rest →
    (∀ a ∈ s.asking b q, j.order < a.2) →
    ∃ t u : State, exec (.jobBufferReserve b q) s = .next t ∧ t = u.wake ∧
      u.hq b q = { s.hq b q with free := rest, held := (s.hq b q).held ++ [i] } ∧
      (u.job? j.queue j.seq).bind (·.reserved) = some i ∧ u = { s with boughs := u.boughs, hub := { s.hub with jobs := u.hub.jobs } }) ∧
  (∀ (s : State) (b : BoughId) (q : HqPos) (j : Job) (a : Producer × Nat),
    (s.oldestWaiting fun j => j.post = some (b, q) && j.reserved.isNone) = some j → a ∈ s.asking b q → a.2 ≤ j.order →
    exec (.jobBufferReserve b q) s = .next s)

/-- COMPLETION_RECORD_WRITE and its retry (R387, R388): the oldest job of the queue, decided and no longer running, has its 32-byte record
written at the place comp_write names and leaves the journal; the record is counted. A write that memory refuses waits. -/
def Obligations.CompletionRecordsAreWrittenInOrder : Prop :=
  let due := fun (s : State) (q : QueueId) (j : Job) (d : Decision) =>
    s.oldestJob q = some j ∧ j.decision = some d ∧ s.jobState j = 5
  let place := fun (s : State) (q : QueueId) => s.regN .wqCompBase q.val + (s.wq q).compWrite.toNat % 2 ^ s.wqCompLog q * 32
  let bytes := fun (s : State) (q : QueueId) (j : Job) (d : Decision) => recordBytes j d s.hub.epoch (s.wq q).compWrite.toNat (s.wqCompLog q)
  let written := fun (s t : State) (q : QueueId) (j : Job) (d : Decision) =>
    (t.wq q).compWrite = (s.wq q).compWrite + 1 ∧ (t.wq q).recordBlocked = false ∧
    t.reg .wqRecorded q.val = s.reg .wqRecorded q.val + 1 ∧ t.mem.readBytes (place s q) 32 = bytes s q j d ∧
    (∀ k ∈ t.hub.jobs, k ∈ s.hub.jobs ∧ ¬(k.queue = q ∧ k.seq = j.seq)) ∧ t.sec = s.sec ∧ t.ports = s.ports
  (∀ (s : State) (q : QueueId) (j : Job) (d : Decision), due s q j d → (s.wq q).recordBlocked = false → s.regN .wqCompBase q.val % 64 = 0 →
    place s q + 32 ≤ 2 ^ 37 → s.checkDram (.job j.claim) .write (place s q) = none →
    ∃ t, exec (.completionRecordWrite q) s = .next t ∧ written s t q j d) ∧
  (∀ (s : State) (q : QueueId) (j : Job) (d : Decision), due s q j d → (s.wq q).recordBlocked = true →
    10000 ≤ (s.now - (s.wq q).triedAt).toNat → s.regN .wqCompBase q.val % 64 = 0 → place s q + 32 ≤ 2 ^ 37 → s.checkDram (.job j.claim) .write (place s q) = none →
    ∃ t, exec (.completionRecordRetry q) s = .next t ∧ written s t q j d) ∧
  (∀ (s : State) (q : QueueId) (j : Job) (d : Decision) (f : MemFail), due s q j d → (s.wq q).recordBlocked = false →
    s.regN .wqCompBase q.val % 64 = 0 → place s q + 32 ≤ 2 ^ 37 → s.checkDram (.job j.claim) .write (place s q) = some f →
    ∃ t, exec (.completionRecordWrite q) s = .next t ∧ t.wq q = { s.wq q with recordBlocked := true, triedAt := s.now } ∧ t.hub.jobs = s.hub.jobs ∧
      t.mem = s.mem)

/-- Handle queues (R263 to R265, R270): binding makes every buffer of the pool FREE in index order; unbinding, with none filling or held,
clears the queue; a host's post of a FREE buffer enters the queue and is counted, and what waits for it may start. -/
def Obligations.HandleQueuesBindUnbindAndPost : Prop :=
  (∀ (s : State) (r : Requester) (b : BoughId) (q : HqPos), Safety.Writes s r .hqBind b.val q.val 0 1 → (s.hq b q).bound = false →
    s.hqBindCodes b q = [] →
    ∃ t, exec (.hqBind r b q) s = .next t ∧ Safety.Counted s t r ∧ (t.hq b q).bound = true ∧
      (t.hq b q).free = List.range (bits (s.reg .hqPoolShape b.val q.val) 39 32) ∧ (t.hq b q).queued = [] ∧ (t.hq b q).held = [] ∧
      (t.hq b q).filling = [] ∧ (t.hq b q).base = s.regN .hqPoolBase b.val q.val ∧
      (t.hq b q).stride = bits (s.reg .hqPoolShape b.val q.val) 31 0 ∧ (∀ p, p ≠ q → t.hq b p = s.hq b p) ∧
      (∀ c : BoughId, c ≠ b → t.boughs[c] = s.boughs[c]) ∧ t = { s with ports := t.ports, boughs := t.boughs }) ∧
  (∀ (s : State) (r : Requester) (b : BoughId) (q : HqPos), Safety.Writes s r .hqBind b.val q.val 0 0 → (s.hq b q).filling = [] →
    (s.hq b q).held = [] →
    ∃ t, exec (.hqUnbind r b q) s = .next t ∧ Safety.Counted s t r ∧ t.hq b q = {} ∧ (∀ p, p ≠ q → t.hq b p = s.hq b p) ∧
      (∀ c : BoughId, c ≠ b → t.boughs[c] = s.boughs[c]) ∧ t = { s with ports := t.ports, boughs := t.boughs }) ∧
  (∀ (s : State) (r : Requester) (b : BoughId) (q : HqPos) (v : Word), Safety.Writes s r .hqPost b.val q.val 0 v →
    bits v 63 60 = 0 → bits v 31 6 = 0 → (s.hq b q).bound = true → (s.hq b q).free.contains (handleIndex v) = true →
    s.boughs[b].state.inReset = false → (s.claimState (s.hq b q).claim).confidential = false →
    ∃ t u : State, exec (.hqPost r b q v) s = .next t ∧ t = u.wake.countDone r ∧ (u.hq b q).queued = (s.hq b q).queued ++ [v] ∧
      (u.hq b q).free = (s.hq b q).free.filter (· ≠ handleIndex v) ∧ u.reg .hqPosts b.val q.val = s.reg .hqPosts b.val q.val + 1 ∧
      u = { s with boughs := u.boughs, objs := u.objs })

/-- EVENT_COUNTER_WRITE, COUNTER_GROUP_CLEAR and COUNTER_BLOCK_BIND (R121, R145, R189): the counter takes the written value, which the
waits observe (R141), and no other counter changes; writing 1 to a clear object sets every counter of its group to zero at once, and
writing 0 has no effect; a binding that moves no block that a loaded bundle uses, and none from or to a confidential claim, is kept. Where
the spec leaves a point open the model chooses: log entry 26. -/
def Obligations.EventCountersAndClearObjects : Prop :=
  (∀ (s : State) (r : Requester) (b : BoughId) (c : BitVec 10) (v : Word),
    Safety.Writes s r .eventCounter b.val (c.toNat / 256) (c.toNat % 256) v →
    ∃ t, exec (.eventCounterWrite r b c v) s = .next t ∧ t = ((s.setEvent b c.toNat (BitVec.ofNat 32 v.toNat)).wake).countDone r ∧
      (s.setEvent b c.toNat (BitVec.ofNat 32 v.toNat)).event b c.toNat = BitVec.ofNat 32 v.toNat ∧
      (∀ n, n ≠ c.toNat → (s.setEvent b c.toNat (BitVec.ofNat 32 v.toNat)).event b n = s.event b n)) ∧
  (∀ (s : State) (r : Requester) (g : CounterGroup), Safety.Writes s r (groupClear g).1 (groupClear g).2.1 (groupClear g).2.2 0 1 →
    ∃ t, exec (.counterGroupClear r g 1) s = .next t ∧ Safety.Counted s t r ∧ (∀ x ∈ groupObs g, t.reg x.1 x.2.1 x.2.2 = 0) ∧
      t = { s with ports := t.ports, objs := t.objs }) ∧
  (∀ (s : State) (r : Requester) (g : CounterGroup), Safety.Writes s r (groupClear g).1 (groupClear g).2.1 (groupClear g).2.2 0 0 →
    ∃ t, exec (.counterGroupClear r g 0) s = .next t ∧ Safety.Counted s t r ∧ t = { s with ports := t.ports }) ∧
  (∀ (s : State) (r : Requester) (b : BoughId) (work : Bool) (v : Word),
     Safety.Writes s r (if work then .wcBlockClaims else .ecBlockClaims) b.val 0 0 v →
     (∀ k, k < 16 → s.blockClaim work b k ≠ bits v (4 * k + 3) (4 * k) →
       (∀ x ∈ s.hub.bundles, (if work then x.wcBlocks else x.ecBlocks).contains (b, k) = false) ∧
       (s.claimState (Fin.ofNat 16 (s.blockClaim work b k))).confidential = false ∧
       (s.claimState (Fin.ofNat 16 (bits v (4 * k + 3) (4 * k)))).confidential = false) →
     ∃ t, exec (.counterBlockBind r b work v) s = .next t ∧ Safety.Counted s t r ∧
       (∀ k, k < 16 → t.blockClaim work b k = bits v (4 * k + 3) (4 * k)) ∧
       (∀ w c, (w ≠ work ∨ c ≠ b) → ∀ k, t.blockClaim w c k = s.blockClaim w c k) ∧ t = { s with ports := t.ports, objs := t.objs })

/- Bundles. -/

/-- LOAD_REQUEST, LOAD_COMPLETE and UNLOAD (R180, R182, R184, R187): a request reads BUSY and, where its record and header pass, locks the
placement area; a load that passes its checks ends LOADED with one bundle more, under its handle, and one that does not ends REFUSED with
the verifier's word and none, the request's locks released; unloading a bundle that no job uses releases its handle and its locks. Where
the spec leaves a point open the model chooses: log entries 18, 49 and 57. -/
def Obligations.BundlesLoadAndUnload : Prop :=
  (∀ (s : State) (r : Requester) (v : Word), Safety.Writes s r .loadRequest 0 0 0 v → s.hub.loadState ≠ 1 → s.ready rWorkHub = true →
    ∃ t, exec (.loadRequest r v) s = .next t ∧ Safety.Counted s t r ∧ t.hub.loadState = 1 ∧ t.hub.loadHandle = 0xFF ∧
      (∃ l, t.hub.load = some l ∧ l.record = v.toNat ∧ (l.code ≠ 0 → l.locks = [] ∧ ∀ n, t.seg n = s.seg n) ∧
        (∀ n, (t.seg n).locks = (s.seg n).locks + l.locks.count n)) ∧
      t.hub.bundles = s.hub.bundles ∧ t.hub.jobs = s.hub.jobs ∧ t.mem = s.mem ∧ t.sec.claims = s.sec.claims) ∧
  (∀ (s : State) (l : LoadRun), s.hub.load = some l →
    ∃ t, exec .loadComplete s = .next t ∧ t.hub.load = none ∧ t.hub.jobs = s.hub.jobs ∧ t.hub.queues = s.hub.queues ∧
      ((t.hub.loadState = 2 ∧ ∃ b, t.hub.bundles = s.hub.bundles ++ [b] ∧ t.hub.loadHandle = b.handle.val ∧ b.claim = l.claim) ∨
       (t.hub.loadState = 3 ∧ t.hub.bundles = s.hub.bundles ∧ t.hub.loadHandle = 0xFF)) ∧
      (l.code ≠ 0 → t.hub.loadState = 3 ∧ t.mem = s.mem ∧
        t.hub.loadDetail = VFail.word { code := l.code })) ∧
  (∀ (s : State) (l : LoadRun) (x : Bundle), s.hub.load = some l → (s.runLoad l).1 = .ok x →
    ∃ t, exec .loadComplete s = .next t ∧ t.hub.load = none ∧ t.hub.loadState = 2 ∧ t.hub.bundles = s.hub.bundles ++ [x] ∧
      t.hub.loadHandle = x.handle.val ∧ x.claim = l.claim ∧ t.hub.loadDetail = 0 ∧ t.mem = (s.runLoad l).2.2.mem) ∧
  (∀ (s : State) (l : LoadRun) (f : VFail), s.hub.load = some l → (s.runLoad l).1 = .error f →
    ∃ t, exec .loadComplete s = .next t ∧ t.hub.load = none ∧ t.hub.loadState = 3 ∧ t.hub.bundles = s.hub.bundles ∧
      t.hub.loadHandle = 0xFF ∧ t.hub.loadDetail = f.word ∧ t.mem = (s.runLoad l).2.2.mem ∧
      ∀ n, (t.seg n).locks = (s.seg n).locks - l.locks.count n) ∧
  (∀ (s : State) (r : Requester) (v : Word) (b : Bundle), Safety.Writes s r .unload 0 0 0 v → v.toNat < 64 →
    s.bundle? (Fin.ofNat 64 v.toNat) = some b → (∀ j ∈ s.hub.jobs, j.handle ≠ b.handle) →
    ∃ t, exec (.unload r v) s = .next t ∧ Safety.Counted s t r ∧ t.bundle? b.handle = none ∧
      t.hub.bundles = s.hub.bundles.filter (fun x => x.handle ≠ b.handle) ∧
      (∀ n, (t.seg n).locks = (s.seg n).locks - b.segs.count n) ∧
      (∀ c : ClaimId, t.claimState c = s.claimState c) ∧ t = { s with ports := t.ports, hub := t.hub, sec := t.sec } ∧
      t.hub.jobs = s.hub.jobs)

/- Descriptors at work. -/

/-- DESCRIPTOR_START (R137, R139, R140): the first startable descriptor that finds capacity starts: its job has started, and it runs or,
where it does its work at once, is done; then what may start becomes startable. Memory, claims and ports stay. Where the spec leaves a
point open the model chooses: log entries 46 and 56. -/
def Obligations.DescriptorStarts : Prop :=
  ∀ (s : State) (j : Job) (x : JDesc) (c : Nat) (p : Place),
    (s.candidates.findSome? fun (j, x, c) =>
      ((s.places (dTarget (s.descBits j x))).find? (s.capacity (s.descBits j x))).map fun p => (j, x, c, p)) = some (j, x, c, p) →
    (s.jobProg j).isSome = true → (dOpcode (s.descBits j x) ≠ opIndirect ∨ x.key.inst = none) →
    ∃ t u : State, exec .descriptorStart s = .next t ∧ t = u.wake ∧
      (∀ k ∈ u.hub.jobs, k.queue = j.queue → k.seq = j.seq → k.started = true ∧
        ∀ y ∈ k.descs, y.key = x.key → y.phase = .running ∨ y.phase = .done) ∧
      u.mem = s.mem ∧ u.sec = s.sec ∧ u.ports = s.ports ∧ u.hub.queues = s.hub.queues

/-- BRANCH_JOIN, COUNTER_SEEK and WORK_CLAIM (R137, R199 to R203, R205, R206): the branch joins the first descriptor that waits for it,
or, where the bough's run of tiles is empty, is answered with the sentinel; the counter seeks its share's start and the claims that wait
are answered; a claim inside the share takes the counter's tile, to run it or to hold it, and the counter moves on by one; a claim that
comes before the seek waits; one past the share, or of a stopped descriptor, is answered with the sentinel. Where the spec leaves a point
open the model chooses: log entries 46 and 56. -/
def Obligations.BranchesJoinAndClaimTiles : Prop :=
  (∀ (s : State) (b : BoughId) (p : BranchPos) (r : Run) (job : Job), p.val < branchesOf s.grade →
    (s.hub.runs.find? fun r =>
      r.branch.isNone && (isLeafOp (dOpcode r.desc) || isVuOp (dOpcode r.desc)) && !r.stopped && !r.ready &&
      r.posted.contains b && !r.joined.contains (b, p) &&
      s.enginesFree r.desc (claimantsOn r.desc none b p) b p) = some r → s.job? r.queue r.seq = some job →
    (r.shares.any fun h => h.bough = b) = true →
    ∃ t, exec (.branchJoin b p) s = .next t ∧ (∀ x ∈ t.hub.runs, x.id = r.id → (b, p) ∈ x.joined) ∧
      t.mem = s.mem ∧ t.sec = s.sec ∧ t.ports = s.ports ∧ t.hub.queues = s.hub.queues) ∧
  (∀ (s : State) (b : BoughId) (p : BranchPos) (r : Run), p.val < branchesOf s.grade →
    (s.hub.runs.find? fun r =>
      r.branch.isNone && (isLeafOp (dOpcode r.desc) || isVuOp (dOpcode r.desc)) && !r.stopped && !r.ready &&
      r.posted.contains b && !r.joined.contains (b, p) &&
      s.enginesFree r.desc (claimantsOn r.desc none b p) b p) = some r →
    (r.shares.any fun h => h.bough = b) = false → s.confidentialOpen = false →
    ∃ t, exec (.branchJoin b p) s = .next t ∧ (∀ x ∈ t.hub.runs, x.id = r.id → (b, p) ∈ x.joined) ∧
      t.reg .wcSentinels b.val = s.reg .wcSentinels b.val + BitVec.ofNat 64 (claimantsOn r.desc none b p).length ∧
      t = { s with hub := { s.hub with runs := t.hub.runs }, objs := t.objs }) ∧
  (∀ (s : State) (b : BoughId) (c : BitVec 8) (r : Run) (h : Share), s.ctrHolder b c.toNat = some r →
    (r.shares.find? fun h => h.bough = b) = some h → h.seeked = false →
    ∃ t u : State, exec (.counterSeek b c) s = .next t ∧ t = h.claims.foldl State.answerClaim u ∧
      (∀ x ∈ u.hub.runs, x.id = r.id → ∀ g ∈ x.shares, g.bough = b → g.seeked = true ∧ g.claims = []) ∧
      u = { s with hub := { s.hub with runs := u.hub.runs }, objs := u.objs }) ∧
  (∀ (s : State) (w : Claimant) (r : Run) (u : RunUnit) (h : Share), s.unitOf w = some (r, u) → u.sentinel = false → r.ready = false →
    r.stopped = false → u.running.isSome = true → u.held = none → (r.shares.find? fun h => h.bough = claimantBough w) = some h →
    (r.shares.any fun h => h.bough = claimantBough w && !h.seeked) = false →
    (s.ctr (claimantBough w) (dWorkCounter r.desc)).next < h.hi →
    ∃ t v : State, exec (.workClaim w) s = .next t ∧ t = v.settleUnits r.id ∧
      (v.ctr (claimantBough w) (dWorkCounter r.desc)).next = (s.ctr (claimantBough w) (dWorkCounter r.desc)).next + 1 ∧
      (v.unitOf w).map (fun p => p.2.held) = some (some (s.ctr (claimantBough w) (dWorkCounter r.desc)).next) ∧
      v = { s with boughs := v.boughs, hub := { s.hub with runs := v.hub.runs }, objs := v.objs }) ∧
  (∀ (s : State) (w : Claimant) (r : Run) (u : RunUnit) (h : Share), s.unitOf w = some (r, u) → u.sentinel = false → r.ready = false →
    r.stopped = false → u.running = none → (r.shares.find? fun h => h.bough = claimantBough w) = some h →
    (r.shares.any fun h => h.bough = claimantBough w && !h.seeked) = false →
    (s.ctr (claimantBough w) (dWorkCounter r.desc)).next < h.hi →
    ∃ t v : State, exec (.workClaim w) s = .next t ∧ t = (v.startTile r.id w).settleUnits r.id ∧
      (v.ctr (claimantBough w) (dWorkCounter r.desc)).next = (s.ctr (claimantBough w) (dWorkCounter r.desc)).next + 1 ∧
      (v.unitOf w).map (fun p => p.2.running) = some (some (s.ctr (claimantBough w) (dWorkCounter r.desc)).next) ∧
      v = { s with boughs := v.boughs, hub := { s.hub with runs := v.hub.runs }, objs := v.objs }) ∧
  (∀ (s : State) (w : Claimant) (r : Run) (u : RunUnit), s.unitOf w = some (r, u) → u.sentinel = false → r.ready = false →
    r.stopped = false → (u.running.isSome && u.held.isSome) = false →
    (r.shares.any fun h => h.bough = claimantBough w && !h.seeked) = true →
    ∃ t, exec (.workClaim w) s = .next t ∧
      (∀ x ∈ t.hub.runs, x.id = r.id → ∀ g ∈ x.shares, g.bough = claimantBough w → w ∈ g.claims) ∧
      t = { s with hub := { s.hub with runs := t.hub.runs } }) ∧
  (∀ (s : State) (w : Claimant) (r : Run) (u : RunUnit), s.unitOf w = some (r, u) → u.sentinel = false → r.ready = false →
    (u.running.isSome && u.held.isSome) = false → (!r.stopped && r.shares.any fun h => h.bough = claimantBough w && !h.seeked) = false →
    ((r.shares.find? fun h => h.bough = claimantBough w).all fun h =>
      r.stopped || h.hi ≤ (s.ctr (claimantBough w) (dWorkCounter r.desc)).next) = true → s.confidentialOpen = false →
    ∃ t, exec (.workClaim w) s = .next t ∧ (∀ x ∈ t.hub.runs, x.id = r.id → ∀ y ∈ x.units, y.who = w → y.sentinel = true) ∧
      t.reg .wcSentinels (claimantBough w).val = s.reg .wcSentinels (claimantBough w).val + 1 ∧
      t = { s with hub := { s.hub with runs := t.hub.runs }, objs := t.objs })

/-- LEAF_STEP (R82, R85, R97 to R101, R209): after its branch's banks have decided, a leaf whose operands have come, whose set is free and
whose group is level with it completes one step, which is counted while no confidential claim is open, and the last step of a position
puts its set in the drain; else it is counted frozen under the first cause that applies, and the interval is one of the extra steps it
owes; of a tile without steps a set goes to the drain; memory and the claims stay. Where the spec leaves a point open the model chooses:
log entries 46 and 55. -/
def Obligations.LeavesStepOrFreeze : Prop :=
  (∀ (s v : State) (b : BoughId) (p : BranchPos) (l : LeafPos) (ws : List PortRequest) (r : Run) (u : RunUnit) (g : List LeafPos) (k : Nat)
      (y z : LeafSet) (fl : NumFlags) (esc : Nat), v = s.bankRound b p ws →
    v.leafGroupOf b p l = some (r, u, g) → u.running = some k → (v.leaf b p l).step < r.tileSteps k →
    v.leafFreeze r u b p l k g = none → dOpcode r.desc ≠ opAttention →
    ((v.leaf b p l).fill = some y ∨
      ((v.leaf b p l).fill = none ∧ v.beginSet r u l k (r.stepPlan k (v.leaf b p l).step).pos = .ok y)) →
    v.stepSet r u l k (v.leaf b p l).step y = .ok (z, fl, esc) → v.confidentialOpen = false →
    ∃ t w : State, exec (.leafStep b p l (.clean, ws)) s = .next t ∧ t.mem = s.mem ∧ t.sec = s.sec ∧ t.ports = s.ports ∧
      t.reg .leafSteps b.val p.val = s.reg .leafSteps b.val p.val + 1 ∧
      w.leaf b p l = { v.leaf b p l with
        step := (v.leaf b p l).step + 1, owed := esc - 1, active := true,
        fill := if (r.stepPlan k (v.leaf b p l).step).last then none else some z,
        drain := if (r.stepPlan k (v.leaf b p l).step).last then (v.leaf b p l).drain ++ [z] else (v.leaf b p l).drain } ∧
      t = (if g.all (fun m => (w.leaf b p m).step = r.tileSteps k) then (w.releaseChunks r u k).tileStepped r u b p k g
        else (w.releaseChunks r u k).settleUnits r.id)) ∧
  (∀ (s v : State) (b : BoughId) (p : BranchPos) (l : LeafPos) (ws : List PortRequest) (r : Run) (u : RunUnit) (g : List LeafPos) (k : Nat)
      (z : LeafSet), v = s.bankRound b p ws →
    v.leafGroupOf b p l = some (r, u, g) → u.running = some k → (v.leaf b p l).step < r.tileSteps k →
    v.leafFreeze r u b p l k g = none → dOpcode r.desc = opAttention → v.confidentialOpen = false →
    ((v.leaf b p l).step + 1 = r.tileSteps k → v.attentionSet r u l k = .ok z) →
    ∃ t w : State, exec (.leafStep b p l (.clean, ws)) s = .next t ∧ t.mem = s.mem ∧ t.sec = s.sec ∧ t.ports = s.ports ∧
      t.reg .leafSteps b.val p.val = s.reg .leafSteps b.val p.val + 1 ∧
      (w.leaf b p l).step = (v.leaf b p l).step + 1 ∧
      (w.leaf b p l).drain = (if (v.leaf b p l).step + 1 = r.tileSteps k then (v.leaf b p l).drain ++ [z] else (v.leaf b p l).drain) ∧
      t = (if g.all (fun m => (w.leaf b p m).step = r.tileSteps k) then (w.releaseChunks r u k).tileStepped r u b p k g
        else (w.releaseChunks r u k).settleUnits r.id)) ∧
  (∀ (s v : State) (b : BoughId) (p : BranchPos) (l : LeafPos) (e : WordError) (ws : List PortRequest) (r : Run) (u : RunUnit)
      (g : List LeafPos) (k : Nat) (f : Freeze), v = s.bankRound b p ws →
    v.leafGroupOf b p l = some (r, u, g) → u.running = some k → (v.leaf b p l).step < r.tileSteps k →
    v.leafFreeze r u b p l k g = some f → v.confidentialOpen = false →
    ∃ t, exec (.leafStep b p l (e, ws)) s = .next t ∧ t.reg f.ob b.val p.val = s.reg f.ob b.val p.val + 1 ∧
      t.leaf b p l = { v.leaf b p l with owed := (v.leaf b p l).owed - 1 } ∧
      t = { s with boughs := t.boughs, objs := t.objs }) ∧
  (∀ (s v : State) (b : BoughId) (p : BranchPos) (l : LeafPos) (e : WordError) (ws : List PortRequest) (r : Run) (u : RunUnit)
      (g : List LeafPos) (k : Nat) (y : LeafSet), v = s.bankRound b p ws →
    v.leafGroupOf b p l = some (r, u, g) → u.running = some k → r.tileSteps k = 0 →
    (v.leaf b p l).step < (r.leafTile k).positions.length → (v.leaf b p l).drain.length < 2 →
    u.loaded r k l (v.leaf b p l).step = true → dOpcode r.desc ≠ opAttention → v.beginSet r u l k (v.leaf b p l).step = .ok y →
    ∃ t w : State, exec (.leafStep b p l (e, ws)) s = .next t ∧ t.mem = s.mem ∧ t.sec = s.sec ∧ t.ports = s.ports ∧
      w.leaf b p l = { v.leaf b p l with step := (v.leaf b p l).step + 1, drain := (v.leaf b p l).drain ++ [y] } ∧
      t = (if g.all (fun m => (r.leafTile k).positions.length ≤ (w.leaf b p m).step) then w.tileStepped r u b p k g else w).settleUnits r.id)

/-- DRAIN_WRITEOUT_DONE and TILE_FINISH (R85, R90, R204, R213, R254): the oldest set of a leaf is written in place and free again, or
given as chunks to its ring and free again when the last of them has found a slot; a leaf group's tile whose sets are all written is
finished and counted, and so is one of a vector unit whose output has found its slots, or of a queue whose transfers are done, and the
tile held in reserve begins. Where the spec leaves a point open the model chooses: log entries 55 and 56. -/
def Obligations.DrainsAndTilesFinish : Prop :=
  (∀ (s : State) (b : BoughId) (p : BranchPos) (l : LeafPos) (r : Run) (u : RunUnit) (g : List LeafPos) (x : LeafSet) (rest : List LeafSet)
      (es : List (Coord × Nat)) (fl : NumFlags) (o : Tensor),
    s.leafGroupOf b p l = some (r, u, g) → (s.leaf b p l).drain = x :: rest → x.sent = false →
    s.setCodes r u l x = .ok (es, fl) → r.tensor (outSlot (dOpcode r.desc)) = some o →
    (u.rings.find? fun y => y.slot = outSlot (dOpcode r.desc) && y.out) = none → u.outHeld = true →
    ∃ t, exec (.drainWriteoutDone b p (l, .clean)) s = .next t ∧ (t.leaf b p l).drain = rest ∧ (t.leaf b p l).fill = (s.leaf b p l).fill ∧
      (∀ c : BoughId, c ≠ b → t.boughs[c] = s.boughs[c]) ∧ t.sec = s.sec ∧ t.ports = s.ports ∧ t.objs = s.objs ∧
      t.mem = (if o.rel then (s.localPuts b p (es.flatMap fun e => o.putsAt 0 e.1 e.2)).mem else s.mem)) ∧
  (∀ (s : State) (b : BoughId) (p : BranchPos) (l : LeafPos) (r : Run) (u : RunUnit) (g : List LeafPos) (x : LeafSet) (rest : List LeafSet)
      (es : List (Coord × Nat)) (fl : NumFlags) (o : Tensor) (y : SubRing),
    s.leafGroupOf b p l = some (r, u, g) → (s.leaf b p l).drain = x :: rest → x.sent = false →
    s.setCodes r u l x = .ok (es, fl) → r.tensor (outSlot (dOpcode r.desc)) = some o →
    (u.rings.find? fun y => y.slot = outSlot (dOpcode r.desc) && y.out) = some y → u.outFree (outSlot (dOpcode r.desc)) = true →
    ∃ (t : State) (w : RunUnit) (cs : List Chunk), exec (.drainWriteoutDone b p (l, .clean)) s = .next t ∧
      (t.leafGroupOf b p l).map (fun q => q.2.1) = some w ∧
      w.rings = u.rings.map (fun z => if z.slot = outSlot (dOpcode r.desc) && z.out then
        { z with chunks := z.chunks ++ cs, nextIdx := z.nextIdx + cs.length } else z) ∧ (∀ c ∈ cs, c.tile = x.tile) ∧
      (t.leaf b p l).drain = (if w.outHeld then rest else { x with sent := true } :: rest) ∧ (t.leaf b p l).fill = (s.leaf b p l).fill ∧
      (∀ c : BoughId, c ≠ b → t.boughs[c] = s.boughs[c]) ∧ t.sec = s.sec ∧ t.ports = s.ports ∧ t.objs = s.objs) ∧
  (∀ (s : State) (b : BoughId) (p : BranchPos) (l : LeafPos) (e : WordError) (r : Run) (u : RunUnit) (g : List LeafPos) (x : LeafSet)
      (rest : List LeafSet),
    s.leafGroupOf b p l = some (r, u, g) → (s.leaf b p l).drain = x :: rest → x.sent = true →
    ∃ t, exec (.drainWriteoutDone b p (l, e)) s = .next t ∧ (t.leaf b p l).drain = (if u.outHeld then rest else x :: rest) ∧
      t = { s with boughs := t.boughs }) ∧
  (∀ (s : State) (b : BoughId) (p : BranchPos) (j : LeafPos) (e : WordError) (r : Run) (u : RunUnit) (h : Share) (k : Nat) (rest : List Nat),
    (s.hub.runs.map (·.id)).Nodup → s.unitOf (.leafGroup b p j) = some (r, u) → u.finishing = k :: rest →
    ((groupLeaves (dGang r.desc) j.val).all fun l =>
      ((s.leaf b p l).drain.all fun y => y.tile ≠ k) && ((s.leaf b p l).fill.all fun y => y.tile ≠ k)) = true →
    hasGrid (dOpcode r.desc) = true → (r.shares.filter fun h => h.bough = b) = [h] → h.done + 1 < h.hi - h.lo →
    ∃ t v : State, exec (.tileFinish (.leafGroup b p j) e) s = .next t ∧ t = v.wake ∧
      (v.ctr b (dWorkCounter r.desc)).done = (s.ctr b (dWorkCounter r.desc)).done + 1 ∧
      (∀ x ∈ v.hub.runs, x.id = r.id → ∀ y ∈ x.units, y.who = .leafGroup b p j → y.finishing = rest) ∧
      v = { s with boughs := v.boughs, hub := { s.hub with runs := v.hub.runs } }) ∧
  (∀ (s : State) (w : Claimant) (e : WordError) (r : Run) (u : RunUnit) (k : Nat), s.unitOf w = some (r, u) → u.running = some k →
    ((∃ b p, w = .vectorUnit b p) ∧ u.emitted = true ∧ u.outHeld = true ∨
      (claimantQueue w).isSome = true ∧ u.todo = [] ∧ u.stage = none ∧ ((s.xfersOf r.id).any fun x => x.who = w) = false) →
    ∃ t v : State, exec (.tileFinish w e) s = .next t ∧ t = (((v.startTile r.id w).settleUnits r.id).advance r.id).wake ∧
      (v.ctr (claimantBough w) (dWorkCounter r.desc)).done = (s.ctr (claimantBough w) (dWorkCounter r.desc)).done + 1 ∧
      (v.unitOf w).map (fun p => p.2.running) = some u.held ∧ (v.unitOf w).map (fun p => p.2.held) = some none ∧
      v = { s with boughs := v.boughs, hub := { s.hub with runs := v.hub.runs } }) ∧
  (∀ (s : State) (b : BoughId) (p : BranchPos) (r : Run) (u : RunUnit) (k : Nat) (outs : List (Nat × List (Coord × Nat))) (fl : NumFlags),
    s.unitOf (.vectorUnit b p) = some (r, u) → u.running = some k → u.emitted = false → u.fedWhole k = true → u.outsFree = true →
    s.vuCodes r u k = .ok (outs, fl) →
    ∃ (t v : State) (q : Run × RunUnit), exec (.tileFinish (.vectorUnit b p) .clean) s = .next t ∧
      v.unitOf (.vectorUnit b p) = some q ∧ q.2.emitted = true ∧ q.2.running = some k ∧
      t = (if q.2.outHeld then v.nextTile q.1 (.vectorUnit b p) else v).wake ∧ v.sec = s.sec ∧ v.ports = s.ports ∧ v.objs = s.objs)

/-- DESCRIPTOR_COMPLETE (R24, R168, R393): a descriptor whose work is all done, or an INDIRECT whose instances all are, leaves, its
queue's canary rises by one, and its job sees it done; then what waited for it may start. -/
def Obligations.DescriptorsComplete : Prop :=
  ∀ (s : State) (q : QueueId) (seq : BitVec 32) (id : Nat) (inst : Option Nat) (r : Run),
    (s.hub.runs.find? fun r => r.queue = q && r.seq = seq && r.key = ⟨id, inst⟩) = some r → r.stopped = false →
    (r.ready = true ∧ (dOpcode r.desc ≠ opIndirect ∨ r.iter = 1) ∨
      dOpcode r.desc = opIndirect ∧ r.iter = 1 ∧ ((s.job? r.queue r.seq).any fun j =>
        j.descs.all fun x => x.key.inst.isNone || x.key.id ≠ r.key.id || x.phase = .done) = true) →
    ∃ t u : State, exec (.descriptorComplete q seq id inst) s = .next t ∧ t = u.wake ∧ (∀ x ∈ u.hub.runs, x.id ≠ r.id) ∧
      u.reg .queueCanary 0 0 q.val = s.reg .queueCanary 0 0 q.val + 1 ∧
      (∀ j ∈ u.hub.jobs, j.queue = q → j.seq = seq → ∀ y ∈ j.descs, y.key = r.key → y.phase = .done) ∧
      u.mem = s.mem ∧ u.sec = s.sec ∧ u.ports = s.ports ∧ u.hub.queues = s.hub.queues

/-- The sort unit and ROTATE (R118, R119, R258 to R260): an idle unit begins the oldest request that waits; an operation whose words have
come is counted with its steps, at least one and at most its bound, and frees the unit once its writes are acknowledged; a pass of a
bough's ring gives each branch the shard of the branch before it. Where the spec leaves a point open the model chooses: log entries 46 and
47. -/
def Obligations.SortUnitAndRotation : Prop :=
  (∀ (s : State) (b : BoughId) (id : Nat) (rest : List Nat), s.boughs[b].sortBusy = none → s.boughs[b].sortWait = id :: rest →
    ∃ t, exec (.sortUnitStart b) s = .next t ∧ t.boughs[b] = { s.boughs[b] with sortBusy := some id, sortWait := rest } ∧
      (∀ c : BoughId, c ≠ b → t.boughs[c] = s.boughs[c]) ∧ t = { s with boughs := t.boughs }) ∧
  (∀ (s v : State) (b : BoughId) (p : BranchPos) (id : Nat) (r : Run) (ps : List Pull) (ws : List Nat), s.boughs[b].sortBusy = some id →
    s.run? id = some r → s.confidentialOpen = false → r.acks = [] → r.pulls = [] → s.pullAll r r.sortPlaces = (.ok ps, v) →
    pulledWords ps = some ws →
    ∃ (t : State) (n : Nat), exec (.sortUnitDone (b, p, .clean)) s = .next t ∧ t.reg .sortOps b.val = s.reg .sortOps b.val + 1 ∧
      1 ≤ n ∧ n ≤ max 1 (sortBound r.desc r.sortCount) ∧
      t.reg .sortBusySteps b.val = s.reg .sortBusySteps b.val + BitVec.ofNat 64 n ∧
      (t.boughs[b].sortBusy = none ∨ ∃ x ∈ t.hub.runs, x.id = id ∧ x.acks ≠ []) ∧
      t.sec = s.sec ∧ t.ports = s.ports ∧ t.hub.queues = s.hub.queues) ∧
  (∀ (s : State) (b : BoughId) (p : BranchPos) (e : WordError) (id : Nat) (r : Run), s.boughs[b].sortBusy = some id → s.run? id = some r →
    r.acks ≠ [] → r.acks.all s.tagReady = true →
    ∃ t, exec (.sortUnitDone (b, p, e)) s = .next t ∧ t.boughs[b].sortBusy = none ∧ t.mem = s.mem ∧
      t.sec = s.sec ∧ t.ports = s.ports ∧ t.hub.queues = s.hub.queues) ∧
  (∀ (s : State) (b : BoughId) (q : BranchPos) (r : Run) (o : Tensor),
    (s.hub.runs.find? fun r => r.passes.any fun p => p.1 = b && 0 < p.2) = some r → r.tensor 0 = some o →
    (s.branchList.all fun p => (wordsOf o.base o.bufSize).all fun w => !s.wordPoisoned b p w) = true → o.base + o.bufSize ≤ 0x400000 →
    ∃ t, exec (.rotatePass (b, q, .clean)) s = .next t ∧
      (∀ p i, p < branchesOf s.grade → i < o.bufSize →
        t.mem.read (localBase b p + o.base + i) =
          s.mem.read (localBase b ((p + branchesOf s.grade - 1) % branchesOf s.grade) + o.base + i)) ∧
      (∀ x, (∀ p, p < branchesOf s.grade → x < localBase b p + o.base ∨ localBase b p + o.base + o.bufSize ≤ x) →
        t.mem.read x = s.mem.read x) ∧ t.sec = s.sec ∧ t.ports = s.ports)

/-- TRANSFER_ISSUE and TRANSFER_COMPLETE (R246, R253): a queue within its limits, behind no queue of its hauler that waits, issues its
next transfer, which stands last among the outstanding; at its hauler's total it waits; a transfer whose data has come fills its chunk of
an input ring or is written, and leaves, as does one that has failed, or whose write is acknowledged. Where the spec leaves a point open
the model chooses: log entries 46, 50 and 56. -/
def Obligations.TransfersAreIssuedAndComplete : Prop :=
  (∀ (s : State) (h : HaulQueue), (s.queueXfers h).length < s.queueLimit h →
    (s.hub.xfers.filter fun x => sameHauler x.queue h).length < haulerTotal h → (s.nextTransfer h).isSome = true →
    (((s.hub.haulWaits.filter s.canIssue).find? fun q => sameHauler q h).all fun q => q = h) = true →
    ∃ t x, exec (.transferIssue (h, .clean)) s = .next t ∧ t.hub.xfers = s.hub.xfers ++ [x] ∧ x.queue = h ∧ h ∉ t.hub.haulWaits ∧
      t.mem = s.mem ∧ t.sec = s.sec ∧ t.ports = s.ports ∧ t.hub.queues = s.hub.queues) ∧
  (∀ (s : State) (h : HaulQueue) (e : WordError), s.canIssue h = true →
    haulerTotal h ≤ (s.hub.xfers.filter fun x => sameHauler x.queue h).length →
    ∃ t, exec (.transferIssue (h, e)) s = .next t ∧ h ∈ t.hub.haulWaits ∧ t = { s with hub := { s.hub with haulWaits := t.hub.haulWaits } }) ∧
  (∀ (s : State) (h : HaulQueue) (i : Nat) (ws : List PortRequest) (x : Xfer) (e : Nat), (s.queueXfers h)[i]? = some x → x.fail = some e →
    (s.run? x.run).isSome = true →
    ∃ t, exec (.transferComplete h (i, ws)) s = .next t ∧ t.hub.xfers.length + 1 = s.hub.xfers.length ∧
      t.sec = s.sec ∧ t.ports = s.ports ∧ t.hub.queues = s.hub.queues) ∧
  (∀ (s : State) (h : HaulQueue) (i : Nat) (ws : List PortRequest) (x : Xfer) (r : Run) (u : RunUnit), (s.queueXfers h)[i]? = some x →
    x.fail = none → x.phase = .landed → x.tags = [] → x.move.src.isSome = true → x.slot < 5 → s.run? x.run = some r →
    (r.units.find? fun u => u.who = x.who) = some u → s.mergeWaits r x = false →
    ∃ t v : State, exec (.transferComplete h (i, ws)) s = .next t ∧
      t = (((v.stageDone x.run x.who).settleUnits x.run).advance x.run).wake ∧ v.hub.xfers.length + 1 = s.hub.xfers.length ∧
      (∀ y ∈ v.hub.runs, y.id = r.id → ∀ z ∈ y.units, z.who = x.who → ∀ g ∈ z.rings, g.slot = x.slot → g.out = false →
        ∀ c ∈ g.chunks, c.tile = x.tile → c.idx = x.idx → ∀ q ∈ x.brings, ∃ q' ∈ x.brings, q'.1 = q.1 ∧
          SMap.get none c.data q.1 = some q'.2) ∧
      v.sec = s.sec ∧ v.ports = s.ports ∧ v.hub.queues = s.hub.queues) ∧
  (∀ (s v : State) (h : HaulQueue) (i : Nat) (ws : List PortRequest) (x : Xfer) (r : Run) (u : RunUnit) (a o : Tensor),
    (s.queueXfers h)[i]? = some x → x.fail = none → x.phase = .landed → x.tags = [] → x.move.src.isSome = true → x.slot = 9 →
    s.run? x.run = some r → (r.units.find? fun u => u.who = x.who) = some u → r.moverTensors x.who = some (a, o) → s.oldRanges r x = [] →
    ((s.dropXfer h i).addFlags r (moverCodes r a o x []).2).writePuts r [] (moverCodes r a o x []).1 = (.ok [], v) →
    ∃ t, exec (.transferComplete h (i, ws)) s = .next t ∧ t.hub.xfers.length + 1 = s.hub.xfers.length ∧ t.mem = v.mem ∧
      t.ports = s.ports ∧ t.hub.queues = s.hub.queues) ∧
  (∀ (s v : State) (h : HaulQueue) (i : Nat) (ws : List PortRequest) (x : Xfer) (r : Run) (u : RunUnit) (bss : List (List Byte)),
    (s.queueXfers h)[i]? = some x → x.fail = none → x.phase = .ack → s.run? x.run = some r →
    (r.units.find? fun u => u.who = x.who) = some u → s.answers x.tags = (some (.ok bss), v) →
    ∃ t, exec (.transferComplete h (i, ws)) s = .next t ∧ t.hub.xfers.length + 1 = s.hub.xfers.length ∧ t.mem = s.mem ∧
      t.ports = s.ports ∧ t.hub.queues = s.hub.queues)

/- The sample pipeline. -/

/-- SP_START, SP_STOP and PRODUCER_BUFFER_TAKE (R264, R265, R288, R289): a start that R288 does not refuse begins a run at its epoch and
position with no batch in build; a stop with a batch in build waits for it, and with none stops at once; the sample pipeline, or a decoder
with a picture to post, takes the oldest FREE buffer where no request has waited longer, and else waits with its age; an image pipeline
takes nothing here. Where the spec leaves a point open the model chooses: log entry 40. -/
def Obligations.SampleRunsStartStopAndTakeBuffers : Prop :=
  (∀ (s : State) (r : Requester), Safety.Writes s r .spControl 0 0 0 1 → spStartCodes s = [] →
    ∃ t, exec (.spStart r) s = .next t ∧ Safety.Counted s t r ∧ t.sample.state = .running ∧
      t.sample.epoch = (s.reg .spEpoch).setWidth 32 ∧ t.sample.pos = s.regN .spStartPos ∧ t.sample.firstPos = s.regN .spStartPos ∧
      t.sample.segs = [] ∧ t.sample.buffer = none ∧ t.sample.closed = false ∧ t = { s with ports := t.ports, sample := t.sample }) ∧
  (∀ (s : State) (r : Requester), Safety.Writes s r .spControl 0 0 0 2 → s.sample.state ≠ .stopped →
    (s.sample.segs ≠ [] ∨ s.sample.closed = true) →
    ∃ t, exec (.spStop r) s = .next t ∧ Safety.Counted s t r ∧
      t.sample = { s.sample with stopAsked := true, state := if s.sample.state = .waiting then .waiting else .stopping } ∧
      t = { s with ports := t.ports, sample := t.sample }) ∧
  (∀ (s : State) (r : Requester), Safety.Writes s r .spControl 0 0 0 2 → s.sample.state ≠ .stopped → s.sample.segs = [] →
    s.sample.closed = false →
    ∃ t, exec (.spStop r) s = .next t ∧ Safety.Counted s t r ∧ t.sample.state = .stopped ∧ t.sample.stopReason = 1 ∧
      t.sample.buffer = none ∧ (s.sample.buffer = none → t.boughs = s.boughs) ∧
      t = { s with ports := t.ports, boughs := t.boughs, sample := t.sample }) ∧
  (∀ (s : State) (b : BoughId) (q : HqPos) (i : Nat) (rest : List Nat), s.sample.state ≠ .stopped → s.sample.buffer = none →
    s.spQueue = (b, q) → (s.hq b q).free = i :: rest → Safety.Oldest s .samplePipe b q →
    ∃ t, exec (.producerBufferTake .samplePipe b q) s = .next t ∧
      t.sample = { s.sample with buffer := some i, state := if s.sample.stopAsked then .stopping else .running } ∧
      t.hq b q = { s.hq b q with
        free := rest, filling := (s.hq b q).filling ++ [i], asks := (s.hq b q).asks.filter fun a => a.1 ≠ .samplePipe } ∧
      (∀ c p, (c, p) ≠ (b, q) → t.hq c p = s.hq c p) ∧ t = { s with boughs := t.boughs, sample := t.sample }) ∧
  (∀ (s : State) (b : BoughId) (q : HqPos), s.sample.state ≠ .stopped → s.sample.buffer = none → s.spQueue = (b, q) →
    ((s.hq b q).free = [] ∨ ¬ Safety.Oldest s .samplePipe b q) →
    ∃ t, exec (.producerBufferTake .samplePipe b q) s = .next t ∧ t.sample = { s.sample with state := .waiting } ∧
      t.hq b q = { s.hq b q with asks := (t.hq b q).asks } ∧ ((t.hq b q).asks.any fun a => a.1 = .samplePipe) = true ∧
      (((s.asking b q).any fun a => a.1 = .samplePipe) = false → (.samplePipe, s.hub.nextOrder) ∈ (t.hq b q).asks) ∧
      (∀ c p, (c, p) ≠ (b, q) → t.hq c p = s.hq c p) ∧ t = { s with boughs := t.boughs, sample := t.sample }) ∧
  (∀ (s : State) (r : DecRun) (i : Nat) (rest : List Nat), s.decoder.run = some r → r.pictures ≠ [] → r.buffer = none →
    (s.hq r.bough r.queue).free = i :: rest →
    Safety.Oldest s (if r.op = 2 then .jpegDecoder else .videoDecoder) r.bough r.queue →
    ∃ t, exec (.producerBufferTake (if r.op = 2 then .jpegDecoder else .videoDecoder) r.bough r.queue) s = .next t ∧
      t.decoder = { s.decoder with run := some { r with buffer := some i } } ∧
      t.hq r.bough r.queue = { s.hq r.bough r.queue with
        free := rest, filling := (s.hq r.bough r.queue).filling ++ [i],
        asks := (s.hq r.bough r.queue).asks.filter fun a => a.1 ≠ if r.op = 2 then .jpegDecoder else .videoDecoder } ∧
      t = { s with boughs := t.boughs, decoder := t.decoder }) ∧
  (∀ (s : State) (r : DecRun), s.decoder.run = some r → r.pictures ≠ [] → r.buffer = none →
    ((s.hq r.bough r.queue).free = [] ∨ ¬ Safety.Oldest s (if r.op = 2 then .jpegDecoder else .videoDecoder) r.bough r.queue) →
    ∃ t, exec (.producerBufferTake (if r.op = 2 then .jpegDecoder else .videoDecoder) r.bough r.queue) s = .next t ∧
      ((t.hq r.bough r.queue).asks.any fun a => a.1 = if r.op = 2 then .jpegDecoder else .videoDecoder) = true ∧
      t.hq r.bough r.queue = { s.hq r.bough r.queue with asks := (t.hq r.bough r.queue).asks } ∧ t = { s with boughs := t.boughs }) ∧
  (∀ (s : State) (b : BoughId) (q : HqPos),
    exec (.producerBufferTake .ipipe0 b q) s = .next s ∧ exec (.producerBufferTake .ipipe1 b q) s = .next s)

/-- PACK_SAMPLE (R279 to R282): the sample of the present position is read by its index entry; one longer than a row takes a place of no
slots, one whose text is corrupt or whose image cannot be decoded keeps its slots under a drop reason, and both are counted; a sound
sample takes its place with its tokens, and its image the next image slot; a sample that finds no place, or no image slot, closes the
batch and is not taken. BATCH_POST (R264, R283, R285, R290): a closed batch whose buffer takes its bytes is posted: its handle enters the
queue, the batch is counted, the next position is kept, and the run stops where a stop was asked for and else goes on to the next batch of
the epoch. Where the spec leaves a point open the model chooses: log entry 40. -/
def Obligations.SamplesArePackedAndPosted : Prop :=
  let index := fun (s : State) =>
    samplePi s.sample.pos (s.regN .spSampleCount) (s.regN .spSeed) s.sample.epoch.toNat
  let reads := fun (s u : State) (bs : List Byte) =>
    s.sample.state ≠ .stopped ∧ s.sample.closed = false ∧ s.sample.buffer.isSome = true ∧
    s.spRead (s.regN .spIndexBase + 16 * index s) 16 = (.ok bs, u)
  let taken := fun (s t : State) (g : SpSeg) =>
    t.sample = { s.sample with row := g.row, fill := g.start + g.span, segs := s.sample.segs ++ [g], pos := s.sample.pos + 1,
                               closed := s.sample.pos + 1 == s.regN .spSampleCount,
                               imagesTaken := if g.imageTaken then s.sample.imagesTaken + 1 else s.sample.imagesTaken }
  let placed := fun (s t : State) (g : SpSeg) =>
    taken s t g ∧ t.reg .spDropped = s.reg .spDropped + (if g.reason = 0 then 0 else 1) ∧
    Safety.KeepsRegs s t [Ob.key .spDropped 0 0 0] ∧
    t = { s with free := t.free, objs := t.objs, sample := t.sample }
  let image := fun (s : State) (e : SpEntry) => e.kind = 1 → s.sample.imagesTaken < s.spImgSlots
  (∀ (s u : State) (bs : List Byte) (row fill : Nat), reads s u bs → s.spRowLen < (spEntryOf bs).tokens → s.spPlace 0 = some (row, fill) →
    ∃ t, exec .packSample s = .next t ∧ placed s t ⟨row, fill, [], 0, none, false, 5, index s⟩) ∧
  (∀ (s u w : State) (bs rb : List Byte) (row fill : Nat), reads s u bs → (spEntryOf bs).kind = 0 → (spEntryOf bs).tokens ≤ s.spRowLen →
    s.spPlace (spEntryOf bs).tokens = some (row, fill) → s.spIndexBad (spEntryOf bs) = false →
    u.spRead (s.regN .spStoreBase + (spEntryOf bs).offset) (spEntryOf bs).length = (.ok rb, w) → (crc32c rb).toNat = (spEntryOf bs).crc →
    ∃ t, exec .packSample s = .next t ∧
      placed s t ⟨row, fill, (List.range (spEntryOf bs).tokens).map fun i => BitVec.ofNat 32 (leAt rb (4 * i) 4), (spEntryOf bs).tokens,
        none, false, 0, index s⟩) ∧
  (∀ (s u w x : State) (bs rb : List Byte) (row fill : Nat) (im : List (Nat × List Byte)), reads s u bs → (spEntryOf bs).kind = 1 →
    (spEntryOf bs).tokens ≤ s.spRowLen → s.sample.imagesTaken < s.spImgSlots →
    s.spPlace (spEntryOf bs).tokens = some (row, fill) → s.spIndexBad (spEntryOf bs) = false →
    u.spRead (s.regN .spStoreBase + (spEntryOf bs).offset) (spEntryOf bs).length = (.ok rb, w) → (crc32c rb).toNat = (spEntryOf bs).crc →
    s.spImage (rb.drop (4 * (spEntryOf bs).tokens)) = some im →
    w.mediaWrites (.codec s.spClaim) ((s.hq s.spQueue.1 s.spQueue.2).base + (s.sample.buffer.getD 0) * (s.hq s.spQueue.1 s.spQueue.2).stride +
      s.spImages + s.sample.imagesTaken * s.regN .spImgStride) im = (none, x) →
    ∃ t, exec .packSample s = .next t ∧
      taken s t ⟨row, fill, (List.range (spEntryOf bs).tokens).map fun i => BitVec.ofNat 32 (leAt rb (4 * i) 4), (spEntryOf bs).tokens,
        some s.sample.imagesTaken, true, 0, index s⟩ ∧ t = { x with sample := t.sample }) ∧
  (∀ (s u w : State) (bs rb : List Byte) (row fill : Nat), reads s u bs → (spEntryOf bs).tokens ≤ s.spRowLen → image s (spEntryOf bs) →
    s.spPlace (spEntryOf bs).tokens = some (row, fill) → s.spIndexBad (spEntryOf bs) = false →
    u.spRead (s.regN .spStoreBase + (spEntryOf bs).offset) (spEntryOf bs).length = (.ok rb, w) → (crc32c rb).toNat ≠ (spEntryOf bs).crc →
    ∃ t, exec .packSample s = .next t ∧
      placed s t ⟨row, fill, [], (spEntryOf bs).tokens, none, (spEntryOf bs).kind == 1, 1, index s⟩) ∧
  (∀ (s u w : State) (bs rb : List Byte) (row fill : Nat), reads s u bs → (spEntryOf bs).kind = 1 → (spEntryOf bs).tokens ≤ s.spRowLen →
    s.sample.imagesTaken < s.spImgSlots → s.spPlace (spEntryOf bs).tokens = some (row, fill) → s.spIndexBad (spEntryOf bs) = false →
    u.spRead (s.regN .spStoreBase + (spEntryOf bs).offset) (spEntryOf bs).length = (.ok rb, w) → (crc32c rb).toNat = (spEntryOf bs).crc →
    s.spImage (rb.drop (4 * (spEntryOf bs).tokens)) = none →
    ∃ t, exec .packSample s = .next t ∧ placed s t ⟨row, fill, [], (spEntryOf bs).tokens, none, true, 2, index s⟩) ∧
  (∀ (s u : State) (bs : List Byte) (row fill : Nat), reads s u bs → (spEntryOf bs).tokens ≤ s.spRowLen → image s (spEntryOf bs) →
    s.spPlace (spEntryOf bs).tokens = some (row, fill) → s.spIndexBad (spEntryOf bs) = true →
    ∃ t, exec .packSample s = .next t ∧
      placed s t ⟨row, fill, [], (spEntryOf bs).tokens, none, (spEntryOf bs).kind == 1, 3, index s⟩) ∧
  (∀ (s u : State) (bs : List Byte), reads s u bs → (spEntryOf bs).tokens ≤ s.spRowLen →
    ((spEntryOf bs).kind = 1 ∧ s.spImgSlots ≤ s.sample.imagesTaken ∨ s.spPlace (spEntryOf bs).tokens = none) →
    ∃ t, exec .packSample s = .next t ∧ t = { s with free := t.free, sample := { s.sample with closed := true } }) ∧
  (∀ (s w : State) (b : BoughId) (q : HqPos) (i : Nat), s.sample.buffer = some i → s.sample.closed = true → s.sample.state ≠ .stopped →
     s.spQueue = (b, q) → s.boughs[b].state.inReset = false →
     s.mediaWrites (.codec s.spClaim) ((s.hq b q).base + i * (s.hq b q).stride) s.spRowsOut = (none, w) →
     ∃ t u : State, exec .batchPost s = .next t ∧ t = u.wake.spPosted ∧ (u.hq b q).queued = (s.hq b q).queued ++ [handleWord 6 s.sample.batch i] ∧
       (u.hq b q).filling = (s.hq b q).filling.filter (· ≠ i) ∧ u.reg .hqPosts b.val q.val = s.reg .hqPosts b.val q.val + 1 ∧
       u = { w with boughs := u.boughs, objs := u.objs } ∧
       t.sample.batch = s.sample.batch + 1 ∧ t.sample.segs = [] ∧ t.sample.buffer = none ∧
       t.reg .spBatches = s.reg .spBatches + 1 ∧ t.reg .spNextPos = BitVec.ofNat 64 s.spNext ∧
       (s.sample.stopAsked = true → t.sample.state = .stopped ∧ t.sample.stopReason = 1) ∧
       (s.sample.stopAsked = false → s.sample.pos ≠ s.regN .spSampleCount → t.sample.state = s.sample.state ∧ t.sample.pos = s.sample.pos))

/- Cameras. -/

/-- Camera ports and packets (R296, R298 to R300): enabling a port that R300 does not refuse begins it anew; disabling it drops the frame
in progress, whose buffer is FREE again; a burst shows in csi_status, a skew calibration completes; a packet of another virtual channel or
data type, before the first frame start, or with a header that cannot be read is discarded and counted, a header corrected is counted and
marks its frame, and a long packet whose CRC fails drops the frame. Where the spec leaves a point open the model chooses: log entry 36. -/
def Obligations.CameraPortsAndPackets : Prop :=
  (∀ (s : State) (r : Requester) (p : CamId) (v : Word), Safety.Writes s r .csiConfig p.val 0 0 v → csiConfigCodes p.val v.toNat s = [] →
    s.camOn p.val = false → v.getLsbD 0 = true →
    ∃ t, exec (.csiEnable r p v) s = .next t ∧ Safety.Counted s t r ∧ t.reg .csiConfig p.val = v ∧
      Safety.KeepsRegs s t [Ob.key .csiConfig p.val 0 0] ∧
      t.cameras = upd s.cameras p (fun c => { c with started := false, fixedPending := false }) ∧
      t = { s with ports := t.ports, objs := t.objs, cameras := t.cameras }) ∧
  (∀ (s : State) (r : Requester) (p : CamId) (v : Word), Safety.Writes s r .csiConfig p.val 0 0 v → csiConfigCodes p.val v.toNat s = [] →
    s.camOn p.val = true → v.getLsbD 0 = false →
    ∃ t, exec (.csiDisable r p v) s = .next t ∧ Safety.Counted s t r ∧ t.reg .csiConfig p.val = v ∧ t.cameras[p].frame = none ∧
      (∀ o, o ≠ p → t.cameras[o] = s.cameras[o]) ∧
      t.reg .csiFramesDropped p.val = s.reg .csiFramesDropped p.val + (if (s.cameras[p].frame).isSome then 1 else 0) ∧
      Safety.KeepsRegs s t [Ob.key .csiConfig p.val 0 0, Ob.key .csiFramesDropped p.val 0 0] ∧
      (∀ f, s.cameras[p].frame = some f →
        (s.hq (s.camQueue p.val).1 (s.camQueue p.val).2).filling.contains f.buffer = true →
        (t.hq (s.camQueue p.val).1 (s.camQueue p.val).2).free =
          (s.hq (s.camQueue p.val).1 (s.camQueue p.val).2).free ++ [f.buffer]) ∧
      t = { s with ports := t.ports, objs := t.objs, cameras := t.cameras, boughs := t.boughs, pipes := t.pipes }) ∧
  (∀ (s : State) (p : CamId) (on : Bool), p.val < camerasOf s.grade →
    exec (.hsBurst p on) s = .next { s with cameras := upd s.cameras p fun c => { c with hsActive := on } }) ∧
  (∀ (s : State) (p : CamId), p.val < camerasOf s.grade →
    exec (.skewCalibration p) s = .next { s with cameras := upd s.cameras p fun c => { c with deskewDone := true } }) ∧
  (∀ (s : State) (p : CamId) (k : CsiPacket), s.camOn p.val = true → k.headerErrors = 0 → k.vc.toNat ≠ s.csi p.val 55 52 →
    exec (.csiPacket p k) s = .next (s.bump .csiPacketsDiscarded p.val)) ∧
  (∀ (s : State) (p : CamId) (k : CsiPacket), s.camOn p.val = true → k.headerErrors = 0 → k.vc.toNat = s.csi p.val 55 52 → 4 ≤ k.dt.toNat →
    (k.dt.toNat ≠ s.csi p.val 51 46 ∨ s.cameras[p].started = false) →
    exec (.csiPacket p k) s = .next (s.bump .csiPacketsDiscarded p.val)) ∧
  (∀ (s : State) (p : CamId) (k : CsiPacket), s.camOn p.val = true → 2 ≤ k.headerErrors →
    ∃ t, exec (.csiPacket p k) s = .next t ∧ t.reg .csiPacketsDiscarded p.val = s.reg .csiPacketsDiscarded p.val + 1 ∧
      Safety.KeepsRegs s t [Ob.key .csiPacketsDiscarded p.val 0 0, Ob.key .csiFramesDropped p.val 0 0] ∧
      (t.cameras = s.cameras ∨ t.cameras[p].frame = none) ∧
      t = { s with free := t.free, objs := t.objs, cameras := t.cameras, boughs := t.boughs, pipes := t.pipes }) ∧
  (∀ (s : State) (p : CamId) (k : CsiPacket), s.camOn p.val = false → exec (.csiPacket p k) s = .next s) ∧
  (∀ (s : State) (p : CamId) (k : CsiPacket), s.camOn p.val = true → k.headerErrors = 0 → k.vc.toNat = s.csi p.val 55 52 →
    (shortDt k.dt.toNat = true ∨ k.dt.toNat = s.csi p.val 51 46 ∧ s.cameras[p].started = true ∧ k.crcOk = true) →
    exec (.csiPacket p k) s = .next s) ∧
  (∀ (s : State) (p : CamId) (k : CsiPacket), s.camOn p.val = true → k.headerErrors = 1 → k.vc.toNat = s.csi p.val 55 52 → k.dt = 0 →
    ∃ t, exec (.csiPacket p k) s = .next t ∧ t.reg .csiEccCorrected p.val = s.reg .csiEccCorrected p.val + 1 ∧
      t.cameras = upd s.cameras p (fun c => { c with fixedPending := true }) ∧
      Safety.KeepsRegs s t [Ob.key .csiEccCorrected p.val 0 0] ∧ t = { s with objs := t.objs, cameras := t.cameras }) ∧
  (∀ (s : State) (p : CamId) (k : CsiPacket), s.camOn p.val = true → k.headerErrors = 1 → k.vc.toNat = s.csi p.val 55 52 → k.dt ≠ 0 →
    (shortDt k.dt.toNat = true ∨ k.dt.toNat = s.csi p.val 51 46 ∧ s.cameras[p].started = true ∧ k.crcOk = true) →
    ∃ t, exec (.csiPacket p k) s = .next t ∧ t.reg .csiEccCorrected p.val = s.reg .csiEccCorrected p.val + 1 ∧
      t.cameras = upd s.cameras p (fun c => { c with frame := c.frame.map fun f => { f with eccFixed := true } }) ∧
      Safety.KeepsRegs s t [Ob.key .csiEccCorrected p.val 0 0] ∧ t = { s with objs := t.objs, cameras := t.cameras }) ∧
  (∀ (s : State) (p : CamId) (k : CsiPacket) (f : Frame), s.camOn p.val = true → k.headerErrors = 0 → k.vc.toNat = s.csi p.val 55 52 →
    4 ≤ k.dt.toNat → k.dt.toNat = s.csi p.val 51 46 → s.cameras[p].started = true → k.crcOk = false → s.cameras[p].frame = some f →
    ∃ t, exec (.csiPacket p k) s = .next t ∧ t.cameras[p].frame = none ∧
      t.reg .csiFramesDropped p.val = s.reg .csiFramesDropped p.val + 1 ∧ Safety.KeepsRegs s t [Ob.key .csiFramesDropped p.val 0 0] ∧
      t = { s with objs := t.objs, cameras := t.cameras, boughs := t.boughs, pipes := t.pipes })

/-- Frames (R299, R302, R303, R308 to R310, R318): a frame start drops a frame in progress, takes the oldest FREE buffer of a queue that
no waiting request is to have, and the parameter record, or is counted in hq_drops; a line of the right length enters the line store, or
overruns it where that is full, and one of another length drops the frame; the pipeline takes its oldest line in order, and with the last
the levels stand in the buffer; a frame whose lines are all processed is posted under its handle, its logging copy waiting to be coded,
and one with another number of lines is dropped. Where the spec leaves a point open the model chooses: log entries 23, 36 and 58. -/
def Obligations.FramesPassThePipeline : Prop :=
  let drops := fun (s t : State) (p : CamId) =>
    t.cameras[p].frame = none ∧ t.reg .csiFramesDropped p.val = s.reg .csiFramesDropped p.val + 1 ∧
    t = { s with objs := t.objs, cameras := t.cameras, boughs := t.boughs, pipes := t.pipes }
  (∀ (s u : State) (p : CamId) (b : BoughId) (q : HqPos) (i : Nat) (rest : List Nat) (bs : List Byte), s.camOn p.val = true →
    s.cameras[p].frame = none → s.camQueue p.val = (b, q) → s.boughs[b].state.inReset = false → s.boughs[b].state ≠ .down →
    (s.asking b q).length + (s.reserving b q).length < (s.hq b q).free.length → (s.hq b q).free = i :: rest →
    s.readMem (.media 0) (s.regN .ipipeParamAddr p.val) 640 = (.ok bs, u) →
    ∃ t, exec (.frameStart p) s = .next t ∧
      t.cameras = upd s.cameras p (fun c => { c with started := true, fixedPending := false, frame := t.cameras[p].frame }) ∧
      t.cameras[p].frame = some ⟨s.now, (s.reg .csiFrames p.val + 1).setWidth 32, i, bs, s.cameras[p].fixedPending, [], [],
        (s.logSlotFor p).1⟩ ∧
      t.reg .csiFrames p.val = s.reg .csiFrames p.val + 1 ∧ t.reg .encSkipped p.val = (s.logSlotFor p).2.reg .encSkipped p.val ∧
      Safety.KeepsRegs s t [Ob.key .csiFrames p.val 0 0, Ob.key .encSkipped p.val 0 0] ∧
      t.hq b q = { s.hq b q with free := rest, filling := (s.hq b q).filling ++ [i] } ∧
      t = { s with free := t.free, objs := t.objs, cameras := t.cameras, boughs := t.boughs }) ∧
  (∀ (s : State) (p : CamId) (b : BoughId) (q : HqPos), s.camOn p.val = true → s.cameras[p].frame = none → s.camQueue p.val = (b, q) →
    (s.boughs[b].state.inReset = true ∨ s.boughs[b].state = .down ∨
      (s.hq b q).free.length ≤ (s.asking b q).length + (s.reserving b q).length) →
    ∃ t, exec (.frameStart p) s = .next t ∧ t.cameras[p].frame = none ∧ t.reg .hqDrops b.val q.val = s.reg .hqDrops b.val q.val + 1 ∧
      t.reg .csiFrames p.val = s.reg .csiFrames p.val + 1 ∧ t = { s with objs := t.objs, cameras := t.cameras }) ∧
  (∀ (s : State) (p : CamId), s.camOn p.val = true → (s.cameras[p].frame).isSome = true →
    exec (.frameStart p) s = exec (.frameStart p) (s.dropFrame p) ∧ drops s (s.dropFrame p) p) ∧
  (∀ (s : State) (p : CamId) (f : Frame) (px : List (BitVec 16)), s.cameras[p].frame = some f → s.camOn p.val = true →
    px.length = s.csi p.val 45 32 * codesPerPixel (s.csi p.val 51 46) →
    f.stored.length < (Config.lineStoreLines (s.csi p.val 51 46)).val + 1 →
    ∃ t, exec (.csiLine p px) s = .next t ∧ t.cameras[p].frame = some { f with stored := f.stored ++ [px] } ∧
      t.pipes[(s.pipeOf p.val)].order = s.pipes[(s.pipeOf p.val)].order ++ [p] ∧
      t = { s with cameras := t.cameras, pipes := t.pipes }) ∧
  (∀ (s : State) (p : CamId) (f : Frame) (px : List (BitVec 16)), s.cameras[p].frame = some f → s.camOn p.val = true →
    px.length = s.csi p.val 45 32 * codesPerPixel (s.csi p.val 51 46) →
    (Config.lineStoreLines (s.csi p.val 51 46)).val + 1 ≤ f.stored.length →
    ∃ t, exec (.csiLine p px) s = .next t ∧ drops s t p ∧
      t.reg .ipipeOverruns (s.pipeOf p.val).val = s.reg .ipipeOverruns (s.pipeOf p.val).val + 1) ∧
  (∀ (s : State) (p : CamId) (f : Frame) (px : List (BitVec 16)), s.cameras[p].frame = some f → s.camOn p.val = true →
    px.length ≠ s.csi p.val 45 32 * codesPerPixel (s.csi p.val 51 46) →
    ∃ t, exec (.csiLine p px) s = .next t ∧ drops s t p ∧ Safety.KeepsRegs s t [Ob.key .csiFramesDropped p.val 0 0]) ∧
  (∀ (s : State) (q : Fin 2) (p : CamId) (rest : List CamId) (f : Frame) (l : List (BitVec 16)) (more : List (List (BitVec 16))) (n : Nat),
    s.pipes[q].order = p :: rest → s.cameras[p].frame = some f → f.stored = l :: more →
    (n = if (s.frameBase p f).1 < 2 ^ 37 then s.lineBytes p f.lines.length else 0) →
    (s.pipes[q].fill + n ≤ 131072 → f.lines.length + 1 ≠ s.csi p.val 31 18 →
      ∃ t, exec (.ipipeLine q) s = .next t ∧ t.cameras[p].frame = some { f with stored := more, lines := f.lines ++ [l] } ∧
        t.pipes[q].order = rest ∧ t.pipes[q].fill = s.pipes[q].fill + n ∧ Safety.KeepsRegs s t [Ob.key .ipipePanicEvents q.val 0 0] ∧
        t = { s with objs := t.objs, cameras := t.cameras, pipes := t.pipes }) ∧
    (∀ w, s.pipes[q].fill + n ≤ 131072 → f.lines.length + 1 = s.csi p.val 31 18 →
      s.mediaWrites (.media (s.frameBase p f).2) (s.frameBase p f).1
        (s.frameRows p { f with stored := more, lines := f.lines ++ [l] }) = (none, w) →
      ∃ t, exec (.ipipeLine q) s = .next t ∧ t.cameras[p].frame = some { f with stored := more, lines := f.lines ++ [l] } ∧
        t.pipes[q].order = rest ∧ t.pipes[q].fill = s.pipes[q].fill + n ∧ t.mem = w.mem ∧ t.hub = s.hub ∧ t.ports = s.ports) ∧
    (131072 < s.pipes[q].fill + n →
      ∃ t, exec (.ipipeLine q) s = .next t ∧ drops s t p ∧
        t.reg .ipipeOverruns (s.pipeOf p.val).val = s.reg .ipipeOverruns (s.pipeOf p.val).val + 1)) ∧
  (∀ (s w : State) (p : CamId) (f : Frame) (b : BoughId) (q : HqPos), s.cameras[p].frame = some f → s.camOn p.val = true → f.stored = [] →
    f.lines.length = s.csi p.val 31 18 → s.pipes[(s.pipeOf p.val)].order.contains p = false →
    s.camQueue p.val = (b, q) → s.boughs[b].state.inReset = false →
    (s.writeCopy p f).mediaWrites (.media (s.frameBase p f).2) (s.frameBase p f).1
      [(0, frameHeader f.fsTime s.now f.count p.val f.eccFixed (s.csi p.val 45 32)
      (s.csi p.val 31 18) (s.ipc p.val 17 15 + 1) (s.ipc p.val 20 18))] = (none, w) →
    ∃ t u : State, exec (.frameEnd p) s = .next t ∧ t = u.wake ∧ u.cameras[p].frame = none ∧
      (u.hq b q).queued = (s.hq b q).queued ++
        [handleWord (2 + (s.pipeOf p.val).val) (p.val * 2 ^ 24 + f.count.toNat % 2 ^ 24) f.buffer] ∧
      (u.hq b q).filling = (s.hq b q).filling.filter (· ≠ f.buffer) ∧ u.reg .hqPosts b.val q.val = s.reg .hqPosts b.val q.val + 1 ∧
      u = { w with cameras := u.cameras, boughs := u.boughs, objs := u.objs } ∧
      (f.logSlot = none → u.encoders = s.encoders ∧ s.writeCopy p f = s) ∧
      (∀ i v, f.logSlot = some i → (s.reg .encConfig p.val).getLsbD 0 = true →
        s.mediaWrites (.media (Fin.ofNat 16 (bits (s.reg .encConfig p.val) 27 24)))
          (bits (s.reg .encPicRing p.val) 47 0 + i * s.encoders[p].slotSize)
          (levelRows (if bits (s.reg .encConfig p.val) 29 28 = 1 then 2 else 1) (s.frameIn p f).w (s.frameIn p f).h
            ((s.frameIn p f).level0 (if bits (s.reg .encConfig p.val) 29 28 = 1 then 2 else 1))) = (none, v) →
        u.encoders = upd s.encoders p fun e => { e with waiting := e.waiting ++ [⟨i, f.fsTime, f.count, s.now⟩] })) ∧
  (∀ (s : State) (p : CamId) (f : Frame), s.cameras[p].frame = some f → s.camOn p.val = true →
    f.lines.length + f.stored.length ≠ s.csi p.val 31 18 →
    ∃ t, exec (.frameEnd p) s = .next t ∧ drops s t p ∧ Safety.KeepsRegs s t [Ob.key .csiFramesDropped p.val 0 0])

/-- Camera control and frame sync (R313 to R316): a transfer's parameters written whole start it, BUSY; its end keeps DONE or FAILED, the
CODE, the count and the bytes read; a stretch that lasts too long ends it with CODE 3. At a boundary an output takes the values written
before it and begins its pulse, which ends after its width. Where the spec leaves a point open the model chooses: log entries 37 and 58.
-/
def Obligations.CameraControlAndFrameSync : Prop :=
  (∀ (s : State) (r : Requester) (i : Fin 8) (data : List Byte), s.serves r = true → data.length = 36 →
    Safety.Commits (s.updBlk r fun b => b.put 0 data) r ⟨BitVec.ofNat 16 (Ob.i2cXfer.index i.val 0), BitVec.ofNat 8 (Ob.i2cXfer.subindex 0), 0, 0,
      36, none⟩ ⟨⟨.i2cXfer, i.val, 0, 0⟩, none⟩ true →
    ∃ t, exec (.i2cXfer r i data) s = .next t ∧ t.i2c = upd s.i2c i (fun _ => { state := .busy, xfer := data, began := s.now }) ∧
      (t.port r).blk.state = .ready ∧ (t.port r).done = (s.port r).done + 1 ∧ (∀ q, reqNum q ≠ reqNum r → t.port q = s.port q) ∧
      t = { s with ports := t.ports, i2c := t.i2c }) ∧
  (∀ (s : State) (i : Fin 8) (code : I2cCode) (count : Byte) (data : List Byte), s.i2c[i].state = .busy →
    (s.i2c[i]).endsAt code count.toNat = true →
    exec (.i2cDone i code count data) s = .next { s with i2c := upd s.i2c i fun x =>
      { x with state := if code = .ok then .done else .failed,
               code := if code = .ok then 0 else if code = .nackAddr then 1 else if code = .nackData then 2 else 4,
               count := count, data := slice ((data.take (count.toNat - (x.xfer.getD 1 0).toNat)).take 32) 0 32 } }) ∧
  (∀ (s : State) (i : Fin 8) (count : Byte), s.i2c[i].state = .busy → 25000000 ≤ (s.now - s.i2c[i].began).toNat →
    count.toNat ≤ (s.i2c[i].xfer.getD 1 0).toNat + (s.i2c[i].xfer.getD 2 0).toNat →
    ∃ t, exec (.stretchTimeout i count) s = .next t ∧ t.i2c[i].state = .failed ∧ t.i2c[i].code = 3 ∧ t.i2c[i].count = count ∧
      t.i2c[i].xfer = s.i2c[i].xfer ∧ t.i2c[i].data.length = 32 ∧ (∀ j, j ≠ i → t.i2c[j] = s.i2c[j]) ∧
      t = { s with free := t.free, i2c := t.i2c }) ∧
  (∀ (s : State) (f : Fin 16), s.fsync[f].boundary s.now = true → s.fsync[f].writes = [] → s.fsync[f].since ≠ s.now →
    exec (.fsyncEdge f) s = .next { s with fsync := upd s.fsync f fun x =>
      { x with level := true, pulseEnd := some (s.now + BitVec.ofNat 64 x.width) } }) ∧
  (∀ (s : State) (f : Fin 16) (w : FsWrite), s.fsync[f].boundary s.now = true →
    (s.fsync[f].writes.filter fun w => w.time ≠ s.now).getLast? = some w →
    (w.period ≠ 0 ∨ (s.fsync[f].writes.filter fun w => w.time = s.now) = []) →
    ∃ t, exec (.fsyncEdge f) s = .next t ∧ t.fsync[f].period = w.period ∧ t.fsync[f].phase = w.phase ∧ t.fsync[f].width = w.width ∧
      t.fsync[f].epoch = w.epoch ∧ t.fsync[f].writes = (s.fsync[f].writes.filter fun w => w.time = s.now) ∧
      (if w.period ≠ 0 ∧ ((s.now.toNat : Int) - w.epoch - w.phase) % (w.period : Int) = 0 then
        t.fsync[f].level = true ∧ t.fsync[f].pulseEnd = some (s.now + BitVec.ofNat 64 w.width)
      else t.fsync[f].level = s.fsync[f].level ∧ t.fsync[f].pulseEnd = s.fsync[f].pulseEnd) ∧
      (∀ g, g ≠ f → t.fsync[g] = s.fsync[g]) ∧ t = { s with fsync := t.fsync }) ∧
  (∀ (s : State) (f : Fin 16) (w v : FsWrite), s.fsync[f].boundary s.now = true →
    (s.fsync[f].writes.filter fun w => w.time ≠ s.now).getLast? = some w → w.period = 0 →
    (s.fsync[f].writes.filter fun w => w.time = s.now).getLast? = some v →
    ∃ t, exec (.fsyncEdge f) s = .next t ∧ t.fsync[f].period = v.period ∧ t.fsync[f].phase = v.phase ∧ t.fsync[f].width = v.width ∧
      t.fsync[f].epoch = v.epoch ∧ t.fsync[f].writes = [] ∧ (∀ g, g ≠ f → t.fsync[g] = s.fsync[g]) ∧ t = { s with fsync := t.fsync }) ∧
  (∀ (s : State) (f : Fin 16), s.fsync[f].boundary s.now = false → exec (.fsyncEdge f) s = .next s) ∧
  (∀ (s : State) (f : Fin 16) (e : BitVec 64), s.fsync[f].pulseEnd = some e → e.toNat ≤ s.now.toNat →
    exec (.fsyncPulseEnd f) s = .next { s with fsync := upd s.fsync f fun x => { x with level := false, pulseEnd := none } })

/- Codecs. -/

/-- The encoder (R318, R319, R322): a stream that R319 lets begin starts with no picture coded; one disabled codes no copy that waits; the
oldest picture of all gives an access unit whose record, a multiple of 64 bytes, enters the ring where it fits and is else discarded whole
and counted, the next picture then being IDR; enc_bs_read takes a count between itself and enc_bs_write. Where the spec leaves a point
open the model chooses: log entries 24 and 38. -/
def Obligations.EncoderStreamsCodePictures : Prop :=
  let oldest := fun (s : State) (i : Fin 16) (c : LogCopy) (rest : List LogCopy) =>
    s.encoders[i].waiting = c :: rest ∧ (s.reg .encConfig i.val).getLsbD 0 = true ∧ s.ready rEncoder = true ∧
    ∀ j : Fin 16, ∀ d ∈ s.encoders[j].waiting, c.arrived.toNat ≤ d.arrived.toNat
  let claim := fun (s : State) (i : Fin 16) => (Fin.ofNat 16 (bits (s.reg .encConfig i.val) 27 24) : ClaimId)
  let pic := fun (s : State) (i : Fin 16) (n : Nat) => bits (s.reg .encPicRing i.val) 47 0 + n * s.encoders[i].slotSize
  let idr := fun (s : State) (i : Fin 16) => s.encoders[i].forceIdr || bits (s.reg .encConfig i.val) 47 38 + 1 ≤ s.encoders[i].sinceIdr
  (∀ (s : State) (r : Requester) (i : Fin 16) (v : Word), Safety.Writes s r .encConfig i.val 0 0 v → encConfigCodes i.val v.toNat s = [] →
    (s.reg .encConfig i.val).getLsbD 0 = false → v.getLsbD 0 = true →
    ∃ t, exec (.encEnable r i v) s = .next t ∧ Safety.Counted s t r ∧ t.reg .encConfig i.val = v ∧
      Safety.KeepsRegs s t [Ob.key .encConfig i.val 0 0] ∧ t.encoders[i].waiting = [] ∧ t.encoders[i].forceIdr = true ∧
      t.encoders[i].width = s.csi i.val 45 32 ∧ t.encoders[i].height = s.csi i.val 31 18 ∧
      (∀ j, j ≠ i → t.encoders[j] = s.encoders[j]) ∧ t = { s with ports := t.ports, objs := t.objs, encoders := t.encoders }) ∧
  (∀ (s : State) (r : Requester) (i : Fin 16) (v : Word), Safety.Writes s r .encConfig i.val 0 0 v → encConfigCodes i.val v.toNat s = [] →
    (s.reg .encConfig i.val).getLsbD 0 = true → v.getLsbD 0 = false →
    ∃ t, exec (.encDisable r i v) s = .next t ∧ Safety.Counted s t r ∧ t.reg .encConfig i.val = v ∧
      Safety.KeepsRegs s t [Ob.key .encConfig i.val 0 0] ∧ t.encoders = upd s.encoders i (fun e => { e with waiting := [] }) ∧
      t = { s with ports := t.ports, objs := t.objs, encoders := t.encoders }) ∧
  (∀ (s u v w x y : State) (i : Fin 16) (c : LogCopy) (rest : List LogCopy) (bs bytes recon : List Byte), oldest s i c rest →
    s.readMem (.codec (claim s i)) (pic s i c.slot) s.encoders[i].slotSize = (.ok bs, u) →
    ({ u with free := u.free + 1 } : State).auRecord c (idr s i) (Config.accessUnit u.free (idr s i)) = (bytes, v) →
    v.drawBytes s.encoders[i].slotSize = (recon, w) →
    w.mediaWrites (.codec (claim s i)) (pic s i (4 + s.encoders[i].coded % 2)) [(0, recon)] = (none, x) →
    s.regN .encBsWrite i.val - s.regN .encBsRead i.val + bytes.length ≤ s.regN .encBsSize i.val →
    x.ringWrite (claim s i) (s.regN .encBsBase i.val) (s.regN .encBsSize i.val) (s.regN .encBsWrite i.val) bytes = (none, y) →
    ∃ t, exec (.encAccessUnit i) s = .next t ∧ t.encoders[i].waiting = rest ∧ t.encoders[i].forceIdr = false ∧
      t.encoders[i].coded = s.encoders[i].coded + 1 ∧
      t.encoders[i].sinceIdr = (if idr s i then 1 else s.encoders[i].sinceIdr + 1) ∧
      t.reg .encBsWrite i.val = BitVec.ofNat 64 (s.regN .encBsWrite i.val + bytes.length) ∧ bytes.length % 64 = 0 ∧ t.mem = y.mem ∧
      (∀ j, j ≠ i → t.encoders[j] = s.encoders[j]) ∧ t.hub = s.hub ∧ t.ports = s.ports) ∧
  (∀ (s u v : State) (i : Fin 16) (c : LogCopy) (rest : List LogCopy) (bs bytes : List Byte), oldest s i c rest →
    s.readMem (.codec (claim s i)) (pic s i c.slot) s.encoders[i].slotSize = (.ok bs, u) →
    ({ u with free := u.free + 1 } : State).auRecord c (idr s i) (Config.accessUnit u.free (idr s i)) = (bytes, v) →
    s.regN .encBsSize i.val < s.regN .encBsWrite i.val - s.regN .encBsRead i.val + bytes.length →
    ∃ t, exec (.encAccessUnit i) s = .next t ∧ t.encoders[i].waiting = rest ∧ t.encoders[i].forceIdr = true ∧
      t.reg .encDiscarded i.val = s.reg .encDiscarded i.val + 1 ∧ t.reg .encBsWrite i.val = s.reg .encBsWrite i.val ∧
      (∀ j, j ≠ i → t.encoders[j] = s.encoders[j]) ∧ t.hub = s.hub ∧ t.ports = s.ports) ∧
  (∀ (s : State) (r : Requester) (i : Fin 16) (v : Word), Safety.Writes s r .encBsRead i.val 0 0 v →
    s.regN .encBsRead i.val ≤ v.toNat → v.toNat ≤ s.regN .encBsWrite i.val →
    ∃ t, exec (.encBsReadWrite r i v) s = .next t ∧ Safety.Counted s t r ∧ t.reg .encBsRead i.val = v ∧
      Safety.KeepsRegs s t [Ob.key .encBsRead i.val 0 0] ∧ t = { s with ports := t.ports, objs := t.objs })

/-- The decoders (R320, R321): dec_tail takes a value that the ring has room for; the command at dec_head is read with its bitstream and
taken with the pictures it is to post, or, without one, ends at once and dec_head advances; a picture whose buffer takes its bytes is
posted with its stream's next number, and the command ends with its last picture. Where the spec leaves a point open the model chooses:
log entries 24 and 39. -/
def Obligations.DecoderCommandsPostPictures : Prop :=
  let commands := fun (s : State) (bs : List Byte) (u : State) => s.decoder.run = none ∧ s.reg .decHead ≠ s.reg .decTail ∧
    s.ready rDecoder = true ∧ s.readMem (.codec s.decClaim) (s.regN .decRingBase + s.regN .decHead * 64) 64 = (.ok bs, u) ∧
    nbits (leNat bs) 97 96 ≠ 3
  let op := fun (bs : List Byte) => nbits (leNat bs) 97 96
  let st := fun (bs : List Byte) => (Fin.ofNat 16 (nbits (leNat bs) 107 104) : Fin 16)
  let b := fun (bs : List Byte) => (Fin.ofNat 4 (nbits (leNat bs) 121 120) : BoughId)
  let q := fun (bs : List Byte) => (Fin.ofNat 32 (nbits (leNat bs) 116 112) : HqPos)
  (∀ (s : State) (r : Requester) (v : Word), Safety.Writes s r .decTail 0 0 0 v → decCodes .decTail v.toNat s = [] →
    ∃ t, exec (.decTailWrite r v) s = .next t ∧ Safety.Counted s t r ∧ t.reg .decTail = v ∧
      Safety.KeepsRegs s t [Ob.key .decTail 0 0 0] ∧ t = { s with ports := t.ports, objs := t.objs }) ∧
  (∀ s : State, s.decoder.run = none → s.reg .decHead ≠ s.reg .decTail → s.ready rDecoder = true →
    ∃ t, exec .decCommand s = .next t ∧ t.hub = s.hub ∧ t.boughs = s.boughs ∧ t.ports = s.ports ∧ t.reg .decTail = s.reg .decTail ∧
      ((t.decoder.run.isSome = true ∧ t.reg .decHead = s.reg .decHead) ∨
       (t.decoder.run = none ∧ t.regN .decHead = (s.regN .decHead + 1) % max 1 s.decCount))) ∧
  (∀ (s u v w x : State) (bs bits area : List Byte) (found : List (Nat × Nat × Nat × Nat × List Byte)) (err big : Option Nat)
      (pics : List Picture), commands s bs u → u.readMem (.codec s.decClaim) (nbits (leNat bs) 47 0) (nbits (leNat bs) 95 64) = (.ok bits, v) →
    Config.decoded (op bs) (if op bs = 2 || (leNat bs).testBit 128 then 0 else s.decoder.history[(st bs)])
      (op bs ≠ 2 && s.decoder.skipping[(st bs)]) ((leNat bs).testBit 129) bits = (found, err) →
    s.acceptPics (op bs) (s.hq (b bs) (q bs)).stride (s.regN .decWorkSize (st bs).val) 0 found = (pics, big) → pics ≠ [] →
    (if op bs ≠ 2 then v.drawBytes (s.regN .decWorkSize (st bs).val) else ([], v)) = (area, w) →
    (if area = [] then (none, w) else w.mediaWrites (.codec s.decClaim) (s.regN .decWorkBase (st bs).val) [(0, area)]) = (none, x) →
    ∃ t r, exec .decCommand s = .next t ∧ t.decoder.run = some r ∧ r.op = op bs ∧ r.stream = (st bs).val ∧ r.bough = b bs ∧ r.queue = q bs ∧
      r.addr = s.regN .decRingBase + s.regN .decHead * 64 ∧ r.pictures = pics ∧ r.buffer = none ∧ r.posted = 0 ∧
      r.status = (if big.isSome || (Config.unsupported (op bs) bits).isSome || err.isSome then stData else stDone) ∧
      t.reg .decHead = s.reg .decHead ∧ t.mem = x.mem ∧ t.decoder.pictures = s.decoder.pictures) ∧
  (∀ (s u v : State) (bs bits : List Byte) (found : List (Nat × Nat × Nat × Nat × List Byte)) (err big : Option Nat), commands s bs u →
    u.readMem (.codec s.decClaim) (nbits (leNat bs) 47 0) (nbits (leNat bs) 95 64) = (.ok bits, v) →
    Config.decoded (op bs) (if op bs = 2 || (leNat bs).testBit 128 then 0 else s.decoder.history[(st bs)])
      (op bs ≠ 2 && s.decoder.skipping[(st bs)]) ((leNat bs).testBit 129) bits = (found, err) →
    s.acceptPics (op bs) (s.hq (b bs) (q bs)).stride (s.regN .decWorkSize (st bs).val) 0 found = ([], big) →
    ∃ t, exec .decCommand s = .next t ∧ t.decoder.run = none ∧ t.regN .decHead = (s.regN .decHead + 1) % max 1 s.decCount) ∧
  (∀ (s w : State) (r : DecRun) (p : Picture) (rest : List Picture) (i : Nat), s.decoder.run = some r → r.pictures = p :: rest →
    r.buffer = some i → s.boughs[r.bough].state.inReset = false →
    s.mediaWrites (.codec s.decClaim) ((s.hq r.bough r.queue).base + i * (s.hq r.bough r.queue).stride)
      (p.rows ++ [(0, frameHeader 0 0 ((s.decoder.pictures[(Fin.ofNat 16 r.stream)]).setWidth 32) 0 false p.width p.height 1 p.fmt)]) =
      (none, w) →
    ∃ t u : State, exec .decPicturePost s = .next t ∧
      (u.hq r.bough r.queue).queued = (s.hq r.bough r.queue).queued ++
        [handleWord (if r.op = 2 then 5 else 4) (s.decoder.pictures[(Fin.ofNat 16 r.stream)]).toNat i] ∧
      u.decoder = { s.decoder with pictures := upd s.decoder.pictures (Fin.ofNat 16 r.stream) fun c => c + 1 } ∧
      u = { w with decoder := u.decoder, boughs := u.boughs, objs := u.objs } ∧
      (let r' := { r with pictures := rest, buffer := none, posted := r.posted + 1 }
       if rest = [] then t = u.wake.decEnds r' ∧ t.decoder.run = none else t = u.wake.updDec fun d => { d with run := some r' }))

/- The seams. -/

/-- A seam's requests and commands (R326 to R330, R333, R334, R341 to R343, R351): a request that the checks refuse is answered so; a
write of an idle front is visible and acknowledged at once, a read holds the bytes as they stand, and each joins its bank's queue, or
waits at the front while that is full; on a cycle at most one command goes to the dies, an ACT only to a closed bank whose tRC and tRP
have passed and a column command only to an open row after tRCD; read data answer the oldest read issued, with a corrected error as
without, and turn a merge into its write. Where the spec leaves a point open the model chooses: log entries 44, 50 and 58. -/
def Obligations.SeamsServeRequests : Prop :=
  let bank := fun (s : State) (sm : SeamId) (m : MemRequest) => (s.seam sm).banks[(bankOfBurst (burstOf m.addr))]
  let idle := fun (s : State) (sm : SeamId) (m : MemRequest) => fitsSeam sm m = true ∧ s.checkDram m.who (kindAct m.kind) m.addr = none ∧
    (s.seam sm).front = [] ∧ (s.seam sm).backs = []
  let arrives := fun (s : State) (sm : SeamId) (r : SeamReq) (rest : List SeamReq) =>
    (s.seam sm).inflight = r :: rest ∧ r.merge = false ∧ r.scrub = false ∧ r.poisoned = false
  let ready := fun (s : State) (sm : SeamId) =>
    (((s.enterBacks sm).updSeam sm fun q => { q with banks := q.banks.map fun b => b.compare s.cycle (s.regN .sweepDebtLimit) }).updSeam sm
      fun q => { q with busWrites := q.steer }).scrubWrap sm
  (∀ (s : State) (sm : SeamId) (m : MemRequest) (f : MemFail), fitsSeam sm m = true → s.checkDram m.who (kindAct m.kind) m.addr = some f →
    ∃ t u : State, exec (.seamRequest sm [m]) s = .next t ∧ t = (u.enterBacks sm).frontDecide sm ∧ u = s.updSeam sm fun q =>
      { q with answers := [((s.seam sm).nextStamp, .fails f)], nextStamp := (s.seam sm).nextStamp + 1 }) ∧
  (∀ (s : State) (sm : SeamId) (m : MemRequest) (bs : List Byte), idle s sm m → m.kind = .write bs → (bank s sm m).queue.length < 32 →
    ∃ t r, exec (.seamRequest sm [m]) s = .next t ∧ (t.seam sm).front = [] ∧ (t.seam sm).answers = [(r.stamp, .acked)] ∧
      (bank t sm m).queue = (if r.merge then (bank s sm m).queue
        else (((s.seam sm).replace (burstOf m.addr) r.stamp).banks[(bankOfBurst (burstOf m.addr))]).queue) ++ [r] ∧
      r.write = true ∧ r.burst = burstOf m.addr ∧ r.panic = s.marks m ∧ r.data = bs ∧ r.off = m.addr % 64 ∧
      (r.merge = true ↔ bs.length ≠ 64 ∧ (s.seg (m.addr / 2 ^ 21)).lost = false) ∧ t.mem.readBytes m.addr bs.length = bs ∧
      (∀ x, x < m.addr / 64 * 64 ∨ m.addr / 64 * 64 + 64 ≤ x → t.mem.read x = s.mem.read x) ∧
      (∀ q, q ≠ sm → t.seam q = s.seam q) ∧
      t = { s with free := t.free, mem := t.mem, objs := t.objs, seams := t.seams, waits := t.waits, pipes := t.pipes }) ∧
  (∀ (s : State) (sm : SeamId) (m : MemRequest), idle s sm m → (m.kind = .read ∨ m.kind = .fetch) → s.rawBurst m.addr = false →
    (bank s sm m).queue.length < 32 →
    ∃ t r, exec (.seamRequest sm [m]) s = .next t ∧ (t.seam sm).front = [] ∧ (t.seam sm).answers = [] ∧
      (bank t sm m).queue = (bank s sm m).queue ++ [r] ∧ r.panic = s.marks m ∧
      r.write = false ∧ r.burst = burstOf m.addr ∧ r.data = s.mem.readBytes m.addr m.len ∧ (∀ q, q ≠ sm → t.seam q = s.seam q) ∧
      t = { s with free := t.free, objs := t.objs, seams := t.seams, waits := t.waits, pipes := t.pipes }) ∧
  (∀ (s : State) (sm : SeamId) (m : MemRequest), idle s sm m → 32 ≤ (bank s sm m).queue.length →
    ∃ t, exec (.seamRequest sm [m]) s = .next t ∧ (t.seam sm).front = [⟨(s.seam sm).nextStamp, m, s.marks m⟩] ∧
      (t.seam sm).answers = [] ∧ (t.seam sm).banks = (s.seam sm).banks ∧ t.mem = s.mem ∧
      t = { s with objs := t.objs, seams := t.seams, pipes := t.pipes }) ∧
  (∀ (s : State) (sm : SeamId), s.busFree sm = true →
    ∃ t, exec (.seamCommandIssue sm) s = .next t ∧ (∀ q, q ≠ sm → t.seam q = s.seam q) ∧
      t = { s with objs := t.objs, seams := t.seams } ∧
      ((t.seam sm).lastCmd = (s.seam sm).lastCmd ∨ ∃ c, (t.seam sm).lastCmd = some (s.cycle, c)) ∧
      (∀ (k : BankId) (row : Nat), (t.seam sm).lastCmd = some (s.cycle, .act k.val row) →
        ((s.seam sm).banks[k]).openRow = none ∧ since s.cycle ((s.seam sm).banks[k]).actAt 74 = true ∧
        since s.cycle ((s.seam sm).banks[k]).preAt 22 = true ∧ (s.seam sm).blockedUntil ≤ s.cycle ∧
        ((t.seam sm).banks[k]).openRow = some row ∧ ((t.seam sm).banks[k]).actAt = some s.cycle) ∧
      (∀ (k : BankId) (c : Nat), (t.seam sm).lastCmd = some (s.cycle, .rd k.val c) ∨ (t.seam sm).lastCmd = some (s.cycle, .wr k.val c) →
        ((s.seam sm).banks[k]).openRow.isSome = true ∧ since s.cycle ((s.seam sm).banks[k]).actAt 22 = true)) ∧
  (∀ (s : State) (sm : SeamId) (p : Pick), s.busFree sm = true → (ready s sm).seamPick sm s.cycle = some p →
    ∃ t c, exec (.seamCommandIssue sm) s = .next t ∧ t = (ready s sm).seamIssue sm s.cycle p ∧ (t.seam sm).lastCmd = some (s.cycle, c)) ∧
  (∀ (s : State) (sm : SeamId) (c : Nat × DdrCmd), (s.seam sm).lastCmd = some c → c.1 = s.cycle →
    exec (.seamCommandIssue sm) s = .next s) ∧
  (∀ (s : State) (sm : SeamId) (e : BurstErrors) (r : SeamReq) (rest : List SeamReq), arrives s sm r rest → (∀ i : Fin 4, e[i] = []) →
    exec (.seamReadData sm e) s = .next (s.updSeam sm fun q => { q with inflight := rest, answers := [(r.stamp, .data r.data)] })) ∧
  (∀ (s : State) (sm : SeamId) (e : BurstErrors) (r : SeamReq) (rest : List SeamReq), arrives s sm r rest →
    (∀ i : Fin 4, (e[i]).eraseDups.length ≤ 1) → (∃ i : Fin 4, e[i] ≠ []) →
    ∃ t, exec (.seamReadData sm e) s = .next t ∧ (t.seam sm).inflight = rest ∧
      (t.seam sm).answers = [(r.stamp, .data r.data)] ∧ (t.seam sm).backs = (s.seam sm).backs ++ [r.burst] ∧
      t.reg .seamCe sm.val = s.reg .seamCe sm.val + 1 ∧ t.mem = s.mem ∧ t.sec = s.sec ∧ t.hub = s.hub ∧ t.ports = s.ports) ∧
  (∀ (s : State) (sm : SeamId) (e : BurstErrors) (r : SeamReq) (rest : List SeamReq), arrives s sm r rest →
    (∃ i : Fin 4, (e[i]).eraseDups.length = 2) →
    ∃ t, exec (.seamReadData sm e) s = .next t ∧ (t.seam sm).inflight.length = rest.length ∧
      (t.seam sm).answers = [(r.stamp, .fails .uncorrectable)] ∧ (t.seam sm).backs = (s.seam sm).backs ++ [r.burst] ∧
      (r.replaced = none → (t.seam sm).poisoned.contains r.burst = true) ∧
      t.reg .seamUe sm.val = s.reg .seamUe sm.val + 1 ∧ t.mem = s.mem ∧ t.sec = s.sec ∧ t.hub = s.hub ∧ t.ports = s.ports) ∧
  (∀ (s : State) (sm : SeamId) (e : BurstErrors) (r : SeamReq) (rest : List SeamReq), arrives s sm r rest →
    ∃ t a, exec (.seamReadData sm e) s = .next t ∧ (t.seam sm).answers = [(r.stamp, a)] ∧ t.hub = s.hub ∧ t.ports = s.ports) ∧
  (∀ (s : State) (sm : SeamId) (e : BurstErrors) (r : SeamReq) (rest : List SeamReq), (s.seam sm).inflight = r :: rest → r.merge = true →
    r.poisoned = false → (∀ i : Fin 4, e[i] = []) →
    exec (.seamReadData sm e) s = .next (s.updSeam sm fun q =>
      { (q.updBank r.bank fun b => { b with queue := b.queue.map fun x =>
          if x.stamp = r.stamp then { x with merge := false, reading := false } else x }) with
        inflight := rest }))

/-- The row sweep, the scrub and the REF window (R332, R336 to R340, R344): a bank's debt rises by one when its rise is due, the next due
an interval later; a reading in the 2x range makes the seam hot; a row open for 60 µs is precharged on a cycle on which that is legal; a
scrub read that has waited is promoted; a REF that is due in the window closes every row and stops the seam for tRFC; the window ends when
every bank's pass is complete and a retention window has passed. Nothing but the seam changes, and the counters of its sweep. Where the
spec leaves a point open the model chooses: log entries 4, 44 and 58. -/
def Obligations.SeamsKeepTheirRowsAlive : Prop :=
  (∀ (s : State) (sm : SeamId) (k : BankId), (s.seam sm).state.inService = true →
    ((s.seam sm).banks[k]).nextRise ≤ s.now.toNat * 2 ^ 17 →
    ∃ t, exec (.sweepDebtTick sm k) s = .next t ∧ ((t.seam sm).banks[k]).debt = ((s.seam sm).banks[k]).debt + 1 ∧
      ((t.seam sm).banks[k]).nextRise = ((s.seam sm).banks[k]).nextRise +
        60000000 * (131072 / rowsOf s.grade) / (if (s.seam sm).hot then 2 else 1) ∧
      (∀ j, j ≠ k → (t.seam sm).banks[j] = (s.seam sm).banks[j]) ∧ (∀ q, q ≠ sm → t.seam q = s.seam q) ∧
      Safety.KeepsRegs s t [Ob.key .seamMaxDebt sm.val 0 0] ∧ t = { s with objs := t.objs, seams := t.seams }) ∧
  (∀ (s : State) (sm : SeamId) (k : BankId), s.now.toNat * 2 ^ 17 < ((s.seam sm).banks[k]).nextRise →
    exec (.sweepDebtTick sm k) s = .next s) ∧
  (∀ (s : State) (sm : SeamId), (s.seam sm).state.inService = true → s.due (s.seam sm).polledAt 1000000 = true →
    exec (.dramTempPoll sm true) s =
      .next (s.updSeam sm fun q => { q with polledAt := some s.now, hot := true, hotWraps := Vector.replicate 8 0 }) ∧
    exec (.dramTempPoll sm false) s = .next (s.updSeam sm fun q => { q with polledAt := some s.now })) ∧
  (∀ (s : State) (sm : SeamId) (b : Bool), s.due (s.seam sm).polledAt 1000000 = false → exec (.dramTempPoll sm b) s = .next s) ∧
  (∀ (s : State) (sm : SeamId) (k : BankId) (row : Nat), s.busFree sm = true → ((s.seam sm).banks[k]).openRow = some row →
    ((s.seam sm).banks[k]).openedAt + 60000 ≤ s.now.toNat → (s.seam sm).preOk k s.cycle = true →
    ∃ t, exec (.rowOpenTimeout sm k) s = .next t ∧ ((t.seam sm).banks[k]).openRow = none ∧
      ((t.seam sm).banks[k]).preAt = some s.cycle ∧ ((t.seam sm).banks[k]).sweeping = false ∧
      (t.seam sm).lastCmd = some (s.cycle, .pre k.val) ∧
      ((t.seam sm).banks[k]).queue = ((s.seam sm).banks[k]).queue ∧ (∀ j, j ≠ k → (t.seam sm).banks[j] = (s.seam sm).banks[j]) ∧
      (∀ q, q ≠ sm → t.seam q = s.seam q) ∧ t = { s with objs := t.objs, seams := t.seams }) ∧
  (∀ (s : State) (sm : SeamId), (s.seam sm).state.inService = true → s.scrubDue sm 100000 = true →
    exec (.scrubPromote sm) s = .next (s.updSeam sm fun q => { q with scrubPromoted := true })) ∧
  (∀ (s : State) (sm : SeamId), s.busFree sm = true → (s.seam sm).refDue s.now.toNat = true → (s.seam sm).blockedUntil ≤ s.cycle →
    (∀ k : BankId, ((s.seam sm).banks[k]).openRow.isSome = true → (s.seam sm).preOk k s.cycle = true) →
    ∃ t, exec (.refTick sm) s = .next t ∧ (∀ k : BankId, ((t.seam sm).banks[k]).openRow = none ∧
        ((t.seam sm).banks[k]).queue = ((s.seam sm).banks[k]).queue ∧
        (((s.seam sm).banks[k]).openRow.isSome = true → ((t.seam sm).banks[k]).preAt = some s.cycle)) ∧
      (t.seam sm).blockedUntil = s.cycle + (if s.grade = .c64 then 560 else 880) ∧ (t.seam sm).lastCmd = some (s.cycle, .ref) ∧
      (∀ q, q ≠ sm → t.seam q = s.seam q) ∧ t = { s with objs := t.objs, seams := t.seams }) ∧
  (∀ (s : State) (sm : SeamId), (s.seam sm).refDue s.now.toNat = false → exec (.refTick sm) s = .next s) ∧
  (∀ (s : State) (sm : SeamId), (s.seam sm).state = .refWindow → (∀ k : BankId, (s.seam sm).passDone[k] = true) →
    (if (s.seam sm).hot then 32000000 else 64000000) ≤ (s.now - (s.seam sm).refStart).toNat →
    exec (.refWindowEnd sm) s = .next (s.updSeam sm fun q => { q with state := .ready }))

/-- Training and the DRAM groups (R39, R109, R345 to R350, R562): training that succeeds brings the seam into service, its bough's
segments lost; the third failure takes it out of service with its bough; a seam whose fault R348 names fails with its bough, which is
fenced, now or when the hub foreman runs again. KEEP puts a group's seams in self-refresh and keeps memory, DROP switches them off and its
segments are lost, ON trains them; a change and the hold of DRAM_EN end; a bough's local memory is zeroed. Where the spec leaves a point
open the model chooses: log entries 33, 44 and 45. -/
def Obligations.SeamsTrainAndGroupsChange : Prop :=
  (∀ (s : State) (sm : SeamId), (s.seam sm).state = .training → s.foremanRuns 1 = true →
    ∃ t, exec (.seamTrainDone sm true) s = .next t ∧ (t.seam sm).state = (if (s.seam sm).trainFull then .ready else .refWindow) ∧
      t.ready (rSeam sm.val) = true ∧ (∀ n, n / 16384 = sm.val / 4 → (t.seg n).lost = true) ∧
      (∀ n, n / 16384 ≠ sm.val / 4 → t.seg n = s.seg n) ∧ (∀ q, q ≠ sm → t.seam q = s.seam q) ∧ t.mem = s.mem ∧ t.ports = s.ports) ∧
  (∀ (s : State) (sm : SeamId), (s.seam sm).state = .training → s.foremanRuns 1 = true → (s.seam sm).tries + 1 < 3 →
    exec (.seamTrainDone sm false) s = .next (s.updSeam sm fun q => { q with tries := q.tries + 1 })) ∧
  (∀ (s : State) (sm : SeamId), (s.seam sm).state = .training → s.foremanRuns 1 = true → 3 ≤ (s.seam sm).tries + 1 →
    ∃ t, exec (.seamTrainDone sm false) s = .next t ∧ (t.seam sm).state = .failed ∧ t.ready (rSeam sm.val) = false ∧
      t.readyFailed.getLsbD (rSeam sm.val) = true ∧ t.readyFailed.getLsbD (rBough (sm.val / 4)) = true ∧
      (∀ q, q ≠ sm → t.seam q = s.seam q) ∧ t.mem = s.mem ∧ t.sec = s.sec ∧ t.hub = s.hub ∧ t.ports = s.ports) ∧
  (∀ (s : State) (sm : SeamId) (c : SeamOutCause), (s.seam sm).state.inService = true → s.foremanRuns 1 = true →
    (c = .rowErrors → s.rowsFail sm = true) →
    ∃ t, exec (.seamOut sm c) s = .next t ∧ (t.seam sm).outPending = !s.foremanRuns 4 ∧
      (t.seam sm).state = (if s.foremanRuns 4 = true ∧ s.boughs[(Fin.ofNat 4 (sm.val / 4) : BoughId)].state = .resetting then .training
        else .failed) ∧
      t.ready (rSeam sm.val) = false ∧ t.readyFailed.getLsbD (rSeam sm.val) = true ∧
      t.readyFailed.getLsbD (rBough (sm.val / 4)) = true ∧ t.ready (rBough (sm.val / 4)) = false ∧
      (∀ q, q ≠ sm → (s.boughs[(Fin.ofNat 4 (sm.val / 4) : BoughId)].state = .resetting → (s.seam q).state ≠ .failed) → t.seam q = s.seam q) ∧
      (s.foremanRuns 4 = true → s.boughs[(Fin.ofNat 4 (sm.val / 4) : BoughId)].state = .ready →
        t.boughs[(Fin.ofNat 4 (sm.val / 4) : BoughId)].state = .fencing) ∧
      (s.foremanRuns 4 = false → t.boughs = s.boughs ∧ t.hub = s.hub) ∧ t.mem = s.mem ∧ t.ports = s.ports) ∧
  (∀ (s : State) (r : Requester) (b : BoughId), Safety.Writes s r .dramGroupMode b.val 0 0 1 → groupCodes b s = [] → s.groups[b].mode ≠ .keep →
    ∃ t, exec (.dramGroupKeep r b) s = .next t ∧ Safety.Counted s t r ∧
      t.groups = upd s.groups b (fun g => { g with mode := .keep, changing := some s.groups[b].mode, enable := true }) ∧
      (∀ q ∈ seamsOf b, (t.seam q).state = .selfRefresh ∧ t.ready (rSeam q.val) = false) ∧ (∀ q, q ∉ seamsOf b → t.seam q = s.seam q) ∧
      t.mem = s.mem ∧ t.sec = s.sec ∧ t.hub = s.hub ∧ t.boughs = s.boughs) ∧
  (∀ (s : State) (r : Requester) (b : BoughId), Safety.Writes s r .dramGroupMode b.val 0 0 2 → groupCodes b s = [] → s.groups[b].mode ≠ .drop →
    ∃ t, exec (.dramGroupDrop r b) s = .next t ∧ Safety.Counted s t r ∧
      t.groups = upd s.groups b (fun g => { g with mode := .drop, changing := some s.groups[b].mode }) ∧
      (∀ q ∈ seamsOf b, (t.seam q).state = .off ∧ t.ready (rSeam q.val) = false) ∧ (∀ q, q ∉ seamsOf b → t.seam q = s.seam q) ∧
      (∀ n, n / 16384 = b.val → (t.seg n).lost = true) ∧ (∀ n, n / 16384 ≠ b.val → t.seg n = s.seg n) ∧
      (∀ x, (∀ k ∈ slicesOf b, ∀ l ∈ (s.slices[k]).held, l.dirty = true → x < l.addr ∨ l.addr + l.under.length ≤ x) →
        t.mem.read x = s.mem.read x) ∧ t.hub.jobs = s.hub.jobs ∧ t.boughs = s.boughs) ∧
  (∀ (s : State) (r : Requester) (b : BoughId), Safety.Writes s r .dramGroupMode b.val 0 0 0 → groupCodes b s = [] → s.groups[b].mode ≠ .on →
    ∃ t, exec (.dramGroupOn r b) s = .next t ∧ Safety.Counted s t r ∧
      t.groups = upd s.groups b (fun g => { g with mode := .on, changing := some s.groups[b].mode, enable := true }) ∧
      (∀ q ∈ seamsOf b, (t.seam q).state = .training ∧ (t.seam q).tries = 0 ∧ (s.groups[b].mode = .drop → (t.seam q).trainFull = true)) ∧
      (∀ q, q ∉ seamsOf b → t.seam q = s.seam q) ∧ t.mem = s.mem ∧ t.sec = s.sec ∧ t.hub = s.hub ∧ t.boughs = s.boughs) ∧
  (∀ (s : State) (b : BoughId) (m : GroupMode), s.groups[b].changing = some m →
    (s.groups[b].mode = .on → ∀ q ∈ seamsOf b, (s.seam q).state ≠ .training) →
    exec (.dramGroupChangeDone b) s = .next { s with groups := upd s.groups b fun g =>
      if g.mode = .drop then { g with changing := none, enable := false, enHold := true, enFell := s.now } else { g with changing := none } }) ∧
  (∀ (s : State) (b : BoughId), s.groups[b].enHold = true → 50000000 ≤ (s.now - s.groups[b].enFell).toNat →
    ∃ t, exec (.dramEnHoldEnd b) s = .next t ∧ t.groups[b].enHold = false ∧ t.groups[b].mode = s.groups[b].mode ∧
      (∀ c, c ≠ b → t.groups[c] = s.groups[c]) ∧
      (s.groups[b].mode ≠ .on → t.groups[b].enable = s.groups[b].enable ∧ t.seams = s.seams) ∧
      t = { s with groups := t.groups, seams := t.seams }) ∧
  (∀ (s : State) (b : BoughId), s.boughs[b].state = .training →
    ∃ t, exec (.localMemoryZeroed b) s = .next t ∧ t.boughs[b].zeroed = true ∧
      (∀ x, localBase b 0 ≤ x → x < localBase b 0 + 0x2000000 → t.mem.read x = 0) ∧
      (∀ x, x < localBase b 0 ∨ localBase b 0 + 0x2000000 ≤ x → t.mem.read x = s.mem.read x) ∧
      ((∀ q ∈ seamsOf b, (s.seam q).state.inService = true) → t.boughs[b].state = .ready ∧ t.ready (rBough b.val) = true) ∧
      (∀ c : BoughId, c ≠ b → t.boughs[c].state = s.boughs[c].state) ∧ t.sec = s.sec ∧ t.ports = s.ports)

/- The trunk and the system cache. -/

/-- The system cache (R357 to R362, R365, R366, R370, R479): of a request that comes to an idle trunk, one that the segment check refuses,
or that meets a fenced bough, is answered so; a read that hits gives the line's bytes, also with a corrected error; one that misses gives
DRAM's and takes a way; a clean line that is uncorrectable is read anew, a dirty one fails the read and is dropped; a write is visible and
acknowledged; the early window answers claim 0 from its own memory, but for a word that is uncorrectable, and another claim with ACCESS.
Clearing starvation flags leaves alert_cause; moving the border of the early window empties the part that changes hands, and its readiness
bit stands while it has a way. Where the spec leaves a point open the model chooses: log entries 20, 50, 52 and 58. -/
def Obligations.SystemCacheServesRequests : Prop :=
  let comes := fun (s : State) (m : MemRequest) (k : Fin 8) => s.trunk = [] ∧ s.sliceFor m = some (k, m)
  let passes := fun (s : State) (m : MemRequest) => m.addr < 2 ^ 37 ∧ comes s m (sliceOf m.addr) ∧
    s.checkSeg m.who (kindAct m.kind) (m.addr / 2 ^ 21) = none ∧ s.boughs[(boughOf m.addr)].state.inReset = false
  let line := fun (s : State) (m : MemRequest) =>
    (s.slices[(sliceOf m.addr)]).find (setOf (m.addr / 128 * 128)) (m.addr / 128 * 128) s.ways
  let lineAt := fun (s : State) (m : MemRequest) (w : Nat) => (s.slices[(sliceOf m.addr)]).at (setOf (m.addr / 128 * 128)) w
  let answered := fun (s t : State) (k : Fin 8) (a : MemAnswer) =>
    (t.slices[k]).answers = [(s.trunkStamp, a)] ∧ (∀ j, j ≠ k → t.slices[j] = { s.slices[j] with answers := [] }) ∧ t.trunk = [] ∧ t.trunkStamp = s.trunkStamp + 1
  let stats := fun (s : State) (m : MemRequest) (o : List Ob) => Ob.key .forcedWins 0 0 0 :: o.map fun x => Ob.key x (sliceOf m.addr).val 0 0
  (∀ (s : State) (m : MemRequest) (e : Vector SliceError 8) (f : MemFail), m.addr < 2 ^ 37 → comes s m (sliceOf m.addr) →
    (s.checkSeg m.who (kindAct m.kind) (m.addr / 2 ^ 21) = some f ∨
      s.checkSeg m.who (kindAct m.kind) (m.addr / 2 ^ 21) = none ∧ s.boughs[(boughOf m.addr)].state.inReset = true ∧ f = .fenced) →
    ∃ t, exec (.sliceAccept ([m], e)) s = .next t ∧ answered s t (sliceOf m.addr) (.fails f) ∧
      (t.slices[(sliceOf m.addr)]).lines = (s.slices[(sliceOf m.addr)]).lines ∧
      t = { s with objs := t.objs, pipes := t.pipes, waits := t.waits, trunkStamp := t.trunkStamp, slices := t.slices }) ∧
  (∀ (s : State) (m : MemRequest) (e : Vector SliceError 8) (w : Nat), passes s m → (m.kind = .read ∨ m.kind = .fetch) →
    s.sliceOn (sliceOf m.addr) = true → line s m = some w → ((pieces m.addr m.len).all fun p => !s.rawBurst p.1) = true →
    e[(sliceOf m.addr)] ≠ .uncorrectable →
    ∃ t, exec (.sliceAccept ([m], e)) s = .next t ∧ answered s t (sliceOf m.addr) (.data ((pieces m.addr m.len).flatMap fun p => s.mem.readBytes p.1 p.2)) ∧
      line t m = some w ∧ (s.confidentialOpen = false →
        t.reg .sliceHits (sliceOf m.addr).val = s.reg .sliceHits (sliceOf m.addr).val + 1 ∧
        t.reg .sliceCe (sliceOf m.addr).val = s.reg .sliceCe (sliceOf m.addr).val + (if e[(sliceOf m.addr)] = .corrected then 1 else 0)) ∧
      Safety.KeepsRegs s t (stats s m [.sliceHits, .sliceCe]) ∧
      t = { s with objs := t.objs, waits := t.waits, trunkStamp := t.trunkStamp, slices := t.slices }) ∧
  (∀ (s u : State) (m : MemRequest) (e : Vector SliceError 8) (bs : List Byte), passes s m → (m.kind = .read ∨ m.kind = .fetch) →
    s.sliceOn (sliceOf m.addr) = true → s.regN .cacheEarlyWays ≤ 8 →
    s.readDram m.who (kindAct m.kind) (pieces m.addr m.len) = (.ok bs, u) →
    (line s m = none ∨ ∃ w l, line s m = some w ∧ lineAt s m w = some l ∧ l.dirty = false ∧ e[(sliceOf m.addr)] = .uncorrectable) →
    ∃ t, exec (.sliceAccept ([m], e)) s = .next t ∧ answered s t (sliceOf m.addr) (.data bs) ∧
      (s.poisonedBurst (m.addr / 128 * 128) = false → s.poisonedBurst (m.addr / 128 * 128 + 64) = false → (line t m).isSome = true) ∧
      (s.confidentialOpen = false → line s m = none →
        t.reg .sliceMisses (sliceOf m.addr).val = s.reg .sliceMisses (sliceOf m.addr).val + 1) ∧
      (s.confidentialOpen = false → (line s m).isSome = true →
        t.reg .sliceUe (sliceOf m.addr).val = s.reg .sliceUe (sliceOf m.addr).val + 1) ∧ t.mem = s.mem ∧
      t = { s with free := t.free, objs := t.objs, waits := t.waits, trunkStamp := t.trunkStamp, slices := t.slices }) ∧
  (∀ (s : State) (m : MemRequest) (e : Vector SliceError 8) (w : Nat) (l : Line), passes s m → (m.kind = .read ∨ m.kind = .fetch) →
    s.sliceOn (sliceOf m.addr) = true → line s m = some w → lineAt s m w = some l → l.dirty = true → e[(sliceOf m.addr)] = .uncorrectable →
    l.addr = m.addr / 128 * 128 →
    ∃ t, exec (.sliceAccept ([m], e)) s = .next t ∧ answered s t (sliceOf m.addr) (.fails .uncorrectable) ∧ lineAt t m w = none ∧
      t.poisonedBurst (m.addr / 128 * 128) = true ∧ t.poisonedBurst (m.addr / 128 * 128 + 64) = true ∧ t.mem = s.mem ∧ t.hub = s.hub ∧
      t.ports = s.ports) ∧
  (∀ (s : State) (m : MemRequest) (e : Vector SliceError 8) (bs : List Byte), passes s m → m.kind = .write bs → s.dramServed m.addr = true →
    ∃ t, exec (.sliceAccept ([m], e)) s = .next t ∧ answered s t (sliceOf m.addr) .acked ∧ t.mem.readBytes m.addr bs.length = bs ∧
      (∀ x, x < m.addr / 64 * 64 ∨ (m.addr + bs.length + 63) / 64 * 64 ≤ x → t.mem.read x = s.mem.read x) ∧
      t = { s with free := t.free, mem := t.mem, objs := t.objs, seams := t.seams, slices := t.slices, waits := t.waits,
                   trunkStamp := t.trunkStamp, pipes := t.pipes }) ∧
  (∀ (s : State) (m : MemRequest) (e : Vector SliceError 8) (o : Nat), s.region m.addr = .early o → comes s m (earlySlice o) →
    (whoClaim m.who = 0 → (m.kind = .read ∨ m.kind = .fetch) → e[(earlySlice o)] ≠ .uncorrectable) →
    ∃ t a, exec (.sliceAccept ([m], e)) s = .next t ∧ answered s t (earlySlice o) a ∧
      (whoClaim m.who ≠ 0 → a = .fails .access ∧ t.mem = s.mem) ∧
      (whoClaim m.who = 0 → (m.kind = .read ∨ m.kind = .fetch) → a = .data (s.mem.readBytes m.addr m.len) ∧ t.mem = s.mem) ∧
      (∀ bs, whoClaim m.who = 0 → m.kind = .write bs → a = .acked ∧ t.mem = s.mem.writeBytes m.addr bs) ∧
      t = { s with mem := t.mem, objs := t.objs, pipes := t.pipes, waits := t.waits, trunkStamp := t.trunkStamp, slices := t.slices }) ∧
  (∀ (s : State) (m : MemRequest) (e : Vector SliceError 8) (o : Nat), s.region m.addr = .early o → comes s m (earlySlice o) →
    whoClaim m.who = 0 → (m.kind = .read ∨ m.kind = .fetch) → e[(earlySlice o)] = .uncorrectable →
    ∃ t, exec (.sliceAccept ([m], e)) s = .next t ∧ answered s t (earlySlice o) (.fails .uncorrectable) ∧ t.mem = s.mem ∧ t.hub = s.hub ∧
      t.ports = s.ports) ∧
  (∀ (s : State) (r : Requester) (v : Word), Safety.Writes s r .starveFlags 0 0 0 v → v.toNat < 2 ^ 35 →
    ∃ t, exec (.starveFlagsClear r v) s = .next t ∧ Safety.Counted s t r ∧ t.reg .starveFlags = s.reg .starveFlags &&& ~~~v ∧
      Safety.KeepsRegs s t [Ob.key .starveFlags 0 0 0] ∧ t = { s with ports := t.ports, objs := t.objs }) ∧
  (∀ (s : State) (r : Requester) (v : Word), Safety.Writes s r .cacheEarlyWays 0 0 0 v → earlyWaysCodes v.toNat s = [] →
    ∃ t, exec (.cacheEarlyWaysWrite r v) s = .next t ∧ Safety.Counted s t r ∧ t.reg .cacheEarlyWays = v ∧
      (∀ x, t.mem.read x =
        if min (earlyTop (s.regN .cacheEarlyWays)) (earlyTop v.toNat) ≤ x ∧ x < max (earlyTop (s.regN .cacheEarlyWays)) (earlyTop v.toNat) then 0
        else s.mem.read x) ∧
      (∀ (k : Fin 8) (p : Nat × Option Line), p ∈ (t.slices[k]).lines → p ∈ (s.slices[k]).lines ∧
        (s.regN .cacheEarlyWays < v.toNat → p.1 % 16 < 16 - v.toNat ∨ 16 - s.regN .cacheEarlyWays ≤ p.1 % 16)) ∧
      (v.toNat = 0 → t.ready rEarly = false) ∧
      (v.toNat ≠ 0 → s.regN .cacheEarlyWays ≠ 0 → t = { s with ports := t.ports, mem := t.mem, objs := t.objs, slices := t.slices }))

/- Power, voltage, pace and heat. -/

/-- Power (R28, R498, R500 to R502, R507, R511, R512, R515): a write of domain_off that nothing refuses is kept and the units it switches
off leave service; in a power period with every rail read or off the classes' powers are the sums of their rails', VDD_HOST takes its
target, and the setpoint sent is at most 25 mV from the one in force; an acknowledged setpoint is in force with VDD_SRAM as R499 says; an
alert of a regulator and a hot sensor force the floor of 0.55 V. Where the spec leaves a point open the model chooses: log entries 42, 43
and 58. -/
def Obligations.PowerFollowsItsRules : Prop :=
  let mw := fun (x : RailReading) => match x with
    | .read mv ma => mv * ma
    | _ => 0
  let leaves := fun (s : State) (b : Fin 4) => (List.range 24).filter fun i =>
    i / 4 < branchesOf s.grade && (s.boughs[b].branches[(Fin.ofNat 6 (i / 4))].leaves[(Fin.ofNat 4 i)]).active
  let pace := fun (s : State) (m : Vector (BitVec 32) 96) (b : Fin 4) =>
    ((leaves s b).foldl (fun a i => a + (m.toList.getD (24 * b.val + i) 0).toNat) 0) / max 1 (leaves s b).length
  (∀ (s : State) (r : Requester) (hi : Bool) (v : Word), Safety.Writes s r (if hi then .domainOffHi else .domainOffLo) 0 0 0 v →
    (domainOffCodes hi v s).1 = [] →
    ∃ t, exec (.domainOffWrite r hi v) s = .next t ∧ Safety.Counted s t r ∧ t.power = { s.power with domainOff := s.domainAsk hi v } ∧
      (∀ d ∈ s.goingOff hi v, ∀ i, domainReady d = some i → t.ready i = false) ∧ t.mem = s.mem ∧ t.sec = s.sec ∧ t.hub = s.hub ∧
      t.boughs = s.boughs ∧ t.seams = s.seams) ∧
  (∀ (s : State) (m : Vector RailReading 17), s.foremanRuns 2 = true → s.due s.power.lastPeriod 100000 = true → (∀ i : Fin 17, m[i] ≠ .failed) →
    ∃ t, exec (.powerPeriod m) s = .next t ∧ t.power.compute = mw m[0] + mw m[2] ∧ t.power.links = mw m[12] + mw m[13] ∧
      t.power.memory = mw m[4] + mw m[5] + mw m[6] + mw m[7] + mw m[8] + mw m[9] + mw m[10] + mw m[11] ∧
      t.power.total = t.power.compute + t.power.memory + t.power.links + (mw m[1] + mw m[3] + mw m[14] + mw m[15] + mw m[16]) ∧
      t.power.hostNow = s.regN .hostVTarget ∧ t.power.coreNow = s.power.coreNow ∧ t.power.lastPeriod = some s.now ∧
      (∀ v, t.power.stepTo = some v → s.power.stepTo = some v ∨ v ≤ s.power.coreNow + 25 ∧ s.power.coreNow ≤ v + 25) ∧
      t.mem = s.mem ∧ t.sec = s.sec ∧ t.hub = s.hub ∧ t.boughs = s.boughs ∧ t.ports = s.ports) ∧
  (∀ (s : State) (m : Vector (BitVec 32) 96) (host : BitVec 32), s.due s.power.paceAt 100000 = true →
    ∃ t, exec (.paceUpdate m host) s = .next t ∧ t.reg .hostPace = host.zeroExtend 64 ∧
      (∀ i : Fin 4, t.reg .boughPace 0 0 i.val = BitVec.ofNat 64 (pace s m i)) ∧ (∀ i : Fin 4, leaves s i = [] → t.regN .boughPace 0 0 i.val = 0) ∧
      (∀ i : Fin 4, pace s m i ≠ 0 → t.regN .crownPace ≤ pace s m i ∧ t.regN .crownPace ≠ 0) ∧
      ((∀ i : Fin 4, pace s m i = 0) → t.regN .crownPace = 0) ∧ ((∃ i : Fin 4, pace s m i ≠ 0) → ∃ i : Fin 4, t.regN .crownPace = pace s m i) ∧
      (∀ (b : BoughId) (p : BranchPos) (l : LeafPos), t.leaf b p l = { s.leaf b p l with active := false }) ∧
      Safety.KeepsRegs s t [Ob.key .hostPace 0 0 0, Ob.key .crownPace 0 0 0, Ob.key .boughPace 0 0 0, Ob.key .boughPace 0 0 1,
        Ob.key .boughPace 0 0 2, Ob.key .boughPace 0 0 3] ∧
      t = { s with objs := t.objs, boughs := t.boughs, power := { s.power with paceAt := some s.now } }) ∧
  (∀ (s : State) (v : Nat), s.power.stepTo = some v →
    ∃ t, exec .voltageStepAck s = .next t ∧ t.power.coreNow = v ∧ t.power.stepTo = none ∧
      t.power.sramNow = max 750 (max v s.power.hostNow) ∧ t.power.hostNow = s.power.hostNow ∧ t.mem = s.mem ∧ t.sec = s.sec ∧
      t.hub = s.hub ∧ t.ports = s.ports ∧ t.boughs = s.boughs) ∧
  (∀ (s : State) (rail : Fin 17), s.porstLow = false → s.power.vrAlert.getLsbD rail.val = false →
    ∃ t, exec (.vrAlert rail) s = .next t ∧ t.power.vrAlert.getLsbD rail.val = true ∧ t.power.alertFloor = true ∧
      t.power.coreNow = 550 ∧ t.power.stepTo = none ∧ t.alertCause.getLsbD aPower = true ∧ t.mem = s.mem ∧ t.sec = s.sec ∧
      t.hub = s.hub ∧ t.ports = s.ports ∧ t.boughs = s.boughs) ∧
  (∀ s : State, s.power.alertFloor = true → s.foremanRuns 2 = true → 1000000 ≤ (s.now - s.power.alertAt).toNat →
    exec .vrAlertRelease s = .next { s with power := { s.power with vrAlert := 0, vrFell := 0, alertFloor := false, share := 550 } }) ∧
  (∀ (s : State) (x : Vector (BitVec 16) 64), s.porstLow = false → s.due s.power.sensorsAt 10000 = true →
    (∀ i : Fin 64, (x[i]).toInt < 1100) → s.power.thermalFloor = false →
    exec (.thermalSensorRead x) s = .next { s with power := { s.power with temps := x, sensorsAt := some s.now } }) ∧
  (∀ (s : State) (x : Vector (BitVec 16) 64) (i : Fin 64), s.porstLow = false → s.due s.power.sensorsAt 10000 = true →
    1100 ≤ (x[i]).toInt → s.power.thermalFloor = false → (∀ j : Fin 64, (x[j]).toInt < 1200) →
    ∃ t, exec (.thermalSensorRead x) s = .next t ∧ t.power.thermalFloor = true ∧ t.power.coreNow = 550 ∧ t.power.temps = x ∧
      t.alertCause.getLsbD aThermal = true ∧ t.crown = s.crown ∧ t.mem = s.mem ∧ t.sec = s.sec ∧ t.hub = s.hub ∧ t.boughs = s.boughs) ∧
  (∀ (s : State) (x : Vector (BitVec 16) 64) (i : Fin 64), s.porstLow = false → s.due s.power.sensorsAt 10000 = true →
    1200 ≤ (x[i]).toInt → s.power.thermtrip = false → s.crown ≠ .powerOn →
    ∃ t, exec (.thermalSensorRead x) s = .next t ∧ t.power.thermtrip = true ∧ t.crown = .halted ∧ t.power.coreNow = 550 ∧
      t.mem = s.mem ∧ t.sec = s.sec ∧ t.hub = s.hub ∧ t.boughs = s.boughs)

/- Claims and the segment table. -/

/-- Claims and segment commands (R475, R481, R485, R490): an OPEN that nothing refuses opens the claim; OPEN_CONFIDENTIAL closes debug and
waits for the session's keys, which bring the claim to SESSION; a RELEASE returns an open claim's segments to claim 0, and a confidential
one's once they are cleared, its keys and pairings gone at once; ASSIGN, CLEAR and REVIVE read BUSY and change one segment after another,
each as its command says. Where the spec leaves a point open the model chooses: log entry 48. -/
def Obligations.ClaimsAndSegmentsChange : Prop :=
  let mine := fun (s : State) (c : ClaimId) => (s.sec.segs.filter fun p => p.2.claim = c).map (·.1)
  let unpair := fun (s : State) (c : ClaimId) =>
    ({ s.grove with pairs := s.grove.pairs.map fun w => { w with value := setBit w.value c.val false } } : Grove)
  (∀ (s : State) (r : Requester) (c : ClaimId), Safety.Writes s r .claimCommand c.val 0 0 1 → claimOpenCodes s c = [] →
    ∃ t, exec (.claimOpen r c) s = .next t ∧ Safety.Counted s t r ∧
      t = { s with ports := t.ports, sec := { s.sec with claims := upd s.sec.claims c fun x => { x with state := .opened } } }) ∧
  (∀ (s : State) (r : Requester) (c : ClaimId), Safety.Writes s r .claimCommand c.val 0 0 2 → openConfidentialCodes s c = [] →
    ∃ t, exec (.openConfidential r c) s = .next t ∧ Safety.Counted s t r ∧ (t.claim c).wait = .makeKeys ∧ t.claimState c = s.claimState c ∧
      t.jtagOpen = false ∧ t.profilingOpen = false ∧ t.sec.drbgRequests = 0 ∧ (∀ d, d ≠ c → t.claim d = s.claim d) ∧
      t.sec.segs = s.sec.segs ∧ t = { s with ports := t.ports, sec := t.sec }) ∧
  (∀ (s : State) (c : ClaimId), (s.claim c).wait = .makeKeys →
    ∃ t, exec (.claimInSession c) s = .next t ∧ t.claimState c = .session ∧ (t.claim c).sessionSecret.isSome = true ∧ (t.claim c).wait = .none ∧
      (∀ d, d ≠ c → t.claim d = s.claim d) ∧ t.sec.segs = s.sec.segs ∧ t = { s with sec := t.sec }) ∧
  (∀ (s : State) (r : Requester) (c : ClaimId), Safety.Writes s r .claimCommand c.val 0 0 3 → releaseCodes s c = [] → s.finishAssign c = s →
    s.claimState c = .opened →
    ∃ t, exec (.release r c) s = .next t ∧ Safety.Counted s t r ∧ t.claimState c = .closed ∧ (∀ d, d ≠ c → t.claim d = s.claim d) ∧
      (∀ n ∈ mine s c, (t.seg n).claim = 0 ∧ (t.seg n).perm = 7 ∧ (t.seg n).lost = (s.seg n).lost) ∧
      (∀ n, n ∉ mine s c → t.seg n = s.seg n) ∧ (∀ m : Fin 16, (t.reg .peerClaims m.val).getLsbD c.val = false) ∧
      t = { s with ports := t.ports, objs := t.objs, slices := t.slices, sec := t.sec, grove := unpair s c }) ∧
  (∀ (s : State) (r : Requester) (c : ClaimId), Safety.Writes s r .claimCommand c.val 0 0 3 → releaseCodes s c = [] → s.finishAssign c = s →
    (s.claimState c).confidential = true →
    ∃ t, exec (.release r c) s = .next t ∧ Safety.Counted s t r ∧ t.claimState c = .releasing ∧ (t.claim c).sessionSecret = none ∧
      (t.claim c).modelKey = none ∧ (t.claim c).exportKey = none ∧ (∀ d, d ≠ c → t.claim d = s.claim d) ∧ t.sec.segs = s.sec.segs ∧
      (∀ m : Fin 16, (t.reg .peerClaims m.val).getLsbD c.val = false) ∧
      t = { s with ports := t.ports, objs := t.objs, sec := t.sec, grove := unpair s c }) ∧
  (∀ (s : State) (c : ClaimId), s.claimState c = .releasing → c ≠ 0 → (∀ n ∈ mine s c, s.segServed n = true) →
    (∀ n ∈ mine s c, (s.groups[(Fin.ofNat 4 (n / 16384) : BoughId)]).mode ≠ .drop) →
    ∃ t, exec (.claimReleaseDone c) s = .next t ∧ t.claimState c = .closed ∧ (∀ d, d ≠ c → t.claim d = s.claim d) ∧
      (∀ n ∈ mine s c, (t.seg n).claim = 0 ∧ (t.seg n).perm = 7 ∧ (t.seg n).lost = false ∧
        ∀ x, x / 2 ^ 21 = n → t.mem.read x = 0) ∧
      (∀ n, n ∉ mine s c → t.seg n = s.seg n) ∧ (∀ x, x / 2 ^ 21 ∉ mine s c → t.mem.read x = s.mem.read x) ∧ t.ports = s.ports ∧
      t.hub = s.hub) ∧
  (∀ (s : State) (r : Requester) (first n : BitVec 16) (c : ClaimId) (perm : BitVec 3),
    Safety.Writes s r .segCommand 0 0 0 (segWord n first 1 c.val perm.toNat) → segCodes (.assign c perm) first.toNat n.toNat s = [] →
    ∃ t, exec (.assign r first n c perm) s = .next t ∧ Safety.Counted s t r ∧
      t = { s with ports := t.ports, sec := { s.sec with segRun := some ⟨.assign c perm, first.toNat, first.toNat + n.toNat⟩, segStatus := .busy } }) ∧
  (∀ (s : State) (r : Requester) (first n : BitVec 16),
    Safety.Writes s r .segCommand 0 0 0 (segWord n first 2 0 0) → segCodes .clear first.toNat n.toNat s = [] →
    ∃ t, exec (.clear r first n) s = .next t ∧ Safety.Counted s t r ∧
      t = { s with ports := t.ports, sec := { s.sec with segRun := some ⟨.clear, first.toNat, first.toNat + n.toNat⟩, segStatus := .busy } }) ∧
  (∀ (s : State) (r : Requester) (first n : BitVec 16),
    Safety.Writes s r .segCommand 0 0 0 (segWord n first 3 0 0) → segCodes .revive first.toNat n.toNat s = [] →
    ∃ t, exec (.revive r first n) s = .next t ∧ Safety.Counted s t r ∧
      t = { s with ports := t.ports, sec := { s.sec with segRun := some ⟨.revive, first.toNat, first.toNat + n.toNat⟩, segStatus := .busy } }) ∧
  (∀ (s : State) (r : SegRun), s.sec.segRun = some r → (r.op = .clear → s.segServed r.next = true) →
    ∃ t, exec .segmentChange s = .next t ∧
      (t.seg r.next = match r.op with
        | .assign c perm => { s.seg r.next with claim := c, perm := perm }
        | .clear => { s.seg r.next with lost := false, scrubbed := true }
        | .revive => { s.seg r.next with lost := false }) ∧
      (∀ n, n ≠ r.next → t.seg n = s.seg n) ∧
      (if r.last ≤ r.next then t.sec.segRun = none ∧ t.sec.segStatus = .done else t.sec.segRun = some { r with next := r.next + 1 }) ∧
      (r.op = .clear → ∀ x, x / 2 ^ 21 = r.next → t.mem.read x = 0) ∧
      (∀ x, x / 2 ^ 21 ≠ r.next → t.mem.read x = s.mem.read x) ∧ (r.op ≠ .clear → t.mem = s.mem) ∧
      t.sec.claims = s.sec.claims ∧ t = { s with mem := t.mem, seams := t.seams, slices := t.slices, sec := t.sec })

/-- Sessions, reports, sealed streams and keys (R486 to R494): REPORT and UNWRAP read BUSY; a report made is READY, its leaf counted, its
length what R491 gives; a wrap blob that opens seals the claim under its model key and destroys the session's; an import or an export
makes its destination segments BUSY, and its end releases them: an import whose header and tags are right has written its plain text, an
export its sealed stream, and one whose memory was lost fails; an owner key is blown once; the DRBG is reseeded; a health failure takes
the crypto engine out of service. Where the spec leaves a point open the model chooses: log entries 11 and 48. -/
def Obligations.SessionsKeysAndStreams : Prop :=
  (∀ (s : State) (r : Requester) (c : ClaimId), Safety.Writes s r .sessionCommand c.val 0 0 1 → reportCodes s c = [] →
    ∃ t, exec (.report r c) s = .next t ∧ Safety.Counted s t r ∧
      (t.sec.claims = upd s.sec.claims c fun x => { x with wait := .report, sessState := .busy, sessCode := if s.sec.treeReady then 0 else 1 }) ∧
      t = { s with ports := t.ports, sec := { s.sec with claims := t.sec.claims } }) ∧
  (∀ (s : State) (c : ClaimId), (s.claim c).wait = .report → s.sec.treeReady = true → s.loadingInto c = false → s.nv.lmsUsed < 65536 →
    s.sec.reports < 32768 →
    ∃ t, exec (.reportReady c) s = .next t ∧ (t.claim c).sessState = .ready ∧ (t.claim c).sessCode = 0 ∧ (t.claim c).stale = false ∧
      (t.claim c).wait = .none ∧ (t.claim c).report.length = (t.claim c).reportE + 96 + 3444 ∧ t.sec.reports = s.sec.reports + 1 ∧
      t.sec.topLeaf.isSome = true ∧ (t.nv = { s.nv with lmsUsed := s.nv.lmsUsed + (if s.sec.topLeaf.isNone then 1 else 0) }) ∧
      (∀ d, d ≠ c → t.claim d = s.claim d) ∧ t.claimState c = s.claimState c ∧ t = { s with free := t.free, nv := t.nv, sec := t.sec }) ∧
  (∀ s : State, s.ready rCrypto = true →
    ∃ t, exec .lmsTreeReady s = .next t ∧ t.sec.treeReady = true ∧
      (∀ c : ClaimId, t.claim c = if (s.claim c).wait = .report then { s.claim c with sessCode := 0 } else s.claim c) ∧
      t = { s with sec := { s.sec with treeReady := true, claims := t.sec.claims } }) ∧
  (∀ (s : State) (r : Requester) (c : ClaimId), Safety.Writes s r .sessionCommand c.val 0 0 2 → unwrapCodes s c = [] →
    ∃ t, exec (.unwrap r c) s = .next t ∧ Safety.Counted s t r ∧
      (t.sec.claims = upd s.sec.claims c fun x => { x with wait := .unwrap, sessState := .busy, sessCode := 0 }) ∧
      t = { s with ports := t.ports, sec := { s.sec with claims := t.sec.claims } }) ∧
  (∀ (s : State) (c : ClaimId), (s.claim c).wait = .unwrap → s.loadingInto c = false →
    ∃ t, exec (.claimSealed c) s = .next t ∧ (t.claim c).wait = .none ∧ (∀ d, d ≠ c → t.claim d = s.claim d) ∧
      ((s.claim c).stale = true → t.claimState c = s.claimState c ∧ (t.claim c).sessState = .failed ∧ (t.claim c).sessCode = 4) ∧
      ((s.claim c).stale = false → (s.claim c).unwrapped = none → t.claimState c = s.claimState c ∧ (t.claim c).sessState = .failed ∧
        (t.claim c).sessCode = 5) ∧
      (∀ k, (s.claim c).stale = false → (s.claim c).unwrapped = some k → t.claimState c = .sealed ∧ (t.claim c).modelKey = some k ∧
        (t.claim c).sessionSecret = none ∧ (t.claim c).exportKey.isSome = true ∧ (t.claim c).sessState = .ready) ∧
      t = { s with sec := t.sec }) ∧
  (∀ (s : State) (r : Requester) (exporting : Bool), Safety.Writes s r .cryptStart 0 0 0 (if exporting then 2 else 1) →
    cryptCodes exporting s = [] →
    ∃ t, exec (if exporting then .exportData r else .importData r) s = .next t ∧ Safety.Counted s t r ∧ t.sec.cryptState = .busy ∧
      (∃ x, t.sec.crypt = some x ∧ x.exporting = exporting ∧ x.claim = s.cryptClaimId ∧ x.src = s.regN .cryptSrc ∧ x.dst = s.regN .cryptDst ∧
        x.len = s.regN .cryptLen ∧ x.lost = false ∧
        x.segs = segsOf (s.regN .cryptDst) (if exporting then streamLen (s.regN .cryptLen) else s.regN .cryptLen) ∧
        ∀ n, t.seg n = if n ∈ x.segs then { s.seg n with busy := true } else s.seg n) ∧
      t.sec.claims = s.sec.claims ∧ t = { s with ports := t.ports, sec := t.sec }) ∧
  (∀ (s : State) (x : CryptRun), s.sec.crypt = some x →
    ∃ t, exec .cryptDone s = .next t ∧ t.sec.crypt = none ∧ (t.sec.cryptState = if t.sec.cryptCode = 0 then .ready else .failed) ∧
      (∀ n, t.seg n = if n ∈ x.segs then { s.seg n with busy := false } else s.seg n) ∧ (x.lost = true → t.sec.cryptCode = 3) ∧
      (∀ c : ClaimId, t.claimState c = s.claimState c) ∧ t.hub = s.hub ∧ t.ports = s.ports ∧ t.boughs = s.boughs) ∧
  (∀ (s u v w : State) (x : CryptRun) (bs p : List Byte), s.sec.crypt = some x → x.exporting = false → x.lost = false →
    u = s.updSegs x.segs (fun e => { e with busy := false }) → u.readMem .host x.src (streamLen x.len) = (.ok bs, v) →
    importPlain (s.claim x.claim) x.len bs = .ok p → v.writeMem (.job x.claim) x.dst p = (none, w) →
    ∃ t, exec .cryptDone s = .next t ∧ t.sec.crypt = none ∧ t.sec.cryptState = .ready ∧ t.sec.cryptCode = 0 ∧ t.sec.cryptDone = x.len ∧
      t.mem = w.mem) ∧
  (∀ (s u v w y : State) (x : CryptRun) (p pre : List Byte), s.sec.crypt = some x → x.exporting = true → x.lost = false →
    u = s.updSegs x.segs (fun e => { e with busy := false }) → u.readMem (.job x.claim) x.src x.len = (.ok p, v) →
    v.drbgTake 8 = (pre, w) →
    (w.updClaim x.claim fun c => { c with exports := c.exports + 1 }).writeMem .host x.dst (streamHead 1 x.len pre ++
      sealChunks ((s.claim x.claim).exportKey.getD []) (streamHead 1 x.len pre) (x.len + 1) 0 p) = (none, y) →
    ∃ t, exec .cryptDone s = .next t ∧ t.sec.crypt = none ∧ t.sec.cryptState = .ready ∧ t.sec.cryptCode = 0 ∧ t.sec.cryptDone = x.len ∧
      (t.claim x.claim).exports = (s.claim x.claim).exports + 1 ∧ t.mem = y.mem) ∧
  (∀ (s : State) (r : Requester) (data : List Byte), s.serves r = true → data.length = 49 →
    Safety.Commits (s.updBlk r fun b => b.put 0 data) r ⟨BitVec.ofNat 16 (Ob.ownerKeyProgram.index 0 0), BitVec.ofNat 8 (Ob.ownerKeyProgram.subindex 0),
      0, 0, 49, none⟩ ⟨⟨.ownerKeyProgram, 0, 0, 0⟩, none⟩ true →
    s.nv.ownerDigest[(Fin.ofNat 4 (leAt data 0 1 - 12))] = none →
    ∃ t, exec (.ownerKeyProgram r data) s = .next t ∧
      t.nv = { s.nv with ownerDigest := upd s.nv.ownerDigest (Fin.ofNat 4 (leAt data 0 1 - 12)) fun _ => some (slice data 1 48) } ∧
      (t.port r).blk.state = .ready ∧ (t.port r).done = (s.port r).done + 1 ∧ t = { s with ports := t.ports, nv := t.nv }) ∧
  (∀ (s : State) (data : List Byte), 12 ≤ leAt data 0 1 → leAt data 0 1 ≤ 15 →
    s.nv.ownerDigest[(Fin.ofNat 4 (leAt data 0 1 - 12))].isSome = true → 0xA400 ∈ ownerKeyCodes data s) ∧
  (∀ s : State, 2 ^ 20 ≤ s.sec.drbgRequests →
    exec .drbgReseed s = .next { s with sec := { s.sec with drbgRequests := 0, reseeds := s.sec.reseeds + 1 } }) ∧
  (∀ s : State, s.porstLow = false → ∃ t, exec .entropyHealthFail s = .next t ∧ t.ready rCrypto = false ∧ t.readyFailed.getLsbD rCrypto = true ∧
      (∀ i, i ≠ rCrypto → i < 64 → (presentReady s.grade).getLsbD i = true → t.ready i = s.ready i) ∧
      t.mem = s.mem ∧ t.sec = s.sec ∧ t.hub = s.hub ∧ t.ports = s.ports ∧ t.objs = s.objs)

/- Links, the grove and PCIe. -/

/-- Uteel links (R520, R523 to R527, R535, R536): an enable starts training, whose good end brings the link up with the peer it met and
new keys, and whose failure, also of authentication or by a peer of this part's own member number, takes it DOWN; disabling turns it off
and fencing fences it, and both destroy its keys and take it out of service; a member's fence answers every request to it; a flit in
sequence is received and counted, a negative acknowledgement starts a replay, a bad CRC is negatively acknowledged, the sixteenth in a row
retrains, and a bad tag fences the link; a retrain that succeeds resumes, and a third that fails takes the link DOWN; a worn lane goes to
the spare; new keys replace the old after 2^35 ns, or the link goes DOWN. Where the spec leaves a point open the model chooses: log
entries 21 and 34. -/
def Obligations.LinksTrainCarryAndFence : Prop :=
  let others := fun (s t : State) (k : LinkId) => ∀ j, j ≠ k → t.linkUnits[j] = s.linkUnits[j]
  let keeps := fun (s t : State) => t.mem = s.mem ∧ t.sec.segs = s.sec.segs ∧ t.sec.claims = s.sec.claims ∧ t.hub = s.hub ∧ t.boughs = s.boughs
  (∀ (s : State) (r : Requester) (k : LinkId) (d : Bool), Safety.Writes s r .linkControl k.val 0 0 (BitVec.ofNat 64 (1 + bitN d 2)) →
    linkControlCodes k (1 + bitN d 2) s = [] → s.linkUnits[k].enable = false →
    ∃ t, exec (.linkEnable r k d) s = .next t ∧ Safety.Counted s t r ∧ t.linkUnits[k].state = .training ∧ t.linkUnits[k].enable = true ∧
      t.linkUnits[k].dateline = d ∧ t.linkUnits[k].fence = false ∧ others s t k ∧ t = { s with ports := t.ports, linkUnits := t.linkUnits }) ∧
  (∀ (s : State) (k : LinkId) (m : Fin 16) (p : Nat) (serial : Word), s.linkUnits[k].state = .training → s.foremanRuns 3 = true →
    m.val ≠ s.member → k.val < linksOf s.grade →
    ∃ t, exec (.linkUp k (.up m p serial)) s = .next t ∧ t.linkUnits[k].state = .up ∧ t.linkUnits[k].peerMember = m.val ∧
      t.linkUnits[k].protocol = min 2 p ∧ t.linkUnits[k].peerSerial = serial ∧ t.linkUnits[k].keys.isSome = true ∧
      t.linkUnits[k].rxSeq = 0 ∧ t.linkUnits[k].txSeq = 0 ∧ t.ready (rLink k.val) = true ∧ others s t k ∧ keeps s t ∧ t.ports = s.ports) ∧
  (∀ (s : State) (k : LinkId), s.linkUnits[k].state = .training → s.foremanRuns 3 = true → k.val < linksOf s.grade →
    ∃ t, exec (.linkUp k .trainingFails) s = .next t ∧ t.linkUnits[k].state = .down ∧ t.linkUnits[k].downReason = 1 ∧
      t.linkUnits[k].keys = none ∧ t.ready (rLink k.val) = false ∧ t.readyFailed.getLsbD (rLink k.val) = true ∧ others s t k ∧ keeps s t) ∧
  (∀ (s : State) (k : LinkId) (o : LinkOutcome), s.linkUnits[k].state = .training → s.foremanRuns 3 = true → k.val < linksOf s.grade →
    (o = .authFails ∨ ∃ m p serial, o = .up m p serial ∧ m.val = s.member) →
    ∃ t, exec (.linkUp k o) s = .next t ∧ t.linkUnits[k].state = .down ∧ t.linkUnits[k].downReason = (if o = .authFails then 3 else 4) ∧
      t.linkUnits[k].keys = none ∧ t.ready (rLink k.val) = false ∧ t.readyFailed.getLsbD (rLink k.val) = true ∧ others s t k ∧ keeps s t) ∧
  (∀ (s : State) (r : Requester) (k : LinkId) (d : Bool), Safety.Writes s r .linkControl k.val 0 0 (BitVec.ofNat 64 (bitN d 2)) →
    linkControlCodes k (bitN d 2) s = [] → s.linkUnits[k].enable = true →
    ∃ t, exec (.linkDisable r k d) s = .next t ∧ t.linkUnits[k].state = .off ∧ t.linkUnits[k].enable = false ∧ t.linkUnits[k].keys = none ∧
      t.ready (rLink k.val) = false ∧ (∀ o ∈ t.grove.outstanding, o.link = some k → o.answer.isSome = true) ∧
      (∀ x ∈ t.grove.waiting, x.link ≠ k) ∧ others s t k ∧ keeps s t ∧ (s.grove.pairs = [] → Safety.Counted s t r)) ∧
  (∀ (s : State) (r : Requester) (k : LinkId), Safety.Writes s r .linkControl k.val 0 0 (BitVec.ofNat 64 (s.linkUnits[k].control ||| 2)) →
    linkControlCodes k (s.linkUnits[k].control ||| 2) s = [] → s.linkUnits[k].enable = true → s.linkUnits[k].fence = false →
    s.linkUnits[k].state ≠ .down →
    ∃ t, exec (.linkFence r k) s = .next t ∧ t.linkUnits[k].state = .fenced ∧ t.linkUnits[k].fence = true ∧ t.linkUnits[k].keys = none ∧
      t.ready (rLink k.val) = false ∧ (∀ o ∈ t.grove.outstanding, o.link = some k → o.answer.isSome = true) ∧ others s t k ∧ keeps s t) ∧
  (∀ (s : State) (r : Requester) (v : Word), Safety.Writes s r .groveMemberFence 0 0 0 v → memberFenceCodes v.toNat s = [] →
    ∃ t, exec (.memberFence r v) s = .next t ∧ t.reg .groveMemberFence = v ∧
      (∀ o ∈ t.grove.outstanding, o.link.isSome = true → v.getLsbD o.member = true → o.answer.isSome = true) ∧
      t.linkUnits = s.linkUnits ∧ keeps s t) ∧
  (∀ (s : State) (k : LinkId) (f : Flit), s.linkUnits[k].state = .up → s.linkUnits[k].retraining = false → f.crcOk = true → f.tagOk = true →
    f.kind ≠ 2 → f.seq = s.linkUnits[k].rxSeq →
    ∃ t, exec (.flitReceive k f) s = .next t ∧ t.linkUnits[k].rxSeq = s.linkUnits[k].rxSeq + 1 ∧ t.linkUnits[k].naks = 0 ∧
      t.reg .linkFlits k.val = s.reg .linkFlits k.val + 1 ∧ keeps s t ∧ t.ports = s.ports ∧ t.sec = s.sec) ∧
  (∀ (s : State) (k : LinkId) (f : Flit), s.linkUnits[k].state = .up → s.linkUnits[k].retraining = false → f.crcOk = true → f.tagOk = true →
    f.kind ≠ 2 → f.seq ≠ s.linkUnits[k].rxSeq →
    ∃ t, exec (.flitReceive k f) s = .next t ∧ t.linkUnits[k].rxSeq = s.linkUnits[k].rxSeq ∧ others s t k ∧
      t = { s with linkUnits := t.linkUnits }) ∧
  (∀ (s : State) (k : LinkId) (f : Flit), s.linkUnits[k].state = .up → s.linkUnits[k].retraining = false → f.crcOk = true → f.tagOk = true →
    f.kind = 2 →
    ∃ t, exec (.flitReceive k f) s = .next t ∧ t.reg .linkReplays k.val = s.reg .linkReplays k.val + 1 ∧
      t.linkUnits[k].rxSeq = s.linkUnits[k].rxSeq ∧
      t.linkUnits[k].retraining = (15 ≤ s.linkUnits[k].naksIn && s.linkUnits[k].nakFor = f.ack) ∧ keeps s t ∧ t.ports = s.ports ∧ t.sec = s.sec) ∧
  (∀ (s : State) (k : LinkId) (f : Flit), s.linkUnits[k].state = .up → s.linkUnits[k].retraining = false → f.crcOk = false →
    16 ≤ s.linkUnits[k].naks + 1 →
    ∃ t, exec (.flitReceive k f) s = .next t ∧ t.linkUnits[k].retraining = true ∧ t.linkUnits[k].naks = 0 ∧
      t.reg .linkRetrains k.val = s.reg .linkRetrains k.val + 1 ∧ others s t k ∧ t = { s with objs := t.objs, linkUnits := t.linkUnits }) ∧
  (∀ (s : State) (k : LinkId) (f : Flit), s.linkUnits[k].state = .up → s.linkUnits[k].retraining = false → f.crcOk = false →
    s.linkUnits[k].naks + 1 < 16 →
    ∃ t, exec (.flitReceive k f) s = .next t ∧ t.linkUnits[k].naks = s.linkUnits[k].naks + 1 ∧
      t.linkUnits[k].rxSeq = s.linkUnits[k].rxSeq ∧ others s t k ∧ t = { s with linkUnits := t.linkUnits }) ∧
  (∀ (s : State) (k : LinkId) (f : Flit), s.linkUnits[k].state = .up → s.linkUnits[k].retraining = false → f.crcOk = true →
    f.tagOk = false →
    ∃ t, exec (.flitReceive k f) s = .next t ∧ t.linkUnits[k].state = .fenced ∧ t.linkUnits[k].keys = none ∧ t.ready (rLink k.val) = false ∧
      others s t k ∧ keeps s t) ∧
  (∀ (s : State) (k : LinkId), s.linkUnits[k].retraining = true →
    ∃ t, exec (.linkRetrainDone k true) s = .next t ∧ t.linkUnits[k].retraining = false ∧ t.linkUnits[k].retrainsInRow = 0 ∧ keeps s t ∧
      t.ports = s.ports ∧ t.objs = s.objs) ∧
  (∀ (s : State) (k : LinkId), s.linkUnits[k].retraining = true → s.linkUnits[k].retrainsInRow + 1 < 3 →
    ∃ t, exec (.linkRetrainDone k false) s = .next t ∧ t.linkUnits[k].retrainsInRow = s.linkUnits[k].retrainsInRow + 1 ∧
      t.linkUnits[k].retraining = true ∧ t.reg .linkRetrains k.val = s.reg .linkRetrains k.val + 1 ∧ others s t k ∧ keeps s t) ∧
  (∀ (s : State) (k : LinkId), s.linkUnits[k].retraining = true → 3 ≤ s.linkUnits[k].retrainsInRow + 1 →
    ∃ t, exec (.linkRetrainDone k false) s = .next t ∧ t.linkUnits[k].state = .down ∧ t.linkUnits[k].downReason = 2 ∧
      t.linkUnits[k].keys = none ∧ others s t k ∧ keeps s t) ∧
  (∀ (s : State) (k : LinkId) (lane : Fin 8), s.linkUnits[k].state = .up → s.linkUnits[k].retraining = false → s.foremanRuns 3 = true →
    64 ≤ (s.linkUnits[k].laneErrors[lane].filter fun t => (s.now - t).toNat < 1000000000).length → s.linkUnits[k].spareFor = 15 →
    ∃ t, exec (.laneRepaired k lane) s = .next t ∧ t.linkUnits[k].spareFor = lane.val ∧ t.linkUnits[k].laneErrors[lane] = [] ∧
      t.linkUnits[k].state = .up ∧ others s t k ∧ keeps s t ∧ t.ports = s.ports) ∧
  (∀ (s : State) (k : LinkId), s.linkUnits[k].state = .up → 2 ^ 35 ≤ (s.now - s.linkUnits[k].keyAt).toNat →
    ∃ t, exec (.linkRekey k true) s = .next t ∧ t.linkUnits[k].keyGeneration = s.linkUnits[k].keyGeneration + 1 ∧
      t.linkUnits[k].keyAt = s.now ∧ t.linkUnits[k].keys.isSome = true ∧ others s t k ∧ keeps s t ∧ t = { s with linkUnits := t.linkUnits, sec := t.sec }) ∧
  (∀ (s : State) (k : LinkId), s.linkUnits[k].state = .up → 2 ^ 35 ≤ (s.now - s.linkUnits[k].keyAt).toNat →
    ∃ t, exec (.linkRekey k false) s = .next t ∧ t.linkUnits[k].state = .down ∧ t.linkUnits[k].downReason = 3 ∧
      t.linkUnits[k].keys = none ∧ others s t k ∧ keeps s t)

/-- The grove (R530 to R536): a read or a write of another member in a claim that its peer_claims admits is answered with what memory
gives, a write of the signal page adds to the counters it names; one in another claim is answered ACCESS and touches nothing; one for a
third member is forwarded, or answered FENCED where there is no way; an answer finds the request it belongs to; peer_claims is kept at
once where no claim needs a pairing, and once the pairing has ended well where one does; a time exchange steps a timebase that is behind,
once. Where the spec leaves a point open the model chooses: log entries 22 and 35. -/
def Obligations.GroveRequestsAreAnswered : Prop :=
  let here := fun (s : State) (k : LinkId) (x : LinkTxn) =>
    s.txnTaken k x = true ∧ x.dest.val = s.member
  let admitted := fun (s : State) (x : LinkTxn) => (s.reg .peerClaims x.source.val).getLsbD x.claim.val
  (∀ (s u : State) (k : LinkId) (x : LinkTxn) (bs : List Byte), here s k x → admitted s x = true →
    s.readMem (.peer x.claim) x.addr x.len = (.ok bs, u) →
    ∃ t, exec (.readReq k x) s = .next t ∧ t = u.answerTxn .readCpl x .ok bs ∧ t.mem = s.mem ∧ t.sec = s.sec ∧ t.hub = s.hub) ∧
  (∀ (s : State) (k : LinkId) (x : LinkTxn), here s k x → admitted s x = false →
    exec (.readReq k x) s = .next (s.answerTxn .readCpl x .access []) ∧
    exec (.writeTransaction k x) s = .next (s.answerTxn .writeAck x .access [])) ∧
  (∀ (s u : State) (k : LinkId) (x : LinkTxn) (f : MemFail), here s k x → admitted s x = true →
    s.readMem (.peer x.claim) x.addr x.len = (.error f, u) →
    exec (.readReq k x) s = .next (u.answerTxn .readCpl x (peerFail f) [])) ∧
  (∀ (s u : State) (k : LinkId) (x : LinkTxn), here s k x → admitted s x = true → s.inSignalPage x.addr = false →
    s.peerWrite x.claim x.addr x.data = (none, u) → exec (.writeTransaction k x) s = .next (u.answerTxn .writeAck x .ok [])) ∧
  (∀ (s u : State) (k : LinkId) (x : LinkTxn) (f : MemFail), here s k x → admitted s x = true → s.inSignalPage x.addr = false →
    s.peerWrite x.claim x.addr x.data = (some f, u) → exec (.writeTransaction k x) s = .next (u.answerTxn .writeAck x (peerFail f) [])) ∧
  (∀ (s : State) (k : LinkId) (x : LinkTxn), here s k x → admitted s x = true → s.inSignalPage x.addr = false → x.addr % 64 = 0 →
    x.addr < 2 ^ 37 → x.data.length = 64 → s.checkDram (.peer x.claim) .write x.addr = none →
    ∃ t u : State, exec (.writeTransaction k x) s = .next t ∧ t = u.answerTxn .writeAck x .ok [] ∧ t.mem.readBytes x.addr 64 = x.data ∧
      (∀ a, a < x.addr ∨ x.addr + 64 ≤ a → t.mem.read a = s.mem.read a) ∧ t.sec = s.sec ∧ t.hub = s.hub ∧ t.boughs = s.boughs) ∧
  (∀ (s : State) (k : LinkId) (x : LinkTxn) (i : Nat) (b : BoughId), here s k x → admitted s x = true → s.inSignalPage x.addr = true →
    x.addr = s.regN .groveSignalBase + 4 * i → x.data.length = 4 → i < 4096 → leNat x.data ≠ 0 → b = Fin.ofNat 4 (i / 1024) →
    ∃ t u : State, exec (.writeTransaction k x) s = .next t ∧
      (if s.blockClaim false b (i % 1024 / 64) = x.claim.val then
        u = s.addEvent b (i % 1024) (leNat x.data) ∧ t = u.wake.answerTxn .writeAck x .ok []
      else t = s.wake.answerTxn .writeAck x .access [])) ∧
  (∀ (s : State) (k : LinkId) (x : LinkTxn), s.txnTaken k x = true → x.dest.val ≠ s.member → (s.linkTo x.dest.val).isSome = true →
    exec (.readReq k x) s = .next (s.routeTxn .readReq x .ok) ∧ exec (.writeTransaction k x) s = .next (s.routeTxn .write x .ok)) ∧
  (∀ (s : State) (k : LinkId) (x : LinkTxn), s.txnTaken k x = true → x.dest.val ≠ s.member → (s.linkTo x.dest.val).isSome = false →
    exec (.readReq k x) s = .next (s.answerTxn .readCpl x .fenced []) ∧
    exec (.writeTransaction k x) s = .next (s.answerTxn .writeAck x .fenced [])) ∧
  (∀ (s : State) (k : LinkId) (x : LinkTxn) (a : PeerAnswer) (w : Bool), here s k x →
    exec (if w then .writeAck k x a else .readCpl k x a) s = .next { s with grove := { s.grove with
      outstanding := s.grove.outstanding.map fun o =>
        if o.tag = x.tag ∧ o.link.isSome = true ∧ o.member = x.source.val ∧ o.isWrite = w ∧ o.answer.isNone = true then
          { o with answer := some (a, x.data) } else o } }) ∧
  (∀ (s : State) (r : Requester) (m : Fin 16) (v : Word), Safety.Writes s r .peerClaims m.val 0 0 v → peerClaimsCodes m v.toNat s = [] →
    s.toPair m v.toNat = [] →
    ∃ t, exec (.peerClaimsWrite r m v) s = .next t ∧ Safety.Counted s t r ∧ t.reg .peerClaims m.val = v ∧
      Safety.KeepsRegs s t [Ob.key .peerClaims m.val 0 0] ∧ t = { s with ports := t.ports, objs := t.objs }) ∧
  (∀ (s : State) (r : Requester) (m : Fin 16) (v : Word), Safety.Writes s r .peerClaims m.val 0 0 v → peerClaimsCodes m v.toNat s = [] →
    s.toPair m v.toNat ≠ [] →
    ∃ t, exec (.peerClaimsWrite r m v) s = .next t ∧ t.reg .peerClaims m.val = s.reg .peerClaims m.val ∧
      t = { s with grove := { s.grove with pairs := s.grove.pairs ++ [⟨m, r, BitVec.ofNat 16 v.toNat, s.toPair m v.toNat⟩] } }) ∧
  (∀ (s : State) (m : Fin 16) (c : ClaimId) (w : PairWait) (ok : Bool) (tag key : List Byte), s.grove.pairs = [w] → w.member = m → w.left = [c] →
    (s.claim c).modelKey = some key →
    ∃ t, exec (.pair m c ok tag) s = .next t ∧ t.grove.pairs = [] ∧
      (if ok = true ∧ s.pairTag key m.val = tag then t.reg .peerClaims m.val = w.value.setWidth 64 ∧ (t.port w.requester).done = (s.port w.requester).done + 1
      else t.reg .peerClaims m.val = s.reg .peerClaims m.val ∧ (t.port w.requester).refused = (s.port w.requester).refused + 1 ∧
        (t.port w.requester).lastCode = 0xA202) ∧ t.mem = s.mem ∧ t.sec = s.sec ∧ t.hub = s.hub) ∧
  (∀ (s : State) (offset : Int), s.timeLink.isSome = true → s.due s.grove.timeAt 1000000 = true →
    ∃ t, exec (.timeExchange offset) s = .next t ∧ t.grove.stepped = true ∧ t.grove.timeAt = some s.now ∧ t.grove.timeOffset = satS16 offset ∧
      (t.now = if s.grove.stepped = false ∧ 0 < offset then s.now + BitVec.ofInt 64 offset else s.now) ∧
      (s.grove.stepped = true → t.grove.rate = if 0 < offset then 200 else if offset < 0 then -200 else 0) ∧
      t = { s with free := t.free, now := t.now, grove := t.grove })

/-- The PCIe port (R377, R540 to R544): through a port that is up, BAR0 reaches the host window, BAR2 the queue window and BAR4 the MSI-X
table, and any other bar, or a memory request of the endpoint's host, is an Unsupported Request; a device's request in root-port mode
reaches segments that host cores reach, or is answered a failed access; an uncorrectable error is counted; a request that has no
completion for 50 ms ends as a failed access; a reset of the function clears its MSI-X state, and with the link lost takes PCIE_READY
away; a port that trains reports ready. Where the spec leaves a point open the model chooses: log entries 30 and 58. -/
def Obligations.PciePortServesRequests : Prop :=
  (∀ (s : State) (off : Nat) (v : BitVec 32), s.porstLow = false → s.pcie.up[(0 : Fin 2)] = true → s.pcie.strap = 0 → off < 1040 → off % 16 = 8 →
    s.pcie.pendingBits = 0 →
    ∃ t, exec (.pcieInboundRequest (.barAccess 4 off 4 (some (v.setWidth 64)))) s = .next t ∧
      t.pcie.msix = upd s.pcie.msix (Fin.ofNat 65 (off / 16)) (fun e => { e with data := v }) ∧ t.pcie.answer = .success [] ∧
      (∃ u, exec (.pcieInboundRequest (.barAccess 4 off 4 none)) t = .next u ∧ u.pcie.answer = .success (leBytes 4 v.toNat) ∧
        u.pcie.msix = t.pcie.msix) ∧ t = { s with pcie := t.pcie }) ∧
  (∀ (s : State) (off width : Nat) (v : Word), s.porstLow = false → s.pcie.up[(0 : Fin 2)] = true → s.pcie.strap = 0 →
    s.serves .pcie = true → 0 < width → off + width ≤ 0x10000000 →
    exec (.pcieInboundRequest (.barAccess 0 off width (some v))) s = .next ((windowStore .pcie off width v s).tlpAnswer (.success [])) ∧
    exec (.pcieInboundRequest (.barAccess 0 off width none)) s =
      .next ((windowLoad .pcie off width s).tlpAnswer (.success ((windowLoad .pcie off width s).port .pcie).out))) ∧
  (∀ (s : State) (off width : Nat) (v : Word), s.porstLow = false → s.pcie.up[(0 : Fin 2)] = true → s.pcie.strap = 0 →
    s.serves .pcie = true → 0 < width → off + width ≤ 0x400000 →
    exec (.pcieInboundRequest (.barAccess 2 off width (some v))) s = .next ((queueStore .pcie off width v s).tlpAnswer (.success [])) ∧
    exec (.pcieInboundRequest (.barAccess 2 off width none)) s = .next (s.tlpAnswer (.success (leBytes width (s.queueLoad off width))))) ∧
  (∀ (s : State) (q : PcieTlp), s.porstLow = false → s.pcie.up[(0 : Fin 2)] = true → s.pcie.strap = 0 →
    ((∃ bar off width w, q = .barAccess bar off width w ∧ bar ≠ 0 ∧ bar ≠ 2 ∧ bar ≠ 4) ∨ (∃ a n, q = .memRead 0 a n) ∨
      ∃ a bs, q = .memWrite 0 a bs) →
    ∃ t, exec (.pcieInboundRequest q) s = .next t ∧ t.pcie.answer = .unsupported ∧
      t.reg .pcieErrors = s.reg .pcieErrors + 1 ∧ t.mem = s.mem ∧ t.sec = s.sec ∧ t.hub = s.hub) ∧
  (∀ (s u : State) (port : Fin 2) (a n : Nat) (bs : List Byte), s.porstLow = false → s.pcie.up[port] = true → s.pcie.strap ≠ 0 →
    a + n ≤ 2 ^ 37 → s.readMem .pcieDevice a n = (.ok bs, u) →
    exec (.pcieInboundRequest (.memRead port a n)) s = .next { u with pcie := { u.pcie with answer := .success bs } }) ∧
  (∀ (s u : State) (port : Fin 2) (a : Nat) (bs : List Byte), s.porstLow = false → s.pcie.up[port] = true → s.pcie.strap ≠ 0 →
    a + bs.length ≤ 2 ^ 37 → s.writeMem .pcieDevice a bs = (none, u) →
    exec (.pcieInboundRequest (.memWrite port a bs)) s = .next { u with pcie := { u.pcie with answer := .success [] } }) ∧
  (∀ (s : State) (port : Fin 2) (a n : Nat) (f : MemFail), s.porstLow = false → s.pcie.up[port] = true → s.pcie.strap ≠ 0 → a % 64 = 0 →
    0 < n → n ≤ 64 → a + 64 ≤ 2 ^ 37 → s.checkDram .pcieDevice .read a = some f →
    ∃ t, exec (.pcieInboundRequest (.memRead port a n)) s = .next t ∧ t.pcie.answer = .completerAbort ∧
      t.reg .pcieErrors = s.reg .pcieErrors + 1 ∧ t.mem = s.mem ∧ t.sec = s.sec) ∧
  (∀ (s : State), s.porstLow = false → (s.pcie.up[(0 : Fin 2)] = true ∨ s.pcie.up[(1 : Fin 2)] = true) →
    ∃ t, exec (.pcieInboundRequest .uncorrectableError) s = .next t ∧ t.reg .pcieErrors = s.reg .pcieErrors + 1 ∧
      t.pcie.up = s.pcie.up ∧ t.pcie.answer = s.pcie.answer ∧ t.pcie.msix = s.pcie.msix ∧ t.mem = s.mem ∧ t.sec = s.sec ∧ t.hub = s.hub) ∧
  (∀ (s : State) (tag : Nat), exec (.pcieCompletionTimeout tag) s = .next { s with grove := { s.grove with
      outstanding := s.grove.outstanding.map fun o =>
        if o.tag = tag ∧ o.link = none ∧ o.answer = none ∧ 50000000 ≤ (s.now - o.sentAt).toNat then { o with answer := some (.access, []) } else o } }) ∧
  (∀ (s : State) (k : PcieResetKind), s.pcie.strap = 0 →
    ∃ t, exec (.pcieLinkReset k) s = .next t ∧ t.pcie.msix = Vector.replicate 65 {} ∧
      (∀ v, v < 64 → t.pcie.pendingBits.getLsbD v = false) ∧
      (k = .hotReset ∨ k = .linkLoss → (∀ p : Fin 2, t.pcie.up[p] = false) ∧ t.ready rPcie = false ∧
        ∀ o ∈ t.grove.outstanding, o.link = none → o.answer.isSome = true) ∧
      (k = .flr ∨ k = .d3hot → t = { s with pcie := t.pcie } ∧ t.pcie.up = s.pcie.up ∧ t.pcie.pendingBits = 0) ∧
      t.mem = s.mem ∧ t.sec = s.sec ∧ t.hub = s.hub ∧ t.objs = s.objs ∧ t.ports = s.ports) ∧
  (∀ (s : State) (port : Fin 2) (width speed : BitVec 4), s.porstLow = false → s.crown ≠ .powerOn → s.pcie.strap ≠ 3 →
    (port = 1 → s.pcie.strap = 2) → s.power.domainOff.getLsbD 98 = false →
    ∃ t, exec (.pcieLinkUp port width speed) s = .next t ∧ t.pcie.up[port] = true ∧ t.pcie.width[port] = width ∧ t.pcie.speed[port] = speed ∧
      t.ready rPcie = true ∧ t.mem = s.mem ∧ t.sec = s.sec ∧ t.hub = s.hub ∧ t.objs = s.objs ∧ t.ports = s.ports)
end

