-- ==== Sys2Proof/Laws/Memory.lean ====
section
/-! SUPPORT. Sparse maps and memory: what a read gives after a write, and that every operation keeps the canonical form. -/
namespace Sys2Proof.Machine

variable {α : Type} [DecidableEq α] {d : α}

/- Reads after writes. -/

omit [DecidableEq α] in
theorem SMap.get_insert (m : SMap α) (k j : Nat) (v : α) :
    SMap.get d (SMap.insert m k v) j = if j = k then v else SMap.get d m j := by
  induction m with
  | nil => simp [SMap.insert, SMap.get, eq_comm]
  | cons c m ih =>
    obtain ⟨i, w⟩ := c
    simp only [SMap.insert]
    split
    · simp [SMap.get, eq_comm]
    · split
      · rename_i e; subst e; by_cases h : i = j
        · subst h; simp [SMap.get]
        · have : j ≠ i := fun e => h e.symm
          simp [SMap.get, h, this]
      · by_cases h : i = j
        · subst h; rename_i hne; simp [SMap.get, hne]
        · simp [SMap.get, h, ih]

omit [DecidableEq α] in
theorem SMap.get_erase (m : SMap α) (k j : Nat) :
    SMap.get d (SMap.erase m k) j = if j = k then d else SMap.get d m j := by
  induction m with
  | nil => simp [SMap.erase, SMap.get]
  | cons c m ih =>
    obtain ⟨i, w⟩ := c
    simp only [SMap.erase] at ih
    by_cases h : i = k
    · by_cases hj : j = k
      · rw [if_pos hj] at ih ⊢; subst hj; simpa [SMap.erase, h] using ih
      · have : k ≠ j := fun e => hj e.symm
        simp [SMap.erase, SMap.get, h, ih, hj, this]
    · by_cases hj : i = j
      · subst hj; simp [SMap.erase, SMap.get, h]
      · simp [SMap.erase, SMap.get, h, hj, ih]

/-- A sparse map reads what was written where it was written, and is unchanged elsewhere. -/
@[simp] theorem SMap.get_set (m : SMap α) (k j : Nat) (v : α) :
    SMap.get d (SMap.set d m k v) j = if j = k then v else SMap.get d m j := by
  unfold SMap.set
  split
  · subst_vars; exact SMap.get_erase m k j
  · exact SMap.get_insert m k j v

/-- A byte reads as written at its own address, and as before at any other. -/
@[simp] theorem Memory.read_write (m : Memory) (a x : Nat) (b : Byte) :
    (m.write a b).read x = if x = a then b else m.read x := SMap.get_set m a x b

/-- Bytes outside the written range read as before. -/
theorem Memory.read_writeBytes_outside (m : Memory) (a x : Nat) (bs : List Byte) (h : x < a ∨ a + bs.length ≤ x) :
    (m.writeBytes a bs).read x = m.read x := by
  induction bs generalizing m a with
  | nil => rfl
  | cons b bs ih =>
    have hx : x ≠ a := by simp at h; omega
    rw [Memory.writeBytes, ih _ _ (by simp at h; omega), Memory.read_write, if_neg hx]

/-- The i-th byte written reads back. -/
theorem Memory.read_writeBytes_inside (m : Memory) (a i : Nat) (bs : List Byte) (h : i < bs.length) :
    (m.writeBytes a bs).read (a + i) = bs[i] := by
  induction bs generalizing m a i with
  | nil => simp at h
  | cons b bs ih =>
    cases i with
    | zero =>
      rw [Memory.writeBytes, Memory.read_writeBytes_outside _ _ _ _ (Or.inl (by omega)), Nat.add_zero, Memory.read_write]
      simp
    | succ i =>
      have e : a + (i + 1) = a + 1 + i := by omega
      rw [Memory.writeBytes, e, ih _ _ _ (by simpa using h)]
      simp

/-- A cleared range reads as unlisted, and the rest as before. -/
theorem Memory.read_clear (m : Memory) (lo hi x : Nat) :
    (m.clear lo hi).read x = if lo ≤ x ∧ x < hi then Memory.unlisted else m.read x := by
  unfold Memory.clear Memory.read
  induction m with
  | nil => simp [SMap.get]
  | cons c m ih =>
    obtain ⟨j, v⟩ := c
    rw [List.filter_cons]
    by_cases e : j = x
    · subst e
      split
      · rename_i hp; simp only [Bool.or_eq_true, decide_eq_true_eq] at hp
        rw [if_neg (by omega)]; simp [SMap.get]
      · rename_i hp; simp only [Bool.or_eq_true, decide_eq_true_eq] at hp
        rw [ih, if_pos (by omega), if_pos (by omega)]
    · split <;> simp [SMap.get, e, ih]

/- The canonical form. -/

theorem SMap.okFrom_mono {lo hi : Nat} {m : SMap α} (h : SMap.okFrom d hi m = true) (hl : lo ≤ hi) :
    SMap.okFrom d lo m = true := by
  cases m with
  | nil => rfl
  | cons c m => simp only [SMap.okFrom, Bool.and_eq_true, decide_eq_true_eq] at h ⊢; exact ⟨⟨by omega, h.1.2⟩, h.2⟩

theorem SMap.okFrom_filter {lo : Nat} {m : SMap α} (p : Nat × α → Bool) (h : SMap.okFrom d lo m = true) :
    SMap.okFrom d lo (m.filter p) = true := by
  induction m generalizing lo with
  | nil => rfl
  | cons c m ih =>
    simp only [SMap.okFrom, Bool.and_eq_true, decide_eq_true_eq] at h
    by_cases hp : p c = true
    · rw [List.filter_cons_of_pos hp]
      simp only [SMap.okFrom, Bool.and_eq_true, decide_eq_true_eq]
      exact ⟨h.1, ih h.2⟩
    · rw [List.filter_cons_of_neg hp]
      exact SMap.okFrom_mono (ih h.2) (by omega)

theorem SMap.okFrom_insert {lo k : Nat} {v : α} {m : SMap α} (h : SMap.okFrom d lo m = true) (hk : lo ≤ k) (hv : v ≠ d) :
    SMap.okFrom d lo (SMap.insert m k v) = true := by
  induction m generalizing lo with
  | nil => simp [SMap.insert, SMap.okFrom, hk, hv]
  | cons c m ih =>
    obtain ⟨j, w⟩ := c
    simp only [SMap.okFrom, Bool.and_eq_true, decide_eq_true_eq] at h
    simp only [SMap.insert]
    split
    · simp only [SMap.okFrom, Bool.and_eq_true, decide_eq_true_eq]
      exact ⟨⟨hk, hv⟩, ⟨by omega, h.1.2⟩, h.2⟩
    · split
      · subst_vars
        simp only [SMap.okFrom, Bool.and_eq_true, decide_eq_true_eq]
        exact ⟨⟨hk, hv⟩, h.2⟩
      · simp only [SMap.okFrom, Bool.and_eq_true, decide_eq_true_eq]
        exact ⟨h.1, ih h.2 (by omega)⟩

/-- A write keeps a sparse map canonical. -/
theorem SMap.ok_set {m : SMap α} {k : Nat} {v : α} (h : SMap.ok d m = true) : SMap.ok d (SMap.set d m k v) = true := by
  unfold SMap.set
  split
  · exact SMap.okFrom_filter _ h
  · exact SMap.okFrom_insert h (Nat.zero_le k) ‹_›

theorem Memory.wf_write {m : Memory} {a : Nat} {b : Byte} (h : m.wf = true) : (m.write a b).wf = true := SMap.ok_set h

theorem Memory.wf_writeBytes {m : Memory} {a : Nat} {bs : List Byte} (h : m.wf = true) : (m.writeBytes a bs).wf = true := by
  induction bs generalizing m a with
  | nil => exact h
  | cons b bs ih => exact ih (Memory.wf_write h)

theorem Memory.wf_clear {m : Memory} {lo hi : Nat} (h : m.wf = true) : (m.clear lo hi).wf = true := SMap.okFrom_filter _ h

end Sys2Proof.Machine
end

