-- ==== Sys2Proof/Laws/State.lean ====
section
/-! SUPPORT. What each update of State leaves in each field: one lemma per field per update, so that no proof unfolds a record update. -/
namespace Sys2Proof.Machine
open Sys2Proof

variable (s : State)

@[simp] theorem State.setReg_pending (o : Ob) (v : BitVec 64) (a b k : Nat) : (s.setReg o v a b k).pending = s.pending := rfl
@[simp] theorem State.setReg_free (o : Ob) (v : BitVec 64) (a b k : Nat) : (s.setReg o v a b k).free = s.free := rfl
@[simp] theorem State.setReg_grade (o : Ob) (v : BitVec 64) (a b k : Nat) : (s.setReg o v a b k).grade = s.grade := rfl
@[simp] theorem State.setReg_now (o : Ob) (v : BitVec 64) (a b k : Nat) : (s.setReg o v a b k).now = s.now := rfl
@[simp] theorem State.setReg_porstLow (o : Ob) (v : BitVec 64) (a b k : Nat) : (s.setReg o v a b k).porstLow = s.porstLow := rfl
@[simp] theorem State.setReg_testEn (o : Ob) (v : BitVec 64) (a b k : Nat) : (s.setReg o v a b k).testEn = s.testEn := rfl
@[simp] theorem State.setReg_mem (o : Ob) (v : BitVec 64) (a b k : Nat) : (s.setReg o v a b k).mem = s.mem := rfl
@[simp] theorem State.setReg_objs (o : Ob) (v : BitVec 64) (a b k : Nat) : (s.setReg o v a b k).objs = SMap.set (BitVec.ofNat 64 o.row.dflt) s.objs (o.key a b k) v := rfl
@[simp] theorem State.setReg_ports (o : Ob) (v : BitVec 64) (a b k : Nat) : (s.setReg o v a b k).ports = s.ports := rfl
@[simp] theorem State.setReg_can (o : Ob) (v : BitVec 64) (a b k : Nat) : (s.setReg o v a b k).can = s.can := rfl
@[simp] theorem State.setReg_crown (o : Ob) (v : BitVec 64) (a b k : Nat) : (s.setReg o v a b k).crown = s.crown := rfl
@[simp] theorem State.setReg_crownTime (o : Ob) (v : BitVec 64) (a b k : Nat) : (s.setReg o v a b k).crownTime = s.crownTime := rfl
@[simp] theorem State.setReg_readiness (o : Ob) (v : BitVec 64) (a b k : Nat) : (s.setReg o v a b k).readiness = s.readiness := rfl
@[simp] theorem State.setReg_readyFailed (o : Ob) (v : BitVec 64) (a b k : Nat) : (s.setReg o v a b k).readyFailed = s.readyFailed := rfl
@[simp] theorem State.setReg_notExpected (o : Ob) (v : BitVec 64) (a b k : Nat) : (s.setReg o v a b k).notExpected = s.notExpected := rfl
@[simp] theorem State.setReg_alertCause (o : Ob) (v : BitVec 64) (a b k : Nat) : (s.setReg o v a b k).alertCause = s.alertCause := rfl
@[simp] theorem State.setReg_boot (o : Ob) (v : BitVec 64) (a b k : Nat) : (s.setReg o v a b k).boot = s.boot := rfl
@[simp] theorem State.setReg_nv (o : Ob) (v : BitVec 64) (a b k : Nat) : (s.setReg o v a b k).nv = s.nv := rfl
@[simp] theorem State.setReg_log (o : Ob) (v : BitVec 64) (a b k : Nat) : (s.setReg o v a b k).log = s.log := rfl
@[simp] theorem State.setReg_sec (o : Ob) (v : BitVec 64) (a b k : Nat) : (s.setReg o v a b k).sec = s.sec := rfl
@[simp] theorem State.setReg_power (o : Ob) (v : BitVec 64) (a b k : Nat) : (s.setReg o v a b k).power = s.power := rfl
@[simp] theorem State.setReg_seams (o : Ob) (v : BitVec 64) (a b k : Nat) : (s.setReg o v a b k).seams = s.seams := rfl
@[simp] theorem State.setReg_groups (o : Ob) (v : BitVec 64) (a b k : Nat) : (s.setReg o v a b k).groups = s.groups := rfl
@[simp] theorem State.setReg_slices (o : Ob) (v : BitVec 64) (a b k : Nat) : (s.setReg o v a b k).slices = s.slices := rfl
@[simp] theorem State.setReg_trunk (o : Ob) (v : BitVec 64) (a b k : Nat) : (s.setReg o v a b k).trunk = s.trunk := rfl
@[simp] theorem State.setReg_trunkStamp (o : Ob) (v : BitVec 64) (a b k : Nat) : (s.setReg o v a b k).trunkStamp = s.trunkStamp := rfl
@[simp] theorem State.setReg_waits (o : Ob) (v : BitVec 64) (a b k : Nat) : (s.setReg o v a b k).waits = s.waits := rfl
@[simp] theorem State.setReg_boughs (o : Ob) (v : BitVec 64) (a b k : Nat) : (s.setReg o v a b k).boughs = s.boughs := rfl
@[simp] theorem State.setReg_hub (o : Ob) (v : BitVec 64) (a b k : Nat) : (s.setReg o v a b k).hub = s.hub := rfl
@[simp] theorem State.setReg_cameras (o : Ob) (v : BitVec 64) (a b k : Nat) : (s.setReg o v a b k).cameras = s.cameras := rfl
@[simp] theorem State.setReg_pipes (o : Ob) (v : BitVec 64) (a b k : Nat) : (s.setReg o v a b k).pipes = s.pipes := rfl
@[simp] theorem State.setReg_i2c (o : Ob) (v : BitVec 64) (a b k : Nat) : (s.setReg o v a b k).i2c = s.i2c := rfl
@[simp] theorem State.setReg_fsync (o : Ob) (v : BitVec 64) (a b k : Nat) : (s.setReg o v a b k).fsync = s.fsync := rfl
@[simp] theorem State.setReg_encoders (o : Ob) (v : BitVec 64) (a b k : Nat) : (s.setReg o v a b k).encoders = s.encoders := rfl
@[simp] theorem State.setReg_decoder (o : Ob) (v : BitVec 64) (a b k : Nat) : (s.setReg o v a b k).decoder = s.decoder := rfl
@[simp] theorem State.setReg_sample (o : Ob) (v : BitVec 64) (a b k : Nat) : (s.setReg o v a b k).sample = s.sample := rfl
@[simp] theorem State.setReg_linkUnits (o : Ob) (v : BitVec 64) (a b k : Nat) : (s.setReg o v a b k).linkUnits = s.linkUnits := rfl
@[simp] theorem State.setReg_grove (o : Ob) (v : BitVec 64) (a b k : Nat) : (s.setReg o v a b k).grove = s.grove := rfl
@[simp] theorem State.setReg_pcie (o : Ob) (v : BitVec 64) (a b k : Nat) : (s.setReg o v a b k).pcie = s.pcie := rfl

@[simp] theorem State.updPort_pending (r : Requester) (f : Port → Port) : (s.updPort r f).pending = s.pending := rfl
@[simp] theorem State.updPort_free (r : Requester) (f : Port → Port) : (s.updPort r f).free = s.free := rfl
@[simp] theorem State.updPort_grade (r : Requester) (f : Port → Port) : (s.updPort r f).grade = s.grade := rfl
@[simp] theorem State.updPort_now (r : Requester) (f : Port → Port) : (s.updPort r f).now = s.now := rfl
@[simp] theorem State.updPort_porstLow (r : Requester) (f : Port → Port) : (s.updPort r f).porstLow = s.porstLow := rfl
@[simp] theorem State.updPort_testEn (r : Requester) (f : Port → Port) : (s.updPort r f).testEn = s.testEn := rfl
@[simp] theorem State.updPort_mem (r : Requester) (f : Port → Port) : (s.updPort r f).mem = s.mem := rfl
@[simp] theorem State.updPort_objs (r : Requester) (f : Port → Port) : (s.updPort r f).objs = s.objs := rfl
@[simp] theorem State.updPort_ports (r : Requester) (f : Port → Port) : (s.updPort r f).ports = upd s.ports (reqNum r) f := rfl
@[simp] theorem State.updPort_can (r : Requester) (f : Port → Port) : (s.updPort r f).can = s.can := rfl
@[simp] theorem State.updPort_crown (r : Requester) (f : Port → Port) : (s.updPort r f).crown = s.crown := rfl
@[simp] theorem State.updPort_crownTime (r : Requester) (f : Port → Port) : (s.updPort r f).crownTime = s.crownTime := rfl
@[simp] theorem State.updPort_readiness (r : Requester) (f : Port → Port) : (s.updPort r f).readiness = s.readiness := rfl
@[simp] theorem State.updPort_readyFailed (r : Requester) (f : Port → Port) : (s.updPort r f).readyFailed = s.readyFailed := rfl
@[simp] theorem State.updPort_notExpected (r : Requester) (f : Port → Port) : (s.updPort r f).notExpected = s.notExpected := rfl
@[simp] theorem State.updPort_alertCause (r : Requester) (f : Port → Port) : (s.updPort r f).alertCause = s.alertCause := rfl
@[simp] theorem State.updPort_boot (r : Requester) (f : Port → Port) : (s.updPort r f).boot = s.boot := rfl
@[simp] theorem State.updPort_nv (r : Requester) (f : Port → Port) : (s.updPort r f).nv = s.nv := rfl
@[simp] theorem State.updPort_log (r : Requester) (f : Port → Port) : (s.updPort r f).log = s.log := rfl
@[simp] theorem State.updPort_sec (r : Requester) (f : Port → Port) : (s.updPort r f).sec = s.sec := rfl
@[simp] theorem State.updPort_power (r : Requester) (f : Port → Port) : (s.updPort r f).power = s.power := rfl
@[simp] theorem State.updPort_seams (r : Requester) (f : Port → Port) : (s.updPort r f).seams = s.seams := rfl
@[simp] theorem State.updPort_groups (r : Requester) (f : Port → Port) : (s.updPort r f).groups = s.groups := rfl
@[simp] theorem State.updPort_slices (r : Requester) (f : Port → Port) : (s.updPort r f).slices = s.slices := rfl
@[simp] theorem State.updPort_trunk (r : Requester) (f : Port → Port) : (s.updPort r f).trunk = s.trunk := rfl
@[simp] theorem State.updPort_trunkStamp (r : Requester) (f : Port → Port) : (s.updPort r f).trunkStamp = s.trunkStamp := rfl
@[simp] theorem State.updPort_waits (r : Requester) (f : Port → Port) : (s.updPort r f).waits = s.waits := rfl
@[simp] theorem State.updPort_boughs (r : Requester) (f : Port → Port) : (s.updPort r f).boughs = s.boughs := rfl
@[simp] theorem State.updPort_hub (r : Requester) (f : Port → Port) : (s.updPort r f).hub = s.hub := rfl
@[simp] theorem State.updPort_cameras (r : Requester) (f : Port → Port) : (s.updPort r f).cameras = s.cameras := rfl
@[simp] theorem State.updPort_pipes (r : Requester) (f : Port → Port) : (s.updPort r f).pipes = s.pipes := rfl
@[simp] theorem State.updPort_i2c (r : Requester) (f : Port → Port) : (s.updPort r f).i2c = s.i2c := rfl
@[simp] theorem State.updPort_fsync (r : Requester) (f : Port → Port) : (s.updPort r f).fsync = s.fsync := rfl
@[simp] theorem State.updPort_encoders (r : Requester) (f : Port → Port) : (s.updPort r f).encoders = s.encoders := rfl
@[simp] theorem State.updPort_decoder (r : Requester) (f : Port → Port) : (s.updPort r f).decoder = s.decoder := rfl
@[simp] theorem State.updPort_sample (r : Requester) (f : Port → Port) : (s.updPort r f).sample = s.sample := rfl
@[simp] theorem State.updPort_linkUnits (r : Requester) (f : Port → Port) : (s.updPort r f).linkUnits = s.linkUnits := rfl
@[simp] theorem State.updPort_grove (r : Requester) (f : Port → Port) : (s.updPort r f).grove = s.grove := rfl
@[simp] theorem State.updPort_pcie (r : Requester) (f : Port → Port) : (s.updPort r f).pcie = s.pcie := rfl

@[simp] theorem State.updSeam_pending (q : SeamId) (f : Seam → Seam) : (s.updSeam q f).pending = s.pending := rfl
@[simp] theorem State.updSeam_free (q : SeamId) (f : Seam → Seam) : (s.updSeam q f).free = s.free := rfl
@[simp] theorem State.updSeam_grade (q : SeamId) (f : Seam → Seam) : (s.updSeam q f).grade = s.grade := rfl
@[simp] theorem State.updSeam_now (q : SeamId) (f : Seam → Seam) : (s.updSeam q f).now = s.now := rfl
@[simp] theorem State.updSeam_porstLow (q : SeamId) (f : Seam → Seam) : (s.updSeam q f).porstLow = s.porstLow := rfl
@[simp] theorem State.updSeam_testEn (q : SeamId) (f : Seam → Seam) : (s.updSeam q f).testEn = s.testEn := rfl
@[simp] theorem State.updSeam_mem (q : SeamId) (f : Seam → Seam) : (s.updSeam q f).mem = s.mem := rfl
@[simp] theorem State.updSeam_objs (q : SeamId) (f : Seam → Seam) : (s.updSeam q f).objs = s.objs := rfl
@[simp] theorem State.updSeam_ports (q : SeamId) (f : Seam → Seam) : (s.updSeam q f).ports = s.ports := rfl
@[simp] theorem State.updSeam_can (q : SeamId) (f : Seam → Seam) : (s.updSeam q f).can = s.can := rfl
@[simp] theorem State.updSeam_crown (q : SeamId) (f : Seam → Seam) : (s.updSeam q f).crown = s.crown := rfl
@[simp] theorem State.updSeam_crownTime (q : SeamId) (f : Seam → Seam) : (s.updSeam q f).crownTime = s.crownTime := rfl
@[simp] theorem State.updSeam_readiness (q : SeamId) (f : Seam → Seam) : (s.updSeam q f).readiness = s.readiness := rfl
@[simp] theorem State.updSeam_readyFailed (q : SeamId) (f : Seam → Seam) : (s.updSeam q f).readyFailed = s.readyFailed := rfl
@[simp] theorem State.updSeam_notExpected (q : SeamId) (f : Seam → Seam) : (s.updSeam q f).notExpected = s.notExpected := rfl
@[simp] theorem State.updSeam_alertCause (q : SeamId) (f : Seam → Seam) : (s.updSeam q f).alertCause = s.alertCause := rfl
@[simp] theorem State.updSeam_boot (q : SeamId) (f : Seam → Seam) : (s.updSeam q f).boot = s.boot := rfl
@[simp] theorem State.updSeam_nv (q : SeamId) (f : Seam → Seam) : (s.updSeam q f).nv = s.nv := rfl
@[simp] theorem State.updSeam_log (q : SeamId) (f : Seam → Seam) : (s.updSeam q f).log = s.log := rfl
@[simp] theorem State.updSeam_sec (q : SeamId) (f : Seam → Seam) : (s.updSeam q f).sec = s.sec := rfl
@[simp] theorem State.updSeam_power (q : SeamId) (f : Seam → Seam) : (s.updSeam q f).power = s.power := rfl
@[simp] theorem State.updSeam_seams (q : SeamId) (f : Seam → Seam) : (s.updSeam q f).seams = upd s.seams q f := rfl
@[simp] theorem State.updSeam_groups (q : SeamId) (f : Seam → Seam) : (s.updSeam q f).groups = s.groups := rfl
@[simp] theorem State.updSeam_slices (q : SeamId) (f : Seam → Seam) : (s.updSeam q f).slices = s.slices := rfl
@[simp] theorem State.updSeam_trunk (q : SeamId) (f : Seam → Seam) : (s.updSeam q f).trunk = s.trunk := rfl
@[simp] theorem State.updSeam_trunkStamp (q : SeamId) (f : Seam → Seam) : (s.updSeam q f).trunkStamp = s.trunkStamp := rfl
@[simp] theorem State.updSeam_waits (q : SeamId) (f : Seam → Seam) : (s.updSeam q f).waits = s.waits := rfl
@[simp] theorem State.updSeam_boughs (q : SeamId) (f : Seam → Seam) : (s.updSeam q f).boughs = s.boughs := rfl
@[simp] theorem State.updSeam_hub (q : SeamId) (f : Seam → Seam) : (s.updSeam q f).hub = s.hub := rfl
@[simp] theorem State.updSeam_cameras (q : SeamId) (f : Seam → Seam) : (s.updSeam q f).cameras = s.cameras := rfl
@[simp] theorem State.updSeam_pipes (q : SeamId) (f : Seam → Seam) : (s.updSeam q f).pipes = s.pipes := rfl
@[simp] theorem State.updSeam_i2c (q : SeamId) (f : Seam → Seam) : (s.updSeam q f).i2c = s.i2c := rfl
@[simp] theorem State.updSeam_fsync (q : SeamId) (f : Seam → Seam) : (s.updSeam q f).fsync = s.fsync := rfl
@[simp] theorem State.updSeam_encoders (q : SeamId) (f : Seam → Seam) : (s.updSeam q f).encoders = s.encoders := rfl
@[simp] theorem State.updSeam_decoder (q : SeamId) (f : Seam → Seam) : (s.updSeam q f).decoder = s.decoder := rfl
@[simp] theorem State.updSeam_sample (q : SeamId) (f : Seam → Seam) : (s.updSeam q f).sample = s.sample := rfl
@[simp] theorem State.updSeam_linkUnits (q : SeamId) (f : Seam → Seam) : (s.updSeam q f).linkUnits = s.linkUnits := rfl
@[simp] theorem State.updSeam_grove (q : SeamId) (f : Seam → Seam) : (s.updSeam q f).grove = s.grove := rfl
@[simp] theorem State.updSeam_pcie (q : SeamId) (f : Seam → Seam) : (s.updSeam q f).pcie = s.pcie := rfl

@[simp] theorem State.updBough_pending (b : BoughId) (f : Bough → Bough) : (s.updBough b f).pending = s.pending := rfl
@[simp] theorem State.updBough_free (b : BoughId) (f : Bough → Bough) : (s.updBough b f).free = s.free := rfl
@[simp] theorem State.updBough_grade (b : BoughId) (f : Bough → Bough) : (s.updBough b f).grade = s.grade := rfl
@[simp] theorem State.updBough_now (b : BoughId) (f : Bough → Bough) : (s.updBough b f).now = s.now := rfl
@[simp] theorem State.updBough_porstLow (b : BoughId) (f : Bough → Bough) : (s.updBough b f).porstLow = s.porstLow := rfl
@[simp] theorem State.updBough_testEn (b : BoughId) (f : Bough → Bough) : (s.updBough b f).testEn = s.testEn := rfl
@[simp] theorem State.updBough_mem (b : BoughId) (f : Bough → Bough) : (s.updBough b f).mem = s.mem := rfl
@[simp] theorem State.updBough_objs (b : BoughId) (f : Bough → Bough) : (s.updBough b f).objs = s.objs := rfl
@[simp] theorem State.updBough_ports (b : BoughId) (f : Bough → Bough) : (s.updBough b f).ports = s.ports := rfl
@[simp] theorem State.updBough_can (b : BoughId) (f : Bough → Bough) : (s.updBough b f).can = s.can := rfl
@[simp] theorem State.updBough_crown (b : BoughId) (f : Bough → Bough) : (s.updBough b f).crown = s.crown := rfl
@[simp] theorem State.updBough_crownTime (b : BoughId) (f : Bough → Bough) : (s.updBough b f).crownTime = s.crownTime := rfl
@[simp] theorem State.updBough_readiness (b : BoughId) (f : Bough → Bough) : (s.updBough b f).readiness = s.readiness := rfl
@[simp] theorem State.updBough_readyFailed (b : BoughId) (f : Bough → Bough) : (s.updBough b f).readyFailed = s.readyFailed := rfl
@[simp] theorem State.updBough_notExpected (b : BoughId) (f : Bough → Bough) : (s.updBough b f).notExpected = s.notExpected := rfl
@[simp] theorem State.updBough_alertCause (b : BoughId) (f : Bough → Bough) : (s.updBough b f).alertCause = s.alertCause := rfl
@[simp] theorem State.updBough_boot (b : BoughId) (f : Bough → Bough) : (s.updBough b f).boot = s.boot := rfl
@[simp] theorem State.updBough_nv (b : BoughId) (f : Bough → Bough) : (s.updBough b f).nv = s.nv := rfl
@[simp] theorem State.updBough_log (b : BoughId) (f : Bough → Bough) : (s.updBough b f).log = s.log := rfl
@[simp] theorem State.updBough_sec (b : BoughId) (f : Bough → Bough) : (s.updBough b f).sec = s.sec := rfl
@[simp] theorem State.updBough_power (b : BoughId) (f : Bough → Bough) : (s.updBough b f).power = s.power := rfl
@[simp] theorem State.updBough_seams (b : BoughId) (f : Bough → Bough) : (s.updBough b f).seams = s.seams := rfl
@[simp] theorem State.updBough_groups (b : BoughId) (f : Bough → Bough) : (s.updBough b f).groups = s.groups := rfl
@[simp] theorem State.updBough_slices (b : BoughId) (f : Bough → Bough) : (s.updBough b f).slices = s.slices := rfl
@[simp] theorem State.updBough_trunk (b : BoughId) (f : Bough → Bough) : (s.updBough b f).trunk = s.trunk := rfl
@[simp] theorem State.updBough_trunkStamp (b : BoughId) (f : Bough → Bough) : (s.updBough b f).trunkStamp = s.trunkStamp := rfl
@[simp] theorem State.updBough_waits (b : BoughId) (f : Bough → Bough) : (s.updBough b f).waits = s.waits := rfl
@[simp] theorem State.updBough_boughs (b : BoughId) (f : Bough → Bough) : (s.updBough b f).boughs = upd s.boughs b f := rfl
@[simp] theorem State.updBough_hub (b : BoughId) (f : Bough → Bough) : (s.updBough b f).hub = s.hub := rfl
@[simp] theorem State.updBough_cameras (b : BoughId) (f : Bough → Bough) : (s.updBough b f).cameras = s.cameras := rfl
@[simp] theorem State.updBough_pipes (b : BoughId) (f : Bough → Bough) : (s.updBough b f).pipes = s.pipes := rfl
@[simp] theorem State.updBough_i2c (b : BoughId) (f : Bough → Bough) : (s.updBough b f).i2c = s.i2c := rfl
@[simp] theorem State.updBough_fsync (b : BoughId) (f : Bough → Bough) : (s.updBough b f).fsync = s.fsync := rfl
@[simp] theorem State.updBough_encoders (b : BoughId) (f : Bough → Bough) : (s.updBough b f).encoders = s.encoders := rfl
@[simp] theorem State.updBough_decoder (b : BoughId) (f : Bough → Bough) : (s.updBough b f).decoder = s.decoder := rfl
@[simp] theorem State.updBough_sample (b : BoughId) (f : Bough → Bough) : (s.updBough b f).sample = s.sample := rfl
@[simp] theorem State.updBough_linkUnits (b : BoughId) (f : Bough → Bough) : (s.updBough b f).linkUnits = s.linkUnits := rfl
@[simp] theorem State.updBough_grove (b : BoughId) (f : Bough → Bough) : (s.updBough b f).grove = s.grove := rfl
@[simp] theorem State.updBough_pcie (b : BoughId) (f : Bough → Bough) : (s.updBough b f).pcie = s.pcie := rfl

@[simp] theorem State.updHub_pending (f : WorkHub → WorkHub) : (s.updHub f).pending = s.pending := rfl
@[simp] theorem State.updHub_free (f : WorkHub → WorkHub) : (s.updHub f).free = s.free := rfl
@[simp] theorem State.updHub_grade (f : WorkHub → WorkHub) : (s.updHub f).grade = s.grade := rfl
@[simp] theorem State.updHub_now (f : WorkHub → WorkHub) : (s.updHub f).now = s.now := rfl
@[simp] theorem State.updHub_porstLow (f : WorkHub → WorkHub) : (s.updHub f).porstLow = s.porstLow := rfl
@[simp] theorem State.updHub_testEn (f : WorkHub → WorkHub) : (s.updHub f).testEn = s.testEn := rfl
@[simp] theorem State.updHub_mem (f : WorkHub → WorkHub) : (s.updHub f).mem = s.mem := rfl
@[simp] theorem State.updHub_objs (f : WorkHub → WorkHub) : (s.updHub f).objs = s.objs := rfl
@[simp] theorem State.updHub_ports (f : WorkHub → WorkHub) : (s.updHub f).ports = s.ports := rfl
@[simp] theorem State.updHub_can (f : WorkHub → WorkHub) : (s.updHub f).can = s.can := rfl
@[simp] theorem State.updHub_crown (f : WorkHub → WorkHub) : (s.updHub f).crown = s.crown := rfl
@[simp] theorem State.updHub_crownTime (f : WorkHub → WorkHub) : (s.updHub f).crownTime = s.crownTime := rfl
@[simp] theorem State.updHub_readiness (f : WorkHub → WorkHub) : (s.updHub f).readiness = s.readiness := rfl
@[simp] theorem State.updHub_readyFailed (f : WorkHub → WorkHub) : (s.updHub f).readyFailed = s.readyFailed := rfl
@[simp] theorem State.updHub_notExpected (f : WorkHub → WorkHub) : (s.updHub f).notExpected = s.notExpected := rfl
@[simp] theorem State.updHub_alertCause (f : WorkHub → WorkHub) : (s.updHub f).alertCause = s.alertCause := rfl
@[simp] theorem State.updHub_boot (f : WorkHub → WorkHub) : (s.updHub f).boot = s.boot := rfl
@[simp] theorem State.updHub_nv (f : WorkHub → WorkHub) : (s.updHub f).nv = s.nv := rfl
@[simp] theorem State.updHub_log (f : WorkHub → WorkHub) : (s.updHub f).log = s.log := rfl
@[simp] theorem State.updHub_sec (f : WorkHub → WorkHub) : (s.updHub f).sec = s.sec := rfl
@[simp] theorem State.updHub_power (f : WorkHub → WorkHub) : (s.updHub f).power = s.power := rfl
@[simp] theorem State.updHub_seams (f : WorkHub → WorkHub) : (s.updHub f).seams = s.seams := rfl
@[simp] theorem State.updHub_groups (f : WorkHub → WorkHub) : (s.updHub f).groups = s.groups := rfl
@[simp] theorem State.updHub_slices (f : WorkHub → WorkHub) : (s.updHub f).slices = s.slices := rfl
@[simp] theorem State.updHub_trunk (f : WorkHub → WorkHub) : (s.updHub f).trunk = s.trunk := rfl
@[simp] theorem State.updHub_trunkStamp (f : WorkHub → WorkHub) : (s.updHub f).trunkStamp = s.trunkStamp := rfl
@[simp] theorem State.updHub_waits (f : WorkHub → WorkHub) : (s.updHub f).waits = s.waits := rfl
@[simp] theorem State.updHub_boughs (f : WorkHub → WorkHub) : (s.updHub f).boughs = s.boughs := rfl
@[simp] theorem State.updHub_hub (f : WorkHub → WorkHub) : (s.updHub f).hub = f s.hub := rfl
@[simp] theorem State.updHub_cameras (f : WorkHub → WorkHub) : (s.updHub f).cameras = s.cameras := rfl
@[simp] theorem State.updHub_pipes (f : WorkHub → WorkHub) : (s.updHub f).pipes = s.pipes := rfl
@[simp] theorem State.updHub_i2c (f : WorkHub → WorkHub) : (s.updHub f).i2c = s.i2c := rfl
@[simp] theorem State.updHub_fsync (f : WorkHub → WorkHub) : (s.updHub f).fsync = s.fsync := rfl
@[simp] theorem State.updHub_encoders (f : WorkHub → WorkHub) : (s.updHub f).encoders = s.encoders := rfl
@[simp] theorem State.updHub_decoder (f : WorkHub → WorkHub) : (s.updHub f).decoder = s.decoder := rfl
@[simp] theorem State.updHub_sample (f : WorkHub → WorkHub) : (s.updHub f).sample = s.sample := rfl
@[simp] theorem State.updHub_linkUnits (f : WorkHub → WorkHub) : (s.updHub f).linkUnits = s.linkUnits := rfl
@[simp] theorem State.updHub_grove (f : WorkHub → WorkHub) : (s.updHub f).grove = s.grove := rfl
@[simp] theorem State.updHub_pcie (f : WorkHub → WorkHub) : (s.updHub f).pcie = s.pcie := rfl

@[simp] theorem State.updBoot_pending (f : Boot → Boot) : (s.updBoot f).pending = s.pending := rfl
@[simp] theorem State.updBoot_free (f : Boot → Boot) : (s.updBoot f).free = s.free := rfl
@[simp] theorem State.updBoot_grade (f : Boot → Boot) : (s.updBoot f).grade = s.grade := rfl
@[simp] theorem State.updBoot_now (f : Boot → Boot) : (s.updBoot f).now = s.now := rfl
@[simp] theorem State.updBoot_porstLow (f : Boot → Boot) : (s.updBoot f).porstLow = s.porstLow := rfl
@[simp] theorem State.updBoot_testEn (f : Boot → Boot) : (s.updBoot f).testEn = s.testEn := rfl
@[simp] theorem State.updBoot_mem (f : Boot → Boot) : (s.updBoot f).mem = s.mem := rfl
@[simp] theorem State.updBoot_objs (f : Boot → Boot) : (s.updBoot f).objs = s.objs := rfl
@[simp] theorem State.updBoot_ports (f : Boot → Boot) : (s.updBoot f).ports = s.ports := rfl
@[simp] theorem State.updBoot_can (f : Boot → Boot) : (s.updBoot f).can = s.can := rfl
@[simp] theorem State.updBoot_crown (f : Boot → Boot) : (s.updBoot f).crown = s.crown := rfl
@[simp] theorem State.updBoot_crownTime (f : Boot → Boot) : (s.updBoot f).crownTime = s.crownTime := rfl
@[simp] theorem State.updBoot_readiness (f : Boot → Boot) : (s.updBoot f).readiness = s.readiness := rfl
@[simp] theorem State.updBoot_readyFailed (f : Boot → Boot) : (s.updBoot f).readyFailed = s.readyFailed := rfl
@[simp] theorem State.updBoot_notExpected (f : Boot → Boot) : (s.updBoot f).notExpected = s.notExpected := rfl
@[simp] theorem State.updBoot_alertCause (f : Boot → Boot) : (s.updBoot f).alertCause = s.alertCause := rfl
@[simp] theorem State.updBoot_boot (f : Boot → Boot) : (s.updBoot f).boot = f s.boot := rfl
@[simp] theorem State.updBoot_nv (f : Boot → Boot) : (s.updBoot f).nv = s.nv := rfl
@[simp] theorem State.updBoot_log (f : Boot → Boot) : (s.updBoot f).log = s.log := rfl
@[simp] theorem State.updBoot_sec (f : Boot → Boot) : (s.updBoot f).sec = s.sec := rfl
@[simp] theorem State.updBoot_power (f : Boot → Boot) : (s.updBoot f).power = s.power := rfl
@[simp] theorem State.updBoot_seams (f : Boot → Boot) : (s.updBoot f).seams = s.seams := rfl
@[simp] theorem State.updBoot_groups (f : Boot → Boot) : (s.updBoot f).groups = s.groups := rfl
@[simp] theorem State.updBoot_slices (f : Boot → Boot) : (s.updBoot f).slices = s.slices := rfl
@[simp] theorem State.updBoot_trunk (f : Boot → Boot) : (s.updBoot f).trunk = s.trunk := rfl
@[simp] theorem State.updBoot_trunkStamp (f : Boot → Boot) : (s.updBoot f).trunkStamp = s.trunkStamp := rfl
@[simp] theorem State.updBoot_waits (f : Boot → Boot) : (s.updBoot f).waits = s.waits := rfl
@[simp] theorem State.updBoot_boughs (f : Boot → Boot) : (s.updBoot f).boughs = s.boughs := rfl
@[simp] theorem State.updBoot_hub (f : Boot → Boot) : (s.updBoot f).hub = s.hub := rfl
@[simp] theorem State.updBoot_cameras (f : Boot → Boot) : (s.updBoot f).cameras = s.cameras := rfl
@[simp] theorem State.updBoot_pipes (f : Boot → Boot) : (s.updBoot f).pipes = s.pipes := rfl
@[simp] theorem State.updBoot_i2c (f : Boot → Boot) : (s.updBoot f).i2c = s.i2c := rfl
@[simp] theorem State.updBoot_fsync (f : Boot → Boot) : (s.updBoot f).fsync = s.fsync := rfl
@[simp] theorem State.updBoot_encoders (f : Boot → Boot) : (s.updBoot f).encoders = s.encoders := rfl
@[simp] theorem State.updBoot_decoder (f : Boot → Boot) : (s.updBoot f).decoder = s.decoder := rfl
@[simp] theorem State.updBoot_sample (f : Boot → Boot) : (s.updBoot f).sample = s.sample := rfl
@[simp] theorem State.updBoot_linkUnits (f : Boot → Boot) : (s.updBoot f).linkUnits = s.linkUnits := rfl
@[simp] theorem State.updBoot_grove (f : Boot → Boot) : (s.updBoot f).grove = s.grove := rfl
@[simp] theorem State.updBoot_pcie (f : Boot → Boot) : (s.updBoot f).pcie = s.pcie := rfl

@[simp] theorem State.updSec_pending (f : Security → Security) : (s.updSec f).pending = s.pending := rfl
@[simp] theorem State.updSec_free (f : Security → Security) : (s.updSec f).free = s.free := rfl
@[simp] theorem State.updSec_grade (f : Security → Security) : (s.updSec f).grade = s.grade := rfl
@[simp] theorem State.updSec_now (f : Security → Security) : (s.updSec f).now = s.now := rfl
@[simp] theorem State.updSec_porstLow (f : Security → Security) : (s.updSec f).porstLow = s.porstLow := rfl
@[simp] theorem State.updSec_testEn (f : Security → Security) : (s.updSec f).testEn = s.testEn := rfl
@[simp] theorem State.updSec_mem (f : Security → Security) : (s.updSec f).mem = s.mem := rfl
@[simp] theorem State.updSec_objs (f : Security → Security) : (s.updSec f).objs = s.objs := rfl
@[simp] theorem State.updSec_ports (f : Security → Security) : (s.updSec f).ports = s.ports := rfl
@[simp] theorem State.updSec_can (f : Security → Security) : (s.updSec f).can = s.can := rfl
@[simp] theorem State.updSec_crown (f : Security → Security) : (s.updSec f).crown = s.crown := rfl
@[simp] theorem State.updSec_crownTime (f : Security → Security) : (s.updSec f).crownTime = s.crownTime := rfl
@[simp] theorem State.updSec_readiness (f : Security → Security) : (s.updSec f).readiness = s.readiness := rfl
@[simp] theorem State.updSec_readyFailed (f : Security → Security) : (s.updSec f).readyFailed = s.readyFailed := rfl
@[simp] theorem State.updSec_notExpected (f : Security → Security) : (s.updSec f).notExpected = s.notExpected := rfl
@[simp] theorem State.updSec_alertCause (f : Security → Security) : (s.updSec f).alertCause = s.alertCause := rfl
@[simp] theorem State.updSec_boot (f : Security → Security) : (s.updSec f).boot = s.boot := rfl
@[simp] theorem State.updSec_nv (f : Security → Security) : (s.updSec f).nv = s.nv := rfl
@[simp] theorem State.updSec_log (f : Security → Security) : (s.updSec f).log = s.log := rfl
@[simp] theorem State.updSec_sec (f : Security → Security) : (s.updSec f).sec = f s.sec := rfl
@[simp] theorem State.updSec_power (f : Security → Security) : (s.updSec f).power = s.power := rfl
@[simp] theorem State.updSec_seams (f : Security → Security) : (s.updSec f).seams = s.seams := rfl
@[simp] theorem State.updSec_groups (f : Security → Security) : (s.updSec f).groups = s.groups := rfl
@[simp] theorem State.updSec_slices (f : Security → Security) : (s.updSec f).slices = s.slices := rfl
@[simp] theorem State.updSec_trunk (f : Security → Security) : (s.updSec f).trunk = s.trunk := rfl
@[simp] theorem State.updSec_trunkStamp (f : Security → Security) : (s.updSec f).trunkStamp = s.trunkStamp := rfl
@[simp] theorem State.updSec_waits (f : Security → Security) : (s.updSec f).waits = s.waits := rfl
@[simp] theorem State.updSec_boughs (f : Security → Security) : (s.updSec f).boughs = s.boughs := rfl
@[simp] theorem State.updSec_hub (f : Security → Security) : (s.updSec f).hub = s.hub := rfl
@[simp] theorem State.updSec_cameras (f : Security → Security) : (s.updSec f).cameras = s.cameras := rfl
@[simp] theorem State.updSec_pipes (f : Security → Security) : (s.updSec f).pipes = s.pipes := rfl
@[simp] theorem State.updSec_i2c (f : Security → Security) : (s.updSec f).i2c = s.i2c := rfl
@[simp] theorem State.updSec_fsync (f : Security → Security) : (s.updSec f).fsync = s.fsync := rfl
@[simp] theorem State.updSec_encoders (f : Security → Security) : (s.updSec f).encoders = s.encoders := rfl
@[simp] theorem State.updSec_decoder (f : Security → Security) : (s.updSec f).decoder = s.decoder := rfl
@[simp] theorem State.updSec_sample (f : Security → Security) : (s.updSec f).sample = s.sample := rfl
@[simp] theorem State.updSec_linkUnits (f : Security → Security) : (s.updSec f).linkUnits = s.linkUnits := rfl
@[simp] theorem State.updSec_grove (f : Security → Security) : (s.updSec f).grove = s.grove := rfl
@[simp] theorem State.updSec_pcie (f : Security → Security) : (s.updSec f).pcie = s.pcie := rfl

@[simp] theorem State.updClaim_pending (c : ClaimId) (f : Claim → Claim) : (s.updClaim c f).pending = s.pending := rfl
@[simp] theorem State.updClaim_free (c : ClaimId) (f : Claim → Claim) : (s.updClaim c f).free = s.free := rfl
@[simp] theorem State.updClaim_grade (c : ClaimId) (f : Claim → Claim) : (s.updClaim c f).grade = s.grade := rfl
@[simp] theorem State.updClaim_now (c : ClaimId) (f : Claim → Claim) : (s.updClaim c f).now = s.now := rfl
@[simp] theorem State.updClaim_porstLow (c : ClaimId) (f : Claim → Claim) : (s.updClaim c f).porstLow = s.porstLow := rfl
@[simp] theorem State.updClaim_testEn (c : ClaimId) (f : Claim → Claim) : (s.updClaim c f).testEn = s.testEn := rfl
@[simp] theorem State.updClaim_mem (c : ClaimId) (f : Claim → Claim) : (s.updClaim c f).mem = s.mem := rfl
@[simp] theorem State.updClaim_objs (c : ClaimId) (f : Claim → Claim) : (s.updClaim c f).objs = s.objs := rfl
@[simp] theorem State.updClaim_ports (c : ClaimId) (f : Claim → Claim) : (s.updClaim c f).ports = s.ports := rfl
@[simp] theorem State.updClaim_can (c : ClaimId) (f : Claim → Claim) : (s.updClaim c f).can = s.can := rfl
@[simp] theorem State.updClaim_crown (c : ClaimId) (f : Claim → Claim) : (s.updClaim c f).crown = s.crown := rfl
@[simp] theorem State.updClaim_crownTime (c : ClaimId) (f : Claim → Claim) : (s.updClaim c f).crownTime = s.crownTime := rfl
@[simp] theorem State.updClaim_readiness (c : ClaimId) (f : Claim → Claim) : (s.updClaim c f).readiness = s.readiness := rfl
@[simp] theorem State.updClaim_readyFailed (c : ClaimId) (f : Claim → Claim) : (s.updClaim c f).readyFailed = s.readyFailed := rfl
@[simp] theorem State.updClaim_notExpected (c : ClaimId) (f : Claim → Claim) : (s.updClaim c f).notExpected = s.notExpected := rfl
@[simp] theorem State.updClaim_alertCause (c : ClaimId) (f : Claim → Claim) : (s.updClaim c f).alertCause = s.alertCause := rfl
@[simp] theorem State.updClaim_boot (c : ClaimId) (f : Claim → Claim) : (s.updClaim c f).boot = s.boot := rfl
@[simp] theorem State.updClaim_nv (c : ClaimId) (f : Claim → Claim) : (s.updClaim c f).nv = s.nv := rfl
@[simp] theorem State.updClaim_log (c : ClaimId) (f : Claim → Claim) : (s.updClaim c f).log = s.log := rfl
@[simp] theorem State.updClaim_power (c : ClaimId) (f : Claim → Claim) : (s.updClaim c f).power = s.power := rfl
@[simp] theorem State.updClaim_seams (c : ClaimId) (f : Claim → Claim) : (s.updClaim c f).seams = s.seams := rfl
@[simp] theorem State.updClaim_groups (c : ClaimId) (f : Claim → Claim) : (s.updClaim c f).groups = s.groups := rfl
@[simp] theorem State.updClaim_slices (c : ClaimId) (f : Claim → Claim) : (s.updClaim c f).slices = s.slices := rfl
@[simp] theorem State.updClaim_trunk (c : ClaimId) (f : Claim → Claim) : (s.updClaim c f).trunk = s.trunk := rfl
@[simp] theorem State.updClaim_trunkStamp (c : ClaimId) (f : Claim → Claim) : (s.updClaim c f).trunkStamp = s.trunkStamp := rfl
@[simp] theorem State.updClaim_waits (c : ClaimId) (f : Claim → Claim) : (s.updClaim c f).waits = s.waits := rfl
@[simp] theorem State.updClaim_boughs (c : ClaimId) (f : Claim → Claim) : (s.updClaim c f).boughs = s.boughs := rfl
@[simp] theorem State.updClaim_hub (c : ClaimId) (f : Claim → Claim) : (s.updClaim c f).hub = s.hub := rfl
@[simp] theorem State.updClaim_cameras (c : ClaimId) (f : Claim → Claim) : (s.updClaim c f).cameras = s.cameras := rfl
@[simp] theorem State.updClaim_pipes (c : ClaimId) (f : Claim → Claim) : (s.updClaim c f).pipes = s.pipes := rfl
@[simp] theorem State.updClaim_i2c (c : ClaimId) (f : Claim → Claim) : (s.updClaim c f).i2c = s.i2c := rfl
@[simp] theorem State.updClaim_fsync (c : ClaimId) (f : Claim → Claim) : (s.updClaim c f).fsync = s.fsync := rfl
@[simp] theorem State.updClaim_encoders (c : ClaimId) (f : Claim → Claim) : (s.updClaim c f).encoders = s.encoders := rfl
@[simp] theorem State.updClaim_decoder (c : ClaimId) (f : Claim → Claim) : (s.updClaim c f).decoder = s.decoder := rfl
@[simp] theorem State.updClaim_sample (c : ClaimId) (f : Claim → Claim) : (s.updClaim c f).sample = s.sample := rfl
@[simp] theorem State.updClaim_linkUnits (c : ClaimId) (f : Claim → Claim) : (s.updClaim c f).linkUnits = s.linkUnits := rfl
@[simp] theorem State.updClaim_grove (c : ClaimId) (f : Claim → Claim) : (s.updClaim c f).grove = s.grove := rfl
@[simp] theorem State.updClaim_pcie (c : ClaimId) (f : Claim → Claim) : (s.updClaim c f).pcie = s.pcie := rfl

@[simp] theorem State.updSeg_pending (n : Nat) (f : Seg → Seg) : (s.updSeg n f).pending = s.pending := rfl
@[simp] theorem State.updSeg_free (n : Nat) (f : Seg → Seg) : (s.updSeg n f).free = s.free := rfl
@[simp] theorem State.updSeg_grade (n : Nat) (f : Seg → Seg) : (s.updSeg n f).grade = s.grade := rfl
@[simp] theorem State.updSeg_now (n : Nat) (f : Seg → Seg) : (s.updSeg n f).now = s.now := rfl
@[simp] theorem State.updSeg_porstLow (n : Nat) (f : Seg → Seg) : (s.updSeg n f).porstLow = s.porstLow := rfl
@[simp] theorem State.updSeg_testEn (n : Nat) (f : Seg → Seg) : (s.updSeg n f).testEn = s.testEn := rfl
@[simp] theorem State.updSeg_mem (n : Nat) (f : Seg → Seg) : (s.updSeg n f).mem = s.mem := rfl
@[simp] theorem State.updSeg_objs (n : Nat) (f : Seg → Seg) : (s.updSeg n f).objs = s.objs := rfl
@[simp] theorem State.updSeg_ports (n : Nat) (f : Seg → Seg) : (s.updSeg n f).ports = s.ports := rfl
@[simp] theorem State.updSeg_can (n : Nat) (f : Seg → Seg) : (s.updSeg n f).can = s.can := rfl
@[simp] theorem State.updSeg_crown (n : Nat) (f : Seg → Seg) : (s.updSeg n f).crown = s.crown := rfl
@[simp] theorem State.updSeg_crownTime (n : Nat) (f : Seg → Seg) : (s.updSeg n f).crownTime = s.crownTime := rfl
@[simp] theorem State.updSeg_readiness (n : Nat) (f : Seg → Seg) : (s.updSeg n f).readiness = s.readiness := rfl
@[simp] theorem State.updSeg_readyFailed (n : Nat) (f : Seg → Seg) : (s.updSeg n f).readyFailed = s.readyFailed := rfl
@[simp] theorem State.updSeg_notExpected (n : Nat) (f : Seg → Seg) : (s.updSeg n f).notExpected = s.notExpected := rfl
@[simp] theorem State.updSeg_alertCause (n : Nat) (f : Seg → Seg) : (s.updSeg n f).alertCause = s.alertCause := rfl
@[simp] theorem State.updSeg_boot (n : Nat) (f : Seg → Seg) : (s.updSeg n f).boot = s.boot := rfl
@[simp] theorem State.updSeg_nv (n : Nat) (f : Seg → Seg) : (s.updSeg n f).nv = s.nv := rfl
@[simp] theorem State.updSeg_log (n : Nat) (f : Seg → Seg) : (s.updSeg n f).log = s.log := rfl
@[simp] theorem State.updSeg_power (n : Nat) (f : Seg → Seg) : (s.updSeg n f).power = s.power := rfl
@[simp] theorem State.updSeg_seams (n : Nat) (f : Seg → Seg) : (s.updSeg n f).seams = s.seams := rfl
@[simp] theorem State.updSeg_groups (n : Nat) (f : Seg → Seg) : (s.updSeg n f).groups = s.groups := rfl
@[simp] theorem State.updSeg_slices (n : Nat) (f : Seg → Seg) : (s.updSeg n f).slices = s.slices := rfl
@[simp] theorem State.updSeg_trunk (n : Nat) (f : Seg → Seg) : (s.updSeg n f).trunk = s.trunk := rfl
@[simp] theorem State.updSeg_trunkStamp (n : Nat) (f : Seg → Seg) : (s.updSeg n f).trunkStamp = s.trunkStamp := rfl
@[simp] theorem State.updSeg_waits (n : Nat) (f : Seg → Seg) : (s.updSeg n f).waits = s.waits := rfl
@[simp] theorem State.updSeg_boughs (n : Nat) (f : Seg → Seg) : (s.updSeg n f).boughs = s.boughs := rfl
@[simp] theorem State.updSeg_hub (n : Nat) (f : Seg → Seg) : (s.updSeg n f).hub = s.hub := rfl
@[simp] theorem State.updSeg_cameras (n : Nat) (f : Seg → Seg) : (s.updSeg n f).cameras = s.cameras := rfl
@[simp] theorem State.updSeg_pipes (n : Nat) (f : Seg → Seg) : (s.updSeg n f).pipes = s.pipes := rfl
@[simp] theorem State.updSeg_i2c (n : Nat) (f : Seg → Seg) : (s.updSeg n f).i2c = s.i2c := rfl
@[simp] theorem State.updSeg_fsync (n : Nat) (f : Seg → Seg) : (s.updSeg n f).fsync = s.fsync := rfl
@[simp] theorem State.updSeg_encoders (n : Nat) (f : Seg → Seg) : (s.updSeg n f).encoders = s.encoders := rfl
@[simp] theorem State.updSeg_decoder (n : Nat) (f : Seg → Seg) : (s.updSeg n f).decoder = s.decoder := rfl
@[simp] theorem State.updSeg_sample (n : Nat) (f : Seg → Seg) : (s.updSeg n f).sample = s.sample := rfl
@[simp] theorem State.updSeg_linkUnits (n : Nat) (f : Seg → Seg) : (s.updSeg n f).linkUnits = s.linkUnits := rfl
@[simp] theorem State.updSeg_grove (n : Nat) (f : Seg → Seg) : (s.updSeg n f).grove = s.grove := rfl
@[simp] theorem State.updSeg_pcie (n : Nat) (f : Seg → Seg) : (s.updSeg n f).pcie = s.pcie := rfl

@[simp] theorem State.updSlice_pending (k : Fin 8) (f : Slice → Slice) : (s.updSlice k f).pending = s.pending := rfl
@[simp] theorem State.updSlice_free (k : Fin 8) (f : Slice → Slice) : (s.updSlice k f).free = s.free := rfl
@[simp] theorem State.updSlice_grade (k : Fin 8) (f : Slice → Slice) : (s.updSlice k f).grade = s.grade := rfl
@[simp] theorem State.updSlice_now (k : Fin 8) (f : Slice → Slice) : (s.updSlice k f).now = s.now := rfl
@[simp] theorem State.updSlice_porstLow (k : Fin 8) (f : Slice → Slice) : (s.updSlice k f).porstLow = s.porstLow := rfl
@[simp] theorem State.updSlice_testEn (k : Fin 8) (f : Slice → Slice) : (s.updSlice k f).testEn = s.testEn := rfl
@[simp] theorem State.updSlice_mem (k : Fin 8) (f : Slice → Slice) : (s.updSlice k f).mem = s.mem := rfl
@[simp] theorem State.updSlice_objs (k : Fin 8) (f : Slice → Slice) : (s.updSlice k f).objs = s.objs := rfl
@[simp] theorem State.updSlice_ports (k : Fin 8) (f : Slice → Slice) : (s.updSlice k f).ports = s.ports := rfl
@[simp] theorem State.updSlice_can (k : Fin 8) (f : Slice → Slice) : (s.updSlice k f).can = s.can := rfl
@[simp] theorem State.updSlice_crown (k : Fin 8) (f : Slice → Slice) : (s.updSlice k f).crown = s.crown := rfl
@[simp] theorem State.updSlice_crownTime (k : Fin 8) (f : Slice → Slice) : (s.updSlice k f).crownTime = s.crownTime := rfl
@[simp] theorem State.updSlice_readiness (k : Fin 8) (f : Slice → Slice) : (s.updSlice k f).readiness = s.readiness := rfl
@[simp] theorem State.updSlice_readyFailed (k : Fin 8) (f : Slice → Slice) : (s.updSlice k f).readyFailed = s.readyFailed := rfl
@[simp] theorem State.updSlice_notExpected (k : Fin 8) (f : Slice → Slice) : (s.updSlice k f).notExpected = s.notExpected := rfl
@[simp] theorem State.updSlice_alertCause (k : Fin 8) (f : Slice → Slice) : (s.updSlice k f).alertCause = s.alertCause := rfl
@[simp] theorem State.updSlice_boot (k : Fin 8) (f : Slice → Slice) : (s.updSlice k f).boot = s.boot := rfl
@[simp] theorem State.updSlice_nv (k : Fin 8) (f : Slice → Slice) : (s.updSlice k f).nv = s.nv := rfl
@[simp] theorem State.updSlice_log (k : Fin 8) (f : Slice → Slice) : (s.updSlice k f).log = s.log := rfl
@[simp] theorem State.updSlice_sec (k : Fin 8) (f : Slice → Slice) : (s.updSlice k f).sec = s.sec := rfl
@[simp] theorem State.updSlice_power (k : Fin 8) (f : Slice → Slice) : (s.updSlice k f).power = s.power := rfl
@[simp] theorem State.updSlice_seams (k : Fin 8) (f : Slice → Slice) : (s.updSlice k f).seams = s.seams := rfl
@[simp] theorem State.updSlice_groups (k : Fin 8) (f : Slice → Slice) : (s.updSlice k f).groups = s.groups := rfl
@[simp] theorem State.updSlice_slices (k : Fin 8) (f : Slice → Slice) : (s.updSlice k f).slices = upd s.slices k f := rfl
@[simp] theorem State.updSlice_trunk (k : Fin 8) (f : Slice → Slice) : (s.updSlice k f).trunk = s.trunk := rfl
@[simp] theorem State.updSlice_trunkStamp (k : Fin 8) (f : Slice → Slice) : (s.updSlice k f).trunkStamp = s.trunkStamp := rfl
@[simp] theorem State.updSlice_waits (k : Fin 8) (f : Slice → Slice) : (s.updSlice k f).waits = s.waits := rfl
@[simp] theorem State.updSlice_boughs (k : Fin 8) (f : Slice → Slice) : (s.updSlice k f).boughs = s.boughs := rfl
@[simp] theorem State.updSlice_hub (k : Fin 8) (f : Slice → Slice) : (s.updSlice k f).hub = s.hub := rfl
@[simp] theorem State.updSlice_cameras (k : Fin 8) (f : Slice → Slice) : (s.updSlice k f).cameras = s.cameras := rfl
@[simp] theorem State.updSlice_pipes (k : Fin 8) (f : Slice → Slice) : (s.updSlice k f).pipes = s.pipes := rfl
@[simp] theorem State.updSlice_i2c (k : Fin 8) (f : Slice → Slice) : (s.updSlice k f).i2c = s.i2c := rfl
@[simp] theorem State.updSlice_fsync (k : Fin 8) (f : Slice → Slice) : (s.updSlice k f).fsync = s.fsync := rfl
@[simp] theorem State.updSlice_encoders (k : Fin 8) (f : Slice → Slice) : (s.updSlice k f).encoders = s.encoders := rfl
@[simp] theorem State.updSlice_decoder (k : Fin 8) (f : Slice → Slice) : (s.updSlice k f).decoder = s.decoder := rfl
@[simp] theorem State.updSlice_sample (k : Fin 8) (f : Slice → Slice) : (s.updSlice k f).sample = s.sample := rfl
@[simp] theorem State.updSlice_linkUnits (k : Fin 8) (f : Slice → Slice) : (s.updSlice k f).linkUnits = s.linkUnits := rfl
@[simp] theorem State.updSlice_grove (k : Fin 8) (f : Slice → Slice) : (s.updSlice k f).grove = s.grove := rfl
@[simp] theorem State.updSlice_pcie (k : Fin 8) (f : Slice → Slice) : (s.updSlice k f).pcie = s.pcie := rfl

@[simp] theorem State.updCam_pending (p : CamId) (f : CameraPort → CameraPort) : (s.updCam p f).pending = s.pending := rfl
@[simp] theorem State.updCam_free (p : CamId) (f : CameraPort → CameraPort) : (s.updCam p f).free = s.free := rfl
@[simp] theorem State.updCam_grade (p : CamId) (f : CameraPort → CameraPort) : (s.updCam p f).grade = s.grade := rfl
@[simp] theorem State.updCam_now (p : CamId) (f : CameraPort → CameraPort) : (s.updCam p f).now = s.now := rfl
@[simp] theorem State.updCam_porstLow (p : CamId) (f : CameraPort → CameraPort) : (s.updCam p f).porstLow = s.porstLow := rfl
@[simp] theorem State.updCam_testEn (p : CamId) (f : CameraPort → CameraPort) : (s.updCam p f).testEn = s.testEn := rfl
@[simp] theorem State.updCam_mem (p : CamId) (f : CameraPort → CameraPort) : (s.updCam p f).mem = s.mem := rfl
@[simp] theorem State.updCam_objs (p : CamId) (f : CameraPort → CameraPort) : (s.updCam p f).objs = s.objs := rfl
@[simp] theorem State.updCam_ports (p : CamId) (f : CameraPort → CameraPort) : (s.updCam p f).ports = s.ports := rfl
@[simp] theorem State.updCam_can (p : CamId) (f : CameraPort → CameraPort) : (s.updCam p f).can = s.can := rfl
@[simp] theorem State.updCam_crown (p : CamId) (f : CameraPort → CameraPort) : (s.updCam p f).crown = s.crown := rfl
@[simp] theorem State.updCam_crownTime (p : CamId) (f : CameraPort → CameraPort) : (s.updCam p f).crownTime = s.crownTime := rfl
@[simp] theorem State.updCam_readiness (p : CamId) (f : CameraPort → CameraPort) : (s.updCam p f).readiness = s.readiness := rfl
@[simp] theorem State.updCam_readyFailed (p : CamId) (f : CameraPort → CameraPort) : (s.updCam p f).readyFailed = s.readyFailed := rfl
@[simp] theorem State.updCam_notExpected (p : CamId) (f : CameraPort → CameraPort) : (s.updCam p f).notExpected = s.notExpected := rfl
@[simp] theorem State.updCam_alertCause (p : CamId) (f : CameraPort → CameraPort) : (s.updCam p f).alertCause = s.alertCause := rfl
@[simp] theorem State.updCam_boot (p : CamId) (f : CameraPort → CameraPort) : (s.updCam p f).boot = s.boot := rfl
@[simp] theorem State.updCam_nv (p : CamId) (f : CameraPort → CameraPort) : (s.updCam p f).nv = s.nv := rfl
@[simp] theorem State.updCam_log (p : CamId) (f : CameraPort → CameraPort) : (s.updCam p f).log = s.log := rfl
@[simp] theorem State.updCam_sec (p : CamId) (f : CameraPort → CameraPort) : (s.updCam p f).sec = s.sec := rfl
@[simp] theorem State.updCam_power (p : CamId) (f : CameraPort → CameraPort) : (s.updCam p f).power = s.power := rfl
@[simp] theorem State.updCam_seams (p : CamId) (f : CameraPort → CameraPort) : (s.updCam p f).seams = s.seams := rfl
@[simp] theorem State.updCam_groups (p : CamId) (f : CameraPort → CameraPort) : (s.updCam p f).groups = s.groups := rfl
@[simp] theorem State.updCam_slices (p : CamId) (f : CameraPort → CameraPort) : (s.updCam p f).slices = s.slices := rfl
@[simp] theorem State.updCam_trunk (p : CamId) (f : CameraPort → CameraPort) : (s.updCam p f).trunk = s.trunk := rfl
@[simp] theorem State.updCam_trunkStamp (p : CamId) (f : CameraPort → CameraPort) : (s.updCam p f).trunkStamp = s.trunkStamp := rfl
@[simp] theorem State.updCam_waits (p : CamId) (f : CameraPort → CameraPort) : (s.updCam p f).waits = s.waits := rfl
@[simp] theorem State.updCam_boughs (p : CamId) (f : CameraPort → CameraPort) : (s.updCam p f).boughs = s.boughs := rfl
@[simp] theorem State.updCam_hub (p : CamId) (f : CameraPort → CameraPort) : (s.updCam p f).hub = s.hub := rfl
@[simp] theorem State.updCam_cameras (p : CamId) (f : CameraPort → CameraPort) : (s.updCam p f).cameras = upd s.cameras p f := rfl
@[simp] theorem State.updCam_pipes (p : CamId) (f : CameraPort → CameraPort) : (s.updCam p f).pipes = s.pipes := rfl
@[simp] theorem State.updCam_i2c (p : CamId) (f : CameraPort → CameraPort) : (s.updCam p f).i2c = s.i2c := rfl
@[simp] theorem State.updCam_fsync (p : CamId) (f : CameraPort → CameraPort) : (s.updCam p f).fsync = s.fsync := rfl
@[simp] theorem State.updCam_encoders (p : CamId) (f : CameraPort → CameraPort) : (s.updCam p f).encoders = s.encoders := rfl
@[simp] theorem State.updCam_decoder (p : CamId) (f : CameraPort → CameraPort) : (s.updCam p f).decoder = s.decoder := rfl
@[simp] theorem State.updCam_sample (p : CamId) (f : CameraPort → CameraPort) : (s.updCam p f).sample = s.sample := rfl
@[simp] theorem State.updCam_linkUnits (p : CamId) (f : CameraPort → CameraPort) : (s.updCam p f).linkUnits = s.linkUnits := rfl
@[simp] theorem State.updCam_grove (p : CamId) (f : CameraPort → CameraPort) : (s.updCam p f).grove = s.grove := rfl
@[simp] theorem State.updCam_pcie (p : CamId) (f : CameraPort → CameraPort) : (s.updCam p f).pcie = s.pcie := rfl

@[simp] theorem State.updI2c_pending (i : Fin 8) (f : I2c → I2c) : (s.updI2c i f).pending = s.pending := rfl
@[simp] theorem State.updI2c_free (i : Fin 8) (f : I2c → I2c) : (s.updI2c i f).free = s.free := rfl
@[simp] theorem State.updI2c_grade (i : Fin 8) (f : I2c → I2c) : (s.updI2c i f).grade = s.grade := rfl
@[simp] theorem State.updI2c_now (i : Fin 8) (f : I2c → I2c) : (s.updI2c i f).now = s.now := rfl
@[simp] theorem State.updI2c_porstLow (i : Fin 8) (f : I2c → I2c) : (s.updI2c i f).porstLow = s.porstLow := rfl
@[simp] theorem State.updI2c_testEn (i : Fin 8) (f : I2c → I2c) : (s.updI2c i f).testEn = s.testEn := rfl
@[simp] theorem State.updI2c_mem (i : Fin 8) (f : I2c → I2c) : (s.updI2c i f).mem = s.mem := rfl
@[simp] theorem State.updI2c_objs (i : Fin 8) (f : I2c → I2c) : (s.updI2c i f).objs = s.objs := rfl
@[simp] theorem State.updI2c_ports (i : Fin 8) (f : I2c → I2c) : (s.updI2c i f).ports = s.ports := rfl
@[simp] theorem State.updI2c_can (i : Fin 8) (f : I2c → I2c) : (s.updI2c i f).can = s.can := rfl
@[simp] theorem State.updI2c_crown (i : Fin 8) (f : I2c → I2c) : (s.updI2c i f).crown = s.crown := rfl
@[simp] theorem State.updI2c_crownTime (i : Fin 8) (f : I2c → I2c) : (s.updI2c i f).crownTime = s.crownTime := rfl
@[simp] theorem State.updI2c_readiness (i : Fin 8) (f : I2c → I2c) : (s.updI2c i f).readiness = s.readiness := rfl
@[simp] theorem State.updI2c_readyFailed (i : Fin 8) (f : I2c → I2c) : (s.updI2c i f).readyFailed = s.readyFailed := rfl
@[simp] theorem State.updI2c_notExpected (i : Fin 8) (f : I2c → I2c) : (s.updI2c i f).notExpected = s.notExpected := rfl
@[simp] theorem State.updI2c_alertCause (i : Fin 8) (f : I2c → I2c) : (s.updI2c i f).alertCause = s.alertCause := rfl
@[simp] theorem State.updI2c_boot (i : Fin 8) (f : I2c → I2c) : (s.updI2c i f).boot = s.boot := rfl
@[simp] theorem State.updI2c_nv (i : Fin 8) (f : I2c → I2c) : (s.updI2c i f).nv = s.nv := rfl
@[simp] theorem State.updI2c_log (i : Fin 8) (f : I2c → I2c) : (s.updI2c i f).log = s.log := rfl
@[simp] theorem State.updI2c_sec (i : Fin 8) (f : I2c → I2c) : (s.updI2c i f).sec = s.sec := rfl
@[simp] theorem State.updI2c_power (i : Fin 8) (f : I2c → I2c) : (s.updI2c i f).power = s.power := rfl
@[simp] theorem State.updI2c_seams (i : Fin 8) (f : I2c → I2c) : (s.updI2c i f).seams = s.seams := rfl
@[simp] theorem State.updI2c_groups (i : Fin 8) (f : I2c → I2c) : (s.updI2c i f).groups = s.groups := rfl
@[simp] theorem State.updI2c_slices (i : Fin 8) (f : I2c → I2c) : (s.updI2c i f).slices = s.slices := rfl
@[simp] theorem State.updI2c_trunk (i : Fin 8) (f : I2c → I2c) : (s.updI2c i f).trunk = s.trunk := rfl
@[simp] theorem State.updI2c_trunkStamp (i : Fin 8) (f : I2c → I2c) : (s.updI2c i f).trunkStamp = s.trunkStamp := rfl
@[simp] theorem State.updI2c_waits (i : Fin 8) (f : I2c → I2c) : (s.updI2c i f).waits = s.waits := rfl
@[simp] theorem State.updI2c_boughs (i : Fin 8) (f : I2c → I2c) : (s.updI2c i f).boughs = s.boughs := rfl
@[simp] theorem State.updI2c_hub (i : Fin 8) (f : I2c → I2c) : (s.updI2c i f).hub = s.hub := rfl
@[simp] theorem State.updI2c_cameras (i : Fin 8) (f : I2c → I2c) : (s.updI2c i f).cameras = s.cameras := rfl
@[simp] theorem State.updI2c_pipes (i : Fin 8) (f : I2c → I2c) : (s.updI2c i f).pipes = s.pipes := rfl
@[simp] theorem State.updI2c_i2c (i : Fin 8) (f : I2c → I2c) : (s.updI2c i f).i2c = upd s.i2c i f := rfl
@[simp] theorem State.updI2c_fsync (i : Fin 8) (f : I2c → I2c) : (s.updI2c i f).fsync = s.fsync := rfl
@[simp] theorem State.updI2c_encoders (i : Fin 8) (f : I2c → I2c) : (s.updI2c i f).encoders = s.encoders := rfl
@[simp] theorem State.updI2c_decoder (i : Fin 8) (f : I2c → I2c) : (s.updI2c i f).decoder = s.decoder := rfl
@[simp] theorem State.updI2c_sample (i : Fin 8) (f : I2c → I2c) : (s.updI2c i f).sample = s.sample := rfl
@[simp] theorem State.updI2c_linkUnits (i : Fin 8) (f : I2c → I2c) : (s.updI2c i f).linkUnits = s.linkUnits := rfl
@[simp] theorem State.updI2c_grove (i : Fin 8) (f : I2c → I2c) : (s.updI2c i f).grove = s.grove := rfl
@[simp] theorem State.updI2c_pcie (i : Fin 8) (f : I2c → I2c) : (s.updI2c i f).pcie = s.pcie := rfl

@[simp] theorem State.updFsync_pending (i : Fin 16) (f : Fsync → Fsync) : (s.updFsync i f).pending = s.pending := rfl
@[simp] theorem State.updFsync_free (i : Fin 16) (f : Fsync → Fsync) : (s.updFsync i f).free = s.free := rfl
@[simp] theorem State.updFsync_grade (i : Fin 16) (f : Fsync → Fsync) : (s.updFsync i f).grade = s.grade := rfl
@[simp] theorem State.updFsync_now (i : Fin 16) (f : Fsync → Fsync) : (s.updFsync i f).now = s.now := rfl
@[simp] theorem State.updFsync_porstLow (i : Fin 16) (f : Fsync → Fsync) : (s.updFsync i f).porstLow = s.porstLow := rfl
@[simp] theorem State.updFsync_testEn (i : Fin 16) (f : Fsync → Fsync) : (s.updFsync i f).testEn = s.testEn := rfl
@[simp] theorem State.updFsync_mem (i : Fin 16) (f : Fsync → Fsync) : (s.updFsync i f).mem = s.mem := rfl
@[simp] theorem State.updFsync_objs (i : Fin 16) (f : Fsync → Fsync) : (s.updFsync i f).objs = s.objs := rfl
@[simp] theorem State.updFsync_ports (i : Fin 16) (f : Fsync → Fsync) : (s.updFsync i f).ports = s.ports := rfl
@[simp] theorem State.updFsync_can (i : Fin 16) (f : Fsync → Fsync) : (s.updFsync i f).can = s.can := rfl
@[simp] theorem State.updFsync_crown (i : Fin 16) (f : Fsync → Fsync) : (s.updFsync i f).crown = s.crown := rfl
@[simp] theorem State.updFsync_crownTime (i : Fin 16) (f : Fsync → Fsync) : (s.updFsync i f).crownTime = s.crownTime := rfl
@[simp] theorem State.updFsync_readiness (i : Fin 16) (f : Fsync → Fsync) : (s.updFsync i f).readiness = s.readiness := rfl
@[simp] theorem State.updFsync_readyFailed (i : Fin 16) (f : Fsync → Fsync) : (s.updFsync i f).readyFailed = s.readyFailed := rfl
@[simp] theorem State.updFsync_notExpected (i : Fin 16) (f : Fsync → Fsync) : (s.updFsync i f).notExpected = s.notExpected := rfl
@[simp] theorem State.updFsync_alertCause (i : Fin 16) (f : Fsync → Fsync) : (s.updFsync i f).alertCause = s.alertCause := rfl
@[simp] theorem State.updFsync_boot (i : Fin 16) (f : Fsync → Fsync) : (s.updFsync i f).boot = s.boot := rfl
@[simp] theorem State.updFsync_nv (i : Fin 16) (f : Fsync → Fsync) : (s.updFsync i f).nv = s.nv := rfl
@[simp] theorem State.updFsync_log (i : Fin 16) (f : Fsync → Fsync) : (s.updFsync i f).log = s.log := rfl
@[simp] theorem State.updFsync_sec (i : Fin 16) (f : Fsync → Fsync) : (s.updFsync i f).sec = s.sec := rfl
@[simp] theorem State.updFsync_power (i : Fin 16) (f : Fsync → Fsync) : (s.updFsync i f).power = s.power := rfl
@[simp] theorem State.updFsync_seams (i : Fin 16) (f : Fsync → Fsync) : (s.updFsync i f).seams = s.seams := rfl
@[simp] theorem State.updFsync_groups (i : Fin 16) (f : Fsync → Fsync) : (s.updFsync i f).groups = s.groups := rfl
@[simp] theorem State.updFsync_slices (i : Fin 16) (f : Fsync → Fsync) : (s.updFsync i f).slices = s.slices := rfl
@[simp] theorem State.updFsync_trunk (i : Fin 16) (f : Fsync → Fsync) : (s.updFsync i f).trunk = s.trunk := rfl
@[simp] theorem State.updFsync_trunkStamp (i : Fin 16) (f : Fsync → Fsync) : (s.updFsync i f).trunkStamp = s.trunkStamp := rfl
@[simp] theorem State.updFsync_waits (i : Fin 16) (f : Fsync → Fsync) : (s.updFsync i f).waits = s.waits := rfl
@[simp] theorem State.updFsync_boughs (i : Fin 16) (f : Fsync → Fsync) : (s.updFsync i f).boughs = s.boughs := rfl
@[simp] theorem State.updFsync_hub (i : Fin 16) (f : Fsync → Fsync) : (s.updFsync i f).hub = s.hub := rfl
@[simp] theorem State.updFsync_cameras (i : Fin 16) (f : Fsync → Fsync) : (s.updFsync i f).cameras = s.cameras := rfl
@[simp] theorem State.updFsync_pipes (i : Fin 16) (f : Fsync → Fsync) : (s.updFsync i f).pipes = s.pipes := rfl
@[simp] theorem State.updFsync_i2c (i : Fin 16) (f : Fsync → Fsync) : (s.updFsync i f).i2c = s.i2c := rfl
@[simp] theorem State.updFsync_fsync (i : Fin 16) (f : Fsync → Fsync) : (s.updFsync i f).fsync = upd s.fsync i f := rfl
@[simp] theorem State.updFsync_encoders (i : Fin 16) (f : Fsync → Fsync) : (s.updFsync i f).encoders = s.encoders := rfl
@[simp] theorem State.updFsync_decoder (i : Fin 16) (f : Fsync → Fsync) : (s.updFsync i f).decoder = s.decoder := rfl
@[simp] theorem State.updFsync_sample (i : Fin 16) (f : Fsync → Fsync) : (s.updFsync i f).sample = s.sample := rfl
@[simp] theorem State.updFsync_linkUnits (i : Fin 16) (f : Fsync → Fsync) : (s.updFsync i f).linkUnits = s.linkUnits := rfl
@[simp] theorem State.updFsync_grove (i : Fin 16) (f : Fsync → Fsync) : (s.updFsync i f).grove = s.grove := rfl
@[simp] theorem State.updFsync_pcie (i : Fin 16) (f : Fsync → Fsync) : (s.updFsync i f).pcie = s.pcie := rfl

@[simp] theorem State.updDec_pending (f : Decoder → Decoder) : (s.updDec f).pending = s.pending := rfl
@[simp] theorem State.updDec_free (f : Decoder → Decoder) : (s.updDec f).free = s.free := rfl
@[simp] theorem State.updDec_grade (f : Decoder → Decoder) : (s.updDec f).grade = s.grade := rfl
@[simp] theorem State.updDec_now (f : Decoder → Decoder) : (s.updDec f).now = s.now := rfl
@[simp] theorem State.updDec_porstLow (f : Decoder → Decoder) : (s.updDec f).porstLow = s.porstLow := rfl
@[simp] theorem State.updDec_testEn (f : Decoder → Decoder) : (s.updDec f).testEn = s.testEn := rfl
@[simp] theorem State.updDec_mem (f : Decoder → Decoder) : (s.updDec f).mem = s.mem := rfl
@[simp] theorem State.updDec_objs (f : Decoder → Decoder) : (s.updDec f).objs = s.objs := rfl
@[simp] theorem State.updDec_ports (f : Decoder → Decoder) : (s.updDec f).ports = s.ports := rfl
@[simp] theorem State.updDec_can (f : Decoder → Decoder) : (s.updDec f).can = s.can := rfl
@[simp] theorem State.updDec_crown (f : Decoder → Decoder) : (s.updDec f).crown = s.crown := rfl
@[simp] theorem State.updDec_crownTime (f : Decoder → Decoder) : (s.updDec f).crownTime = s.crownTime := rfl
@[simp] theorem State.updDec_readiness (f : Decoder → Decoder) : (s.updDec f).readiness = s.readiness := rfl
@[simp] theorem State.updDec_readyFailed (f : Decoder → Decoder) : (s.updDec f).readyFailed = s.readyFailed := rfl
@[simp] theorem State.updDec_notExpected (f : Decoder → Decoder) : (s.updDec f).notExpected = s.notExpected := rfl
@[simp] theorem State.updDec_alertCause (f : Decoder → Decoder) : (s.updDec f).alertCause = s.alertCause := rfl
@[simp] theorem State.updDec_boot (f : Decoder → Decoder) : (s.updDec f).boot = s.boot := rfl
@[simp] theorem State.updDec_nv (f : Decoder → Decoder) : (s.updDec f).nv = s.nv := rfl
@[simp] theorem State.updDec_log (f : Decoder → Decoder) : (s.updDec f).log = s.log := rfl
@[simp] theorem State.updDec_sec (f : Decoder → Decoder) : (s.updDec f).sec = s.sec := rfl
@[simp] theorem State.updDec_power (f : Decoder → Decoder) : (s.updDec f).power = s.power := rfl
@[simp] theorem State.updDec_seams (f : Decoder → Decoder) : (s.updDec f).seams = s.seams := rfl
@[simp] theorem State.updDec_groups (f : Decoder → Decoder) : (s.updDec f).groups = s.groups := rfl
@[simp] theorem State.updDec_slices (f : Decoder → Decoder) : (s.updDec f).slices = s.slices := rfl
@[simp] theorem State.updDec_trunk (f : Decoder → Decoder) : (s.updDec f).trunk = s.trunk := rfl
@[simp] theorem State.updDec_trunkStamp (f : Decoder → Decoder) : (s.updDec f).trunkStamp = s.trunkStamp := rfl
@[simp] theorem State.updDec_waits (f : Decoder → Decoder) : (s.updDec f).waits = s.waits := rfl
@[simp] theorem State.updDec_boughs (f : Decoder → Decoder) : (s.updDec f).boughs = s.boughs := rfl
@[simp] theorem State.updDec_hub (f : Decoder → Decoder) : (s.updDec f).hub = s.hub := rfl
@[simp] theorem State.updDec_cameras (f : Decoder → Decoder) : (s.updDec f).cameras = s.cameras := rfl
@[simp] theorem State.updDec_pipes (f : Decoder → Decoder) : (s.updDec f).pipes = s.pipes := rfl
@[simp] theorem State.updDec_i2c (f : Decoder → Decoder) : (s.updDec f).i2c = s.i2c := rfl
@[simp] theorem State.updDec_fsync (f : Decoder → Decoder) : (s.updDec f).fsync = s.fsync := rfl
@[simp] theorem State.updDec_encoders (f : Decoder → Decoder) : (s.updDec f).encoders = s.encoders := rfl
@[simp] theorem State.updDec_decoder (f : Decoder → Decoder) : (s.updDec f).decoder = f s.decoder := rfl
@[simp] theorem State.updDec_sample (f : Decoder → Decoder) : (s.updDec f).sample = s.sample := rfl
@[simp] theorem State.updDec_linkUnits (f : Decoder → Decoder) : (s.updDec f).linkUnits = s.linkUnits := rfl
@[simp] theorem State.updDec_grove (f : Decoder → Decoder) : (s.updDec f).grove = s.grove := rfl
@[simp] theorem State.updDec_pcie (f : Decoder → Decoder) : (s.updDec f).pcie = s.pcie := rfl

@[simp] theorem State.updGrove_pending (f : Grove → Grove) : (s.updGrove f).pending = s.pending := rfl
@[simp] theorem State.updGrove_free (f : Grove → Grove) : (s.updGrove f).free = s.free := rfl
@[simp] theorem State.updGrove_grade (f : Grove → Grove) : (s.updGrove f).grade = s.grade := rfl
@[simp] theorem State.updGrove_now (f : Grove → Grove) : (s.updGrove f).now = s.now := rfl
@[simp] theorem State.updGrove_porstLow (f : Grove → Grove) : (s.updGrove f).porstLow = s.porstLow := rfl
@[simp] theorem State.updGrove_testEn (f : Grove → Grove) : (s.updGrove f).testEn = s.testEn := rfl
@[simp] theorem State.updGrove_mem (f : Grove → Grove) : (s.updGrove f).mem = s.mem := rfl
@[simp] theorem State.updGrove_objs (f : Grove → Grove) : (s.updGrove f).objs = s.objs := rfl
@[simp] theorem State.updGrove_ports (f : Grove → Grove) : (s.updGrove f).ports = s.ports := rfl
@[simp] theorem State.updGrove_can (f : Grove → Grove) : (s.updGrove f).can = s.can := rfl
@[simp] theorem State.updGrove_crown (f : Grove → Grove) : (s.updGrove f).crown = s.crown := rfl
@[simp] theorem State.updGrove_crownTime (f : Grove → Grove) : (s.updGrove f).crownTime = s.crownTime := rfl
@[simp] theorem State.updGrove_readiness (f : Grove → Grove) : (s.updGrove f).readiness = s.readiness := rfl
@[simp] theorem State.updGrove_readyFailed (f : Grove → Grove) : (s.updGrove f).readyFailed = s.readyFailed := rfl
@[simp] theorem State.updGrove_notExpected (f : Grove → Grove) : (s.updGrove f).notExpected = s.notExpected := rfl
@[simp] theorem State.updGrove_alertCause (f : Grove → Grove) : (s.updGrove f).alertCause = s.alertCause := rfl
@[simp] theorem State.updGrove_boot (f : Grove → Grove) : (s.updGrove f).boot = s.boot := rfl
@[simp] theorem State.updGrove_nv (f : Grove → Grove) : (s.updGrove f).nv = s.nv := rfl
@[simp] theorem State.updGrove_log (f : Grove → Grove) : (s.updGrove f).log = s.log := rfl
@[simp] theorem State.updGrove_sec (f : Grove → Grove) : (s.updGrove f).sec = s.sec := rfl
@[simp] theorem State.updGrove_power (f : Grove → Grove) : (s.updGrove f).power = s.power := rfl
@[simp] theorem State.updGrove_seams (f : Grove → Grove) : (s.updGrove f).seams = s.seams := rfl
@[simp] theorem State.updGrove_groups (f : Grove → Grove) : (s.updGrove f).groups = s.groups := rfl
@[simp] theorem State.updGrove_slices (f : Grove → Grove) : (s.updGrove f).slices = s.slices := rfl
@[simp] theorem State.updGrove_trunk (f : Grove → Grove) : (s.updGrove f).trunk = s.trunk := rfl
@[simp] theorem State.updGrove_trunkStamp (f : Grove → Grove) : (s.updGrove f).trunkStamp = s.trunkStamp := rfl
@[simp] theorem State.updGrove_waits (f : Grove → Grove) : (s.updGrove f).waits = s.waits := rfl
@[simp] theorem State.updGrove_boughs (f : Grove → Grove) : (s.updGrove f).boughs = s.boughs := rfl
@[simp] theorem State.updGrove_hub (f : Grove → Grove) : (s.updGrove f).hub = s.hub := rfl
@[simp] theorem State.updGrove_cameras (f : Grove → Grove) : (s.updGrove f).cameras = s.cameras := rfl
@[simp] theorem State.updGrove_pipes (f : Grove → Grove) : (s.updGrove f).pipes = s.pipes := rfl
@[simp] theorem State.updGrove_i2c (f : Grove → Grove) : (s.updGrove f).i2c = s.i2c := rfl
@[simp] theorem State.updGrove_fsync (f : Grove → Grove) : (s.updGrove f).fsync = s.fsync := rfl
@[simp] theorem State.updGrove_encoders (f : Grove → Grove) : (s.updGrove f).encoders = s.encoders := rfl
@[simp] theorem State.updGrove_decoder (f : Grove → Grove) : (s.updGrove f).decoder = s.decoder := rfl
@[simp] theorem State.updGrove_sample (f : Grove → Grove) : (s.updGrove f).sample = s.sample := rfl
@[simp] theorem State.updGrove_linkUnits (f : Grove → Grove) : (s.updGrove f).linkUnits = s.linkUnits := rfl
@[simp] theorem State.updGrove_grove (f : Grove → Grove) : (s.updGrove f).grove = f s.grove := rfl
@[simp] theorem State.updGrove_pcie (f : Grove → Grove) : (s.updGrove f).pcie = s.pcie := rfl

@[simp] theorem State.updLink_pending (k : LinkId) (f : Link → Link) : (s.updLink k f).pending = s.pending := rfl
@[simp] theorem State.updLink_free (k : LinkId) (f : Link → Link) : (s.updLink k f).free = s.free := rfl
@[simp] theorem State.updLink_grade (k : LinkId) (f : Link → Link) : (s.updLink k f).grade = s.grade := rfl
@[simp] theorem State.updLink_now (k : LinkId) (f : Link → Link) : (s.updLink k f).now = s.now := rfl
@[simp] theorem State.updLink_porstLow (k : LinkId) (f : Link → Link) : (s.updLink k f).porstLow = s.porstLow := rfl
@[simp] theorem State.updLink_testEn (k : LinkId) (f : Link → Link) : (s.updLink k f).testEn = s.testEn := rfl
@[simp] theorem State.updLink_mem (k : LinkId) (f : Link → Link) : (s.updLink k f).mem = s.mem := rfl
@[simp] theorem State.updLink_objs (k : LinkId) (f : Link → Link) : (s.updLink k f).objs = s.objs := rfl
@[simp] theorem State.updLink_ports (k : LinkId) (f : Link → Link) : (s.updLink k f).ports = s.ports := rfl
@[simp] theorem State.updLink_can (k : LinkId) (f : Link → Link) : (s.updLink k f).can = s.can := rfl
@[simp] theorem State.updLink_crown (k : LinkId) (f : Link → Link) : (s.updLink k f).crown = s.crown := rfl
@[simp] theorem State.updLink_crownTime (k : LinkId) (f : Link → Link) : (s.updLink k f).crownTime = s.crownTime := rfl
@[simp] theorem State.updLink_readiness (k : LinkId) (f : Link → Link) : (s.updLink k f).readiness = s.readiness := rfl
@[simp] theorem State.updLink_readyFailed (k : LinkId) (f : Link → Link) : (s.updLink k f).readyFailed = s.readyFailed := rfl
@[simp] theorem State.updLink_notExpected (k : LinkId) (f : Link → Link) : (s.updLink k f).notExpected = s.notExpected := rfl
@[simp] theorem State.updLink_alertCause (k : LinkId) (f : Link → Link) : (s.updLink k f).alertCause = s.alertCause := rfl
@[simp] theorem State.updLink_boot (k : LinkId) (f : Link → Link) : (s.updLink k f).boot = s.boot := rfl
@[simp] theorem State.updLink_nv (k : LinkId) (f : Link → Link) : (s.updLink k f).nv = s.nv := rfl
@[simp] theorem State.updLink_log (k : LinkId) (f : Link → Link) : (s.updLink k f).log = s.log := rfl
@[simp] theorem State.updLink_sec (k : LinkId) (f : Link → Link) : (s.updLink k f).sec = s.sec := rfl
@[simp] theorem State.updLink_power (k : LinkId) (f : Link → Link) : (s.updLink k f).power = s.power := rfl
@[simp] theorem State.updLink_seams (k : LinkId) (f : Link → Link) : (s.updLink k f).seams = s.seams := rfl
@[simp] theorem State.updLink_groups (k : LinkId) (f : Link → Link) : (s.updLink k f).groups = s.groups := rfl
@[simp] theorem State.updLink_slices (k : LinkId) (f : Link → Link) : (s.updLink k f).slices = s.slices := rfl
@[simp] theorem State.updLink_trunk (k : LinkId) (f : Link → Link) : (s.updLink k f).trunk = s.trunk := rfl
@[simp] theorem State.updLink_trunkStamp (k : LinkId) (f : Link → Link) : (s.updLink k f).trunkStamp = s.trunkStamp := rfl
@[simp] theorem State.updLink_waits (k : LinkId) (f : Link → Link) : (s.updLink k f).waits = s.waits := rfl
@[simp] theorem State.updLink_boughs (k : LinkId) (f : Link → Link) : (s.updLink k f).boughs = s.boughs := rfl
@[simp] theorem State.updLink_hub (k : LinkId) (f : Link → Link) : (s.updLink k f).hub = s.hub := rfl
@[simp] theorem State.updLink_cameras (k : LinkId) (f : Link → Link) : (s.updLink k f).cameras = s.cameras := rfl
@[simp] theorem State.updLink_pipes (k : LinkId) (f : Link → Link) : (s.updLink k f).pipes = s.pipes := rfl
@[simp] theorem State.updLink_i2c (k : LinkId) (f : Link → Link) : (s.updLink k f).i2c = s.i2c := rfl
@[simp] theorem State.updLink_fsync (k : LinkId) (f : Link → Link) : (s.updLink k f).fsync = s.fsync := rfl
@[simp] theorem State.updLink_encoders (k : LinkId) (f : Link → Link) : (s.updLink k f).encoders = s.encoders := rfl
@[simp] theorem State.updLink_decoder (k : LinkId) (f : Link → Link) : (s.updLink k f).decoder = s.decoder := rfl
@[simp] theorem State.updLink_sample (k : LinkId) (f : Link → Link) : (s.updLink k f).sample = s.sample := rfl
@[simp] theorem State.updLink_linkUnits (k : LinkId) (f : Link → Link) : (s.updLink k f).linkUnits = upd s.linkUnits k f := rfl
@[simp] theorem State.updLink_grove (k : LinkId) (f : Link → Link) : (s.updLink k f).grove = s.grove := rfl
@[simp] theorem State.updLink_pcie (k : LinkId) (f : Link → Link) : (s.updLink k f).pcie = s.pcie := rfl

@[simp] theorem State.updPower_pending (f : Power → Power) : (s.updPower f).pending = s.pending := rfl
@[simp] theorem State.updPower_free (f : Power → Power) : (s.updPower f).free = s.free := rfl
@[simp] theorem State.updPower_grade (f : Power → Power) : (s.updPower f).grade = s.grade := rfl
@[simp] theorem State.updPower_now (f : Power → Power) : (s.updPower f).now = s.now := rfl
@[simp] theorem State.updPower_porstLow (f : Power → Power) : (s.updPower f).porstLow = s.porstLow := rfl
@[simp] theorem State.updPower_testEn (f : Power → Power) : (s.updPower f).testEn = s.testEn := rfl
@[simp] theorem State.updPower_mem (f : Power → Power) : (s.updPower f).mem = s.mem := rfl
@[simp] theorem State.updPower_objs (f : Power → Power) : (s.updPower f).objs = s.objs := rfl
@[simp] theorem State.updPower_ports (f : Power → Power) : (s.updPower f).ports = s.ports := rfl
@[simp] theorem State.updPower_can (f : Power → Power) : (s.updPower f).can = s.can := rfl
@[simp] theorem State.updPower_crown (f : Power → Power) : (s.updPower f).crown = s.crown := rfl
@[simp] theorem State.updPower_crownTime (f : Power → Power) : (s.updPower f).crownTime = s.crownTime := rfl
@[simp] theorem State.updPower_readiness (f : Power → Power) : (s.updPower f).readiness = s.readiness := rfl
@[simp] theorem State.updPower_readyFailed (f : Power → Power) : (s.updPower f).readyFailed = s.readyFailed := rfl
@[simp] theorem State.updPower_notExpected (f : Power → Power) : (s.updPower f).notExpected = s.notExpected := rfl
@[simp] theorem State.updPower_alertCause (f : Power → Power) : (s.updPower f).alertCause = s.alertCause := rfl
@[simp] theorem State.updPower_boot (f : Power → Power) : (s.updPower f).boot = s.boot := rfl
@[simp] theorem State.updPower_nv (f : Power → Power) : (s.updPower f).nv = s.nv := rfl
@[simp] theorem State.updPower_log (f : Power → Power) : (s.updPower f).log = s.log := rfl
@[simp] theorem State.updPower_sec (f : Power → Power) : (s.updPower f).sec = s.sec := rfl
@[simp] theorem State.updPower_power (f : Power → Power) : (s.updPower f).power = f s.power := rfl
@[simp] theorem State.updPower_seams (f : Power → Power) : (s.updPower f).seams = s.seams := rfl
@[simp] theorem State.updPower_groups (f : Power → Power) : (s.updPower f).groups = s.groups := rfl
@[simp] theorem State.updPower_slices (f : Power → Power) : (s.updPower f).slices = s.slices := rfl
@[simp] theorem State.updPower_trunk (f : Power → Power) : (s.updPower f).trunk = s.trunk := rfl
@[simp] theorem State.updPower_trunkStamp (f : Power → Power) : (s.updPower f).trunkStamp = s.trunkStamp := rfl
@[simp] theorem State.updPower_waits (f : Power → Power) : (s.updPower f).waits = s.waits := rfl
@[simp] theorem State.updPower_boughs (f : Power → Power) : (s.updPower f).boughs = s.boughs := rfl
@[simp] theorem State.updPower_hub (f : Power → Power) : (s.updPower f).hub = s.hub := rfl
@[simp] theorem State.updPower_cameras (f : Power → Power) : (s.updPower f).cameras = s.cameras := rfl
@[simp] theorem State.updPower_pipes (f : Power → Power) : (s.updPower f).pipes = s.pipes := rfl
@[simp] theorem State.updPower_i2c (f : Power → Power) : (s.updPower f).i2c = s.i2c := rfl
@[simp] theorem State.updPower_fsync (f : Power → Power) : (s.updPower f).fsync = s.fsync := rfl
@[simp] theorem State.updPower_encoders (f : Power → Power) : (s.updPower f).encoders = s.encoders := rfl
@[simp] theorem State.updPower_decoder (f : Power → Power) : (s.updPower f).decoder = s.decoder := rfl
@[simp] theorem State.updPower_sample (f : Power → Power) : (s.updPower f).sample = s.sample := rfl
@[simp] theorem State.updPower_linkUnits (f : Power → Power) : (s.updPower f).linkUnits = s.linkUnits := rfl
@[simp] theorem State.updPower_grove (f : Power → Power) : (s.updPower f).grove = s.grove := rfl
@[simp] theorem State.updPower_pcie (f : Power → Power) : (s.updPower f).pcie = s.pcie := rfl

@[simp] theorem State.updSp_pending (f : SamplePipe → SamplePipe) : (s.updSp f).pending = s.pending := rfl
@[simp] theorem State.updSp_free (f : SamplePipe → SamplePipe) : (s.updSp f).free = s.free := rfl
@[simp] theorem State.updSp_grade (f : SamplePipe → SamplePipe) : (s.updSp f).grade = s.grade := rfl
@[simp] theorem State.updSp_now (f : SamplePipe → SamplePipe) : (s.updSp f).now = s.now := rfl
@[simp] theorem State.updSp_porstLow (f : SamplePipe → SamplePipe) : (s.updSp f).porstLow = s.porstLow := rfl
@[simp] theorem State.updSp_testEn (f : SamplePipe → SamplePipe) : (s.updSp f).testEn = s.testEn := rfl
@[simp] theorem State.updSp_mem (f : SamplePipe → SamplePipe) : (s.updSp f).mem = s.mem := rfl
@[simp] theorem State.updSp_objs (f : SamplePipe → SamplePipe) : (s.updSp f).objs = s.objs := rfl
@[simp] theorem State.updSp_ports (f : SamplePipe → SamplePipe) : (s.updSp f).ports = s.ports := rfl
@[simp] theorem State.updSp_can (f : SamplePipe → SamplePipe) : (s.updSp f).can = s.can := rfl
@[simp] theorem State.updSp_crown (f : SamplePipe → SamplePipe) : (s.updSp f).crown = s.crown := rfl
@[simp] theorem State.updSp_crownTime (f : SamplePipe → SamplePipe) : (s.updSp f).crownTime = s.crownTime := rfl
@[simp] theorem State.updSp_readiness (f : SamplePipe → SamplePipe) : (s.updSp f).readiness = s.readiness := rfl
@[simp] theorem State.updSp_readyFailed (f : SamplePipe → SamplePipe) : (s.updSp f).readyFailed = s.readyFailed := rfl
@[simp] theorem State.updSp_notExpected (f : SamplePipe → SamplePipe) : (s.updSp f).notExpected = s.notExpected := rfl
@[simp] theorem State.updSp_alertCause (f : SamplePipe → SamplePipe) : (s.updSp f).alertCause = s.alertCause := rfl
@[simp] theorem State.updSp_boot (f : SamplePipe → SamplePipe) : (s.updSp f).boot = s.boot := rfl
@[simp] theorem State.updSp_nv (f : SamplePipe → SamplePipe) : (s.updSp f).nv = s.nv := rfl
@[simp] theorem State.updSp_log (f : SamplePipe → SamplePipe) : (s.updSp f).log = s.log := rfl
@[simp] theorem State.updSp_sec (f : SamplePipe → SamplePipe) : (s.updSp f).sec = s.sec := rfl
@[simp] theorem State.updSp_power (f : SamplePipe → SamplePipe) : (s.updSp f).power = s.power := rfl
@[simp] theorem State.updSp_seams (f : SamplePipe → SamplePipe) : (s.updSp f).seams = s.seams := rfl
@[simp] theorem State.updSp_groups (f : SamplePipe → SamplePipe) : (s.updSp f).groups = s.groups := rfl
@[simp] theorem State.updSp_slices (f : SamplePipe → SamplePipe) : (s.updSp f).slices = s.slices := rfl
@[simp] theorem State.updSp_trunk (f : SamplePipe → SamplePipe) : (s.updSp f).trunk = s.trunk := rfl
@[simp] theorem State.updSp_trunkStamp (f : SamplePipe → SamplePipe) : (s.updSp f).trunkStamp = s.trunkStamp := rfl
@[simp] theorem State.updSp_waits (f : SamplePipe → SamplePipe) : (s.updSp f).waits = s.waits := rfl
@[simp] theorem State.updSp_boughs (f : SamplePipe → SamplePipe) : (s.updSp f).boughs = s.boughs := rfl
@[simp] theorem State.updSp_hub (f : SamplePipe → SamplePipe) : (s.updSp f).hub = s.hub := rfl
@[simp] theorem State.updSp_cameras (f : SamplePipe → SamplePipe) : (s.updSp f).cameras = s.cameras := rfl
@[simp] theorem State.updSp_pipes (f : SamplePipe → SamplePipe) : (s.updSp f).pipes = s.pipes := rfl
@[simp] theorem State.updSp_i2c (f : SamplePipe → SamplePipe) : (s.updSp f).i2c = s.i2c := rfl
@[simp] theorem State.updSp_fsync (f : SamplePipe → SamplePipe) : (s.updSp f).fsync = s.fsync := rfl
@[simp] theorem State.updSp_encoders (f : SamplePipe → SamplePipe) : (s.updSp f).encoders = s.encoders := rfl
@[simp] theorem State.updSp_decoder (f : SamplePipe → SamplePipe) : (s.updSp f).decoder = s.decoder := rfl
@[simp] theorem State.updSp_sample (f : SamplePipe → SamplePipe) : (s.updSp f).sample = f s.sample := rfl
@[simp] theorem State.updSp_linkUnits (f : SamplePipe → SamplePipe) : (s.updSp f).linkUnits = s.linkUnits := rfl
@[simp] theorem State.updSp_grove (f : SamplePipe → SamplePipe) : (s.updSp f).grove = s.grove := rfl
@[simp] theorem State.updSp_pcie (f : SamplePipe → SamplePipe) : (s.updSp f).pcie = s.pcie := rfl

@[simp] theorem State.updGroup_pending (b : BoughId) (f : Group → Group) : (s.updGroup b f).pending = s.pending := rfl
@[simp] theorem State.updGroup_free (b : BoughId) (f : Group → Group) : (s.updGroup b f).free = s.free := rfl
@[simp] theorem State.updGroup_grade (b : BoughId) (f : Group → Group) : (s.updGroup b f).grade = s.grade := rfl
@[simp] theorem State.updGroup_now (b : BoughId) (f : Group → Group) : (s.updGroup b f).now = s.now := rfl
@[simp] theorem State.updGroup_porstLow (b : BoughId) (f : Group → Group) : (s.updGroup b f).porstLow = s.porstLow := rfl
@[simp] theorem State.updGroup_testEn (b : BoughId) (f : Group → Group) : (s.updGroup b f).testEn = s.testEn := rfl
@[simp] theorem State.updGroup_mem (b : BoughId) (f : Group → Group) : (s.updGroup b f).mem = s.mem := rfl
@[simp] theorem State.updGroup_objs (b : BoughId) (f : Group → Group) : (s.updGroup b f).objs = s.objs := rfl
@[simp] theorem State.updGroup_ports (b : BoughId) (f : Group → Group) : (s.updGroup b f).ports = s.ports := rfl
@[simp] theorem State.updGroup_can (b : BoughId) (f : Group → Group) : (s.updGroup b f).can = s.can := rfl
@[simp] theorem State.updGroup_crown (b : BoughId) (f : Group → Group) : (s.updGroup b f).crown = s.crown := rfl
@[simp] theorem State.updGroup_crownTime (b : BoughId) (f : Group → Group) : (s.updGroup b f).crownTime = s.crownTime := rfl
@[simp] theorem State.updGroup_readiness (b : BoughId) (f : Group → Group) : (s.updGroup b f).readiness = s.readiness := rfl
@[simp] theorem State.updGroup_readyFailed (b : BoughId) (f : Group → Group) : (s.updGroup b f).readyFailed = s.readyFailed := rfl
@[simp] theorem State.updGroup_notExpected (b : BoughId) (f : Group → Group) : (s.updGroup b f).notExpected = s.notExpected := rfl
@[simp] theorem State.updGroup_alertCause (b : BoughId) (f : Group → Group) : (s.updGroup b f).alertCause = s.alertCause := rfl
@[simp] theorem State.updGroup_boot (b : BoughId) (f : Group → Group) : (s.updGroup b f).boot = s.boot := rfl
@[simp] theorem State.updGroup_nv (b : BoughId) (f : Group → Group) : (s.updGroup b f).nv = s.nv := rfl
@[simp] theorem State.updGroup_log (b : BoughId) (f : Group → Group) : (s.updGroup b f).log = s.log := rfl
@[simp] theorem State.updGroup_sec (b : BoughId) (f : Group → Group) : (s.updGroup b f).sec = s.sec := rfl
@[simp] theorem State.updGroup_power (b : BoughId) (f : Group → Group) : (s.updGroup b f).power = s.power := rfl
@[simp] theorem State.updGroup_seams (b : BoughId) (f : Group → Group) : (s.updGroup b f).seams = s.seams := rfl
@[simp] theorem State.updGroup_groups (b : BoughId) (f : Group → Group) : (s.updGroup b f).groups = upd s.groups b f := rfl
@[simp] theorem State.updGroup_slices (b : BoughId) (f : Group → Group) : (s.updGroup b f).slices = s.slices := rfl
@[simp] theorem State.updGroup_trunk (b : BoughId) (f : Group → Group) : (s.updGroup b f).trunk = s.trunk := rfl
@[simp] theorem State.updGroup_trunkStamp (b : BoughId) (f : Group → Group) : (s.updGroup b f).trunkStamp = s.trunkStamp := rfl
@[simp] theorem State.updGroup_waits (b : BoughId) (f : Group → Group) : (s.updGroup b f).waits = s.waits := rfl
@[simp] theorem State.updGroup_boughs (b : BoughId) (f : Group → Group) : (s.updGroup b f).boughs = s.boughs := rfl
@[simp] theorem State.updGroup_hub (b : BoughId) (f : Group → Group) : (s.updGroup b f).hub = s.hub := rfl
@[simp] theorem State.updGroup_cameras (b : BoughId) (f : Group → Group) : (s.updGroup b f).cameras = s.cameras := rfl
@[simp] theorem State.updGroup_pipes (b : BoughId) (f : Group → Group) : (s.updGroup b f).pipes = s.pipes := rfl
@[simp] theorem State.updGroup_i2c (b : BoughId) (f : Group → Group) : (s.updGroup b f).i2c = s.i2c := rfl
@[simp] theorem State.updGroup_fsync (b : BoughId) (f : Group → Group) : (s.updGroup b f).fsync = s.fsync := rfl
@[simp] theorem State.updGroup_encoders (b : BoughId) (f : Group → Group) : (s.updGroup b f).encoders = s.encoders := rfl
@[simp] theorem State.updGroup_decoder (b : BoughId) (f : Group → Group) : (s.updGroup b f).decoder = s.decoder := rfl
@[simp] theorem State.updGroup_sample (b : BoughId) (f : Group → Group) : (s.updGroup b f).sample = s.sample := rfl
@[simp] theorem State.updGroup_linkUnits (b : BoughId) (f : Group → Group) : (s.updGroup b f).linkUnits = s.linkUnits := rfl
@[simp] theorem State.updGroup_grove (b : BoughId) (f : Group → Group) : (s.updGroup b f).grove = s.grove := rfl
@[simp] theorem State.updGroup_pcie (b : BoughId) (f : Group → Group) : (s.updGroup b f).pcie = s.pcie := rfl

end Sys2Proof.Machine
end

