-- ==== Sys2Proof/Laws/Ops.lean ====
section
/-! SUPPORT. What the shared operations do, said once: a meaning's answer, a write of a dictionary object that is applied or refused, a
frame's refusal, the requester's counts. -/
namespace Sys2Proof.Machine
open Sys2Proof

/- A meaning's answer. -/

/-- A meaning that leaves the queue alone answers exactly the state it names. -/
theorem done_eq {s t : State} (h : t.pending = s.pending) : done s t = .next t := by
  unfold done; rw [← h]

/-- Every meaning answers a next state whose queue is as it was. -/
theorem done_next (s t : State) : ∃ u, done s t = .next u ∧ u.pending = s.pending := ⟨_, rfl, rfl⟩

/- Refusal codes (R409). -/

theorem codeIf_nil {c : Bool} {n : Nat} : codeIf c n = [] ↔ c = false := by cases c <;> simp [codeIf]

theorem firstCode_nil : firstCode [] = none := rfl

/-- A list of codes names a refusal exactly where it is not empty. -/
theorem firstCode_none (l : List Nat) : firstCode l = none ↔ l = [] := by
  cases l with
  | nil => simp [firstCode]
  | cons c cs =>
    simp only [firstCode]
    split
    · simp
    · split <;> simp

/-- The code that a list of codes names is one of them. -/
theorem firstCode_mem {l : List Nat} {c : Nat} (h : firstCode l = some c) : c ∈ l := by
  induction l with
  | nil => simp [firstCode] at h
  | cons d ds ih =>
    simp only [firstCode] at h
    split at h
    · simp_all
    · split at h
      · simp_all
      · rename_i heq _; have := Option.some.inj h; subst this; exact List.mem_cons_of_mem _ (ih heq)

/- Counts of a requester (R418). -/

/-- An applied write changes its requester's DONE alone. -/
theorem State.countDone_eq (s : State) (r : Requester) :
    s.countDone r = { s with ports := upd s.ports (reqNum r) fun p => { p with done := p.done + 1 } } := rfl

/- Writes of dictionary objects (R409, R410). -/

/-- A write that nothing refuses is applied at once and counted. -/
theorem dictWrite_applied {s t : State} {r : Requester} {o : Ob} {a b k : Nat} {v : Word}
    (hw : Safety.Writes s r o a b k v) (hc : ownCodes r ⟨o, a, b, k⟩ v s = ([], s)) (hf : ownFx r ⟨o, a, b, k⟩ v s = (true, t)) :
    dictWrite r o a b k v s = t.countDone r := by
  obtain ⟨h1, hn, h3⟩ := hw
  simp [dictWrite, h1, hn, State.writeTarget, h3, hc, hf, firstCode]

/-- A write that its object's own rules refuse has no effect but on port_status, ACCESS_REFUSED and what R265 and R481 name. -/
theorem dictWrite_refused {s : State} {r : Requester} {o : Ob} {a b k : Nat} {v : Word} {l : List Nat} {c : Nat}
    (hw : Safety.Writes s r o a b k v) (hr : o.row.acc ≠ .const) (hr' : o.row.acc ≠ .ro)
    (hc : ownCodes r ⟨o, a, b, k⟩ v s = (l, s)) (hl : firstCode l = some c) :
    dictWrite r o a b k v s = (refusedFx ⟨o, a, b, k⟩ v true c s).refuse r (objNum (o.index a b) (o.subindex k)) false c := by
  obtain ⟨h1, hn, h3⟩ := hw
  simp [dictWrite, h1, hn, State.writeTarget, h3, hc, hl, hr, hr', firstCode]

/-- A requester whose port does not serve changes nothing by a write. -/
theorem dictWrite_unserved {s : State} {r : Requester} {o : Ob} {a b k : Nat} {v : Word} (h : s.serves r = false) :
    dictWrite r o a b k v s = s := by simp [dictWrite, h]

end Sys2Proof.Machine
end

