-- ==== Sys2Proof/WellFormed.lean ====
section
/-! DEFINITION. When a command's operands can occur: the sizes that the frames, packets and transactions of the spec have. A command that
is not well formed has a meaning all the same, which leaves the block as the spec says of what it ignores. -/
namespace Sys2Proof

/-- A Burlyn frame's opcode is the command's, and its length is one that a frame can have: two bytes of opcode, four of address, and at most
the block buffer (R413, R414). -/
def frameOk (f : List Byte) (op : Byte) : Bool := f.head? = some op && f.length ≤ 4102

/-- A store or load of the host window lies within it and is of 1, 2, 4 or 8 bytes (R35, R422). -/
def DictAccess.wellFormed : DictAccess → Bool
  | .write _ _ _ => true
  | .store o w _ | .load o w => (w = 1 || w = 2 || w = 4 || w = 8) && o + w ≤ 0x10000000

/-- Bytes that a memory request moves. -/
def MemRequest.bytes (m : MemRequest) : Nat :=
  match m.kind with
  | .write bs => bs.length
  | .read | .fetch => m.len

/-- A memory request moves something, within one line or burst of the size given (R327, R357). -/
def MemRequest.wellFormed (m : MemRequest) (size : Nat) : Bool := 0 < m.bytes && m.addr % size + m.bytes ≤ size

/-- A peer speaks a protocol from 1 on (R528). -/
def LinkOutcome.wellFormed : LinkOutcome → Bool
  | .up _ p _ => 1 ≤ p
  | .trainingFails | .authFails => true

/-- A TLP names a BAR of the function and moves 1 to 8 bytes there; a device's request moves 1 to 4,096 bytes (R540, R542). -/
def PcieTlp.wellFormed : PcieTlp → Bool
  | .barAccess bar _ w _ => bar < 6 && 1 ≤ w && w ≤ 8
  | .memRead _ _ n => 1 ≤ n && n ≤ 4096
  | .memWrite _ _ bs => 1 ≤ bs.length && bs.length ≤ 4096
  | .uncorrectableError => true

/-- A command's operands are of the sizes they can have. -/
def Instr.wellFormed : Instr → Bool
  | .porstNFall _ => true
  | .porstNRise _ _ => true
  | .foremanImageLoad _ _ => true
  | .hostPayloadLoad _ => true
  | .foremanTrap _ _ => true
  | .foremanRestart _ _ => true
  | .fwUpdateStart _ _ => true
  | .fwUpdateDone _ => true
  | .firmwareConfirm _ _ => true
  | .trialExpiry _ => true
  | .hostL2Unlock _ _ => true
  | .flashLogCopy => true
  | .flashLogErase _ _ => true
  | .recoveryHello p => p.payload.length ≤ 4096
  | .recoveryBegin p => p.payload.length ≤ 4096
  | .recoveryData p => p.payload.length ≤ 4096
  | .recoveryFinish p => p.payload.length ≤ 4096
  | .recoveryReboot p => p.payload.length ≤ 4096
  | .recoveryPacketGap => true
  | .read f => frameOk f 0x0B
  | .write f => frameOk f 0x12 || frameOk f 0x30 || frameOk f 0x31
  | .blockOpen _ _ => true
  | .blockCommit _ _ => true
  | .blockDataRead _ _ n => 1 ≤ n && n ≤ 4096
  | .blockDataWrite _ _ d => 1 ≤ d.length && d.length ≤ 4096
  | .portReset f => frameOk f 0x99
  | .postedWriteApply => true
  | .blockTransferDone _ => true
  | .canRequest _ f => f.data.length ≤ (if f.fd then 64 else 8)
  | .canBusOff _ _ => true
  | .alertCauseClear _ _ => true
  | .dictionaryWrite _ a => a.wellFormed
  | .ifDeclare _ _ _ => true
  | .t5Accept _ _ _ => true
  | .readinessExpectedWrite _ _ => true
  | .quiesce _ => true
  | .resume _ => true
  | .sleep _ => true
  | .wake _ => true
  | .boughDown _ _ => true
  | .boughUp _ _ => true
  | .halt _ => true
  | .boughReset _ _ => true
  | .boughDrainLimit _ => true
  | .boughDrainEnd _ => true
  | .boughResetDone _ => true
  | .doorbell _ _ _ => true
  | .compReadWrite _ _ _ => true
  | .wqEnable _ _ => true
  | .wqDisable _ _ => true
  | .wqCancel _ _ _ => true
  | .wqCancelAll _ _ _ => true
  | .cancelBundle _ _ => true
  | .jobDeadline _ _ => true
  | .jobHandleTake _ _ => true
  | .jobBufferReserve _ _ => true
  | .completionRecordWrite _ => true
  | .completionRecordRetry _ => true
  | .descriptorStart => true
  | .branchJoin _ _ => true
  | .counterSeek _ _ => true
  | .workClaim _ => true
  | .leafStep _ _ _ e => e.2.length ≤ 92
  | .drainWriteoutDone _ _ _ => true
  | .tileFinish _ _ => true
  | .descriptorComplete _ _ _ _ => true
  | .eventCounterWrite _ _ _ _ => true
  | .sortUnitStart _ => true
  | .sortUnitDone _ => true
  | .rotatePass _ => true
  | .counterGroupClear _ _ _ => true
  | .transferIssue _ => true
  | .transferComplete _ i => i.2.length ≤ 92
  | .hqBind _ _ _ => true
  | .hqUnbind _ _ _ => true
  | .hqPost _ _ _ _ => true
  | .producerBufferTake _ _ _ => true
  | .loadRequest _ _ => true
  | .loadComplete => true
  | .unload _ _ => true
  | .counterBlockBind _ _ _ _ => true
  | .spStart _ => true
  | .spStop _ => true
  | .packSample => true
  | .batchPost => true
  | .csiEnable _ _ _ => true
  | .csiDisable _ _ _ => true
  | .csiPacket _ k => k.headerErrors ≤ 32 && k.pixels.length ≤ 24576
  | .frameStart _ => true
  | .csiLine _ px => 1 ≤ px.length && px.length ≤ 24576
  | .ipipeLine _ => true
  | .frameEnd _ => true
  | .i2cXfer _ _ d => d.length = 36
  | .i2cDone _ _ _ d => d.length ≤ 32
  | .stretchTimeout _ _ => true
  | .fsyncEdge _ => true
  | .fsyncPulseEnd _ => true
  | .encEnable _ _ _ => true
  | .encDisable _ _ _ => true
  | .encAccessUnit _ => true
  | .encBsReadWrite _ _ _ => true
  | .decTailWrite _ _ => true
  | .decCommand => true
  | .decPicturePost => true
  | .seamRequest _ q => q.all (·.wellFormed 64)
  | .seamCommandIssue _ => true
  | .seamReadData _ _ => true
  | .sweepDebtTick _ _ => true
  | .dramTempPoll _ _ => true
  | .rowOpenTimeout _ _ => true
  | .scrubPromote _ => true
  | .refTick _ => true
  | .refWindowEnd _ => true
  | .seamTrainDone _ _ => true
  | .seamOut _ _ => true
  | .dramGroupKeep _ _ => true
  | .dramGroupDrop _ _ => true
  | .dramGroupOn _ _ => true
  | .dramGroupChangeDone _ => true
  | .dramEnHoldEnd _ => true
  | .sliceAccept q => q.1.all (·.wellFormed 128)
  | .starveFlagsClear _ _ => true
  | .cacheEarlyWaysWrite _ _ => true
  | .domainOffWrite _ _ _ => true
  | .powerPeriod _ => true
  | .paceUpdate _ _ => true
  | .voltageStepAck => true
  | .vrAlert _ => true
  | .vrAlertRelease => true
  | .thermalSensorRead _ => true
  | .claimOpen _ _ => true
  | .openConfidential _ _ => true
  | .release _ _ => true
  | .claimReleaseDone _ => true
  | .assign _ _ _ _ _ => true
  | .clear _ _ _ => true
  | .revive _ _ _ => true
  | .segmentChange => true
  | .report _ _ => true
  | .reportReady _ => true
  | .unwrap _ _ => true
  | .lmsTreeReady => true
  | .importData _ => true
  | .exportData _ => true
  | .cryptDone => true
  | .ownerKeyProgram _ d => d.length = 49
  | .drbgReseed => true
  | .entropyHealthFail => true
  | .linkEnable _ _ _ => true
  | .linkUp _ o => o.wellFormed
  | .linkDisable _ _ _ => true
  | .linkFence _ _ => true
  | .memberFence _ _ => true
  | .flitReceive _ _ => true
  | .linkRetrainDone _ _ => true
  | .laneRepaired _ _ => true
  | .linkRekey _ _ => true
  | .readReq _ t => 1 ≤ t.len && t.len ≤ 256 && t.data.isEmpty
  | .writeTransaction _ t => 1 ≤ t.data.length && t.data.length ≤ 256 && t.len = t.data.length
  | .readCpl _ t _ => t.data.length ≤ 256
  | .writeAck _ t _ => t.data.isEmpty
  | .pair _ _ _ tag => tag.length = 16
  | .peerClaimsWrite _ _ _ => true
  | .timeExchange _ => true
  | .pcieInboundRequest t => t.wellFormed
  | .pcieCompletionTimeout _ => true
  | .pcieLinkReset _ => true
  | .pcieLinkUp _ _ _ => true
  | .functionReportsReady _ => true
  | .localMemoryZeroed _ => true
  | .claimInSession _ => true
  | .claimSealed _ => true
  | .hsBurst _ _ => true
  | .skewCalibration _ => true

end Sys2Proof
end

