-- ==== Sys2Proof/Tests/Slice0.lean ====
section
/-! SUPPORT. Tests: small states, the spec's worked examples, ill-formed commands, and for every statement with hypotheses a witness that
meets them, clause by clause. -/
set_option Elab.async false

namespace Sys2Proof.Tests
open Sys2Proof Sys2Proof.Machine

/-- An operational part: every foreman runs, every function is ready, seams and boughs serve, host interface declared at version 3.0. -/
def op : State :=
  { State.reset with
    porstLow := false
    crown := .operational
    readiness := 0xFFFFFFFFFF
    now := 1000000
    ports := #v[{ accepted := 0x03000000 }, { accepted := 0x03000000 }, { accepted := 0x03000000 },
      { declared := 0x0300, accepted := 0x0300 }, {}]
    boot := { foremen := Vector.replicate 5 { state := .running } }
    boughs := Vector.replicate 4 { state := .ready, zeroed := true }
    groups := Vector.replicate 4 { enable := true }
    seams := Vector.replicate 16 { state := .ready, raw := false }
    pcie := { up := #v[true, false] }
    sec := { claims := (Vector.replicate 16 {}).set 0 { state := .opened }, segs := [(1, { lost := false })] } }

/-- The same with registers put. -/
def regs (s : State) (l : List (Nat × BitVec 64)) : State := { s with objs := l.foldl (fun m p => SMap.set 0 m p.1 p.2) s.objs }

/-- The same with bytes of memory written. -/
def wr (s : State) (a : Nat) (bs : List Byte) : State := { s with mem := s.mem.writeBytes a bs }

/-- The same with handle queue 3 of bough 0 bound and two buffers free, the pool at `a`. -/
def withPoolAt (a : Nat) (s : State) : State :=
  { s with boughs := s.boughs.set 0 { s.boughs[(0 : Fin 4)] with
      hqs := s.boughs[(0 : Fin 4)].hqs.set 3 { bound := true, base := a, stride := 0x10000, count := 2, free := [0, 1] } } }

/-- The pool in the early window. -/
def withPool (s : State) : State := withPoolAt 0x4200000000 s

/-- The state after a command. -/
def after (i : Instr) (s : State) : State :=
  match exec i s with
  | .next t => t
  | _ => s

/-- An answer is read off by comparing its value. -/
theorem ok_of {ε α : Type} [DecidableEq α] {e : Except ε α} {a : α} (h : (match e with | .ok x => decide (x = a) | .error _ => false) = true) :
    e = .ok a := by
  cases e with
  | error => cases h
  | ok x => exact congrArg _ (of_decide_eq_true h)

/-- A pair is known by its first part. -/
theorem pair_of {α β : Type} {e : α × β} {a : α} (h : e.1 = a) : e = (a, e.2) := by
  cases e
  subst h
  rfl

/-- A packet of the recovery loader with its CRC. -/
def packet (command seq : Byte) (payload : List Byte) : RecoveryPacket :=
  ⟨seq, 0, payload, crc32c (command :: seq :: 0 :: leBytes 4 payload.length ++ payload)⟩

/-- In RECOVERY, having answered the packet numbered 7. -/
def recov (begun : Option (Nat × Bool × Nat × Nat)) : State :=
  { op with crown := .recovery, boot := { foremen := Vector.replicate 5 {}, recovery := { last := some (7, [0]), begun := begun } } }

/-- A job of queue 5, undecided. -/
def aJob : Job :=
  { queue := 5, seq := 9, claim := 0, handle := 2, entry := 0, argAddr := 0x200000, userTag := 77, deadline := some 1000000, replayable := false,
    take := none, post := none, order := 0, bucket := 0 }

/-- The journal holds these jobs. -/
def withJobs (l : List Job) (s : State) : State := { s with hub := { s.hub with jobs := l } }

/-- A bundle of claim 0 with one bucket and one entry. -/
def bundle (graph tensors : List Nat) (last argWords : Nat) : Bundle :=
  { handle := 2, claim := 0, segs := [1], digest := [], time := 0, varWords := [], bounds := [],
    buckets := [{ entries := [{ first := 0, last := last, argWords := argWords, reads := 1, optStep := false }], graph := graph, tensors := tensors }],
    ecBlocks := [], wcBlocks := [(0, 0)] }

/-- Queue 5 enabled over rings in the early window, and one bundle loaded. -/
def hubUp : State :=
  let s := regs op [(Ob.key .wqSubBase 5 0 0, 0x4200000000), (Ob.key .wqCompBase 5 0 0, 0x4200001000), (Ob.key .wqShape 5 0 0, 0x54)]
  { s with hub := { s.hub with bundles := [bundle [0] [] 0 0], queues := s.hub.queues.set 5 { enabled := true, acceptIndex := 15, compWrite := 14, compRead := 0 } } }

/-- The same with its completion ring in DRAM. -/
def hubDram : State := regs hubUp [(Ob.key .wqCompBase 5 0 0, 0x200000)]

/-- Handle queue 3 of bough 0 bound with handles posted. -/
def withHandles (hs : List (BitVec 64)) (s : State) : State :=
  { s with boughs := upd s.boughs 0 fun x => { x with hqs := upd x.hqs 3 fun q => { q with bound := true, queued := hs, free := [1] } } }

/-- Descriptor 0: a MATMUL on bough 0, grid over the output's rows and columns and dimension 2, tiles of 64 × 64, no predecessor. -/
def mmDesc : Nat :=
  0x0100 + (2 ^ 96 - 1) * 2 ^ 128 + 1 * 2 ^ 256 + (0 + 1 * 2 ^ 16 + 2 * 2 ^ 32 + 0xFFFF * 2 ^ 48) * 2 ^ 512 +
  (2 + 1 * 2 ^ 2 + 2 * 2 ^ 8 + 64 * 2 ^ 16 + 64 * 2 ^ 32) * 2 ^ 576 + 0xFFFFFFFF * 2 ^ 640

/-- A tensor of 1 × 1 by `n` in local memory. -/
def ten (base fmt n : Nat) : Tensor :=
  { base := base, rel := true, ndim := 3, fmt := fmt, layout := 0, bufSize := 64 * n, dims := [1, 1, n, 1, 1], strides := [0, 64, 64, 64, 64],
    ext := [1, 1, n, 1, 1] }

/-- It runs on bough 0 with three tiles. -/
def mmRun : Run :=
  { id := 0, queue := 5, seq := 9, claim := 0, handle := 2, key := ⟨0, none⟩, desc := mmDesc, level := 1, branch := none, leaf := none,
    posted := [0], tens := [some (ten 0 5 3), some (ten 0x1000 5 3), some (ten 0x2000 0xC 3), none, none, none, none], count := 1, tx := 1, ty := 1,
    shares := [{ bough := 0, lo := 0, hi := 3 }] }

def mmUnit : RunUnit := { who := .leafGroup 0 0 0, running := some 0 }

def running (rs : List Run) (s : State) : State := withJobs [{ aJob with started := true }] { s with hub := { s.hub with runs := rs } }

/-- A leaf of bough 0, branch 0. -/
def withLeaf (l : LeafPos) (x : Leaf) (s : State) : State :=
  { s with boughs := upd s.boughs 0 fun y => { y with branches := upd y.branches 0 fun z => { z with leaves := upd z.leaves l fun _ => x } } }

/-- A ring that brings slot 0. -/
def ring (cs : List Chunk) : SubRing := { slot := 0, ring := 1, queue := 4, out := false, slots := 3, slotBytes := 2048, base := 0, shift := 0, chunks := cs }

def move : Move := ⟨some (0x200000, 4), [(0, 0x1000000)], [], none⟩

def xfer : Xfer := { queue := .branch 0 0 4, run := 0, who := .leafGroup 0 0 0, slot := 0, tile := 0, idx := 0, brings := [(0, 7)], move := move }

/-- The sample pipeline configured: one sample, two rows of 64 tokens, index at 0x200000, store at 0x210000, queue 3 of bough 0. -/
def spOp : State :=
  withPoolAt 0x300000 (regs op [(Ob.key .spSampleCount 0 0 0, 1), (Ob.key .spShape 0 0 0, 0x01000402000040), (Ob.key .spTarget 0 0 0, 3),
    (Ob.key .spIndexBase 0 0 0, 0x200000), (Ob.key .spStoreBase 0 0 0, 0x210000), (Ob.key .spStoreSize 0 0 0, 0x10000)])

/-- An index entry. -/
def entry (crc tokens kind length offset : Nat) : List Byte :=
  leBytes 16 (crc * 2 ^ 96 + tokens * 2 ^ 80 + kind * 2 ^ 72 + length * 2 ^ 40 + offset)

def spBuilding : SamplePipe := { state := .running, buffer := some 1 }

/-- Two tokens of a record. -/
def tokens : List Byte := [5, 0, 0, 0, 0xFF, 1, 0, 0]

/-- The pipeline builds a batch; the entry and the record stand in memory. -/
def packing (e : List Byte) (p : SamplePipe) : State := wr (wr { spOp with sample := p } 0x200000 e) 0x210000 tokens

/-- Camera port 1 of 16 × n pixels of RAW8 on virtual channel 2, its frames to queue 3 of bough 0. -/
def camOp (n : Nat) : State :=
  withPool (regs op [(Ob.key .csiConfig 1 0 0, BitVec.ofNat 64 (2 * 2 ^ 52 + 0x2A * 2 ^ 46 + 16 * 2 ^ 32 + n * 2 ^ 18 + 1)),
    (Ob.key .ipipePortConfig 1 0 0, 3 * 2 ^ 7), (Ob.key .ipipeParamAddr 1 0 0, 0x4200050000)])

def frame (stored lines : List (List (BitVec 16))) : Frame := ⟨5, 9, 1, [], false, stored, lines, none⟩

def withFrame (f : Frame) (s : State) : State :=
  { s with cameras := upd s.cameras 1 fun c => { c with started := true, frame := some f }
           boughs := upd s.boughs 0 fun x => { x with hqs := upd x.hqs 3 fun q => { q with free := [0], filling := [1] } } }

def packetOf (errors : Nat) (vc : BitVec 4) (dt : BitVec 6) (crcOk : Bool) : CsiPacket := ⟨errors, vc, dt, crcOk, []⟩

/-- Encoder stream 1 with its rings in segment 1. -/
def encOp : State :=
  regs (camOp 16) [(Ob.key .ipipePortConfig 1 0 0, 2 ^ 25 + 3 * 2 ^ 7), (Ob.key .encPicRing 1 0 0, 0x200000), (Ob.key .encBsBase 1 0 0, 0x300000),
    (Ob.key .encBsSize 1 0 0, 2048)]

/-- A command ring of 16 places in segment 1, two of them to be run. -/
def decOp : State :=
  withPoolAt 0x300000 (regs op [(Ob.key .decRingBase 0 0 0, 0x330000), (Ob.key .decRingShape 0 0 0, 16), (Ob.key .decHead 0 0 0, 14)])

def decRun (ps : List Picture) (b : Option Nat) : DecRun := ⟨0x330000, 2, 3, 0, 3, ps, b, 0, 2, 0, false⟩

/-- After the next index entry is read. -/
def spGot (s : State) : State := (s.spRead 0x200000 16).2

/-- After the batch in buffer 1 of queue 3 is written. -/
def spPosted (s : State) : State := (s.mediaWrites (.codec s.spClaim) ((s.hq 0 3).base + 1 * (s.hq 0 3).stride) s.spRowsOut).2

/-- A request for memory from host cores. -/
def want (a n : Nat) : MemRequest := ⟨.host, .host, a, n, .read⟩

/-- A write of memory by an image pipeline. -/
def store (a : Nat) (bs : List Byte) : MemRequest := ⟨.media 0, .media 0, a, bs.length, .write bs⟩

/-- A read that has been issued by a seam. -/
def issued : SeamReq := { stamp := 4, write := false, burst := 0, panic := false, who := .host, data := [5] }

/-- A bough's group may change: the bough is down. -/
def boughIs (b : BoughId) (x : BoughState) (s : State) : State := { s with boughs := upd s.boughs b fun q => { q with state := x } }

/-- A group in this mode. -/
def groupIs (b : BoughId) (g : Group) (s : State) : State := { s with groups := s.groups.set b g }

/-- Claim c as given, and segment 2 its own. -/
def claimIs (c : ClaimId) (x : Claim) (s : State) : State :=
  { s with sec := { s.sec with claims := s.sec.claims.set c x, segs := [(1, { lost := false }), (2, { lost := false, scrubbed := true, claim := c, perm := 7 })] } }

/-- Link k as given; members are reached through it. -/
def linkIs (k : LinkId) (l : Link) (s : State) : State :=
  { regs s [(Ob.key .groveRoute 0 0 0, BitVec.ofNat 64 (k.val * 0x1111111111111110 + 15)), (Ob.key .peerClaims 3 0 0, 1)] with
    linkUnits := s.linkUnits.set k l }

/-- A link that is up with member 3. -/
def upLink : Link := { state := .up, enable := true, peerMember := 3, protocol := 2, keys := some ([1], [2]) }

/-- A transaction of member 3 for this part. -/
def txn (a : Nat) (data : List Byte) : LinkTxn := ⟨3, 0, 0, false, 7, a, data.length, data⟩

/-- An intact flit. -/
def flit (seq : BitVec 16) : Flit := ⟨true, true, seq, 0, 0, 1, 3, 0⟩

/-- A request of this part that waits, through a link or the PCIe port. -/
def waits (link : Option LinkId) : Outstanding := ⟨7, 7, link, 3, 0, false, 0x200000, 64, none, 0⟩

/-- Requests that wait. -/
def withWaits (l : List Outstanding) (s : State) : State := { s with grove := { s.grove with outstanding := l } }

/-- A PCIe port of this mode. -/
def pcieIs (strap : Nat) : State := { op with pcie := { op.pcie with strap := strap, up := #v[true, true] } }

/-- Bytes stored from an address on, those that read as erased left out. -/
def bytesAt : Nat → List Byte → SMap Byte
  | _, [] => []
  | a, b :: bs => if b = 0xFF then bytesAt (a + 1) bs else (a, b) :: bytesAt (a + 1) bs

/-- Both public keys of a signature block whose other bytes are erased. -/
def bothKeys : List Byte := 4 :: List.replicate 96 0xFF ++ [0, 0, 0, 2, 0, 0, 0, 8, 0, 0, 0, 4] ++ List.replicate 48 0xFF

/-- An image of type 7 or 8 of one section of 16 bytes, signed by owner key 12. -/
def imageOf (t : Nat) : List Byte :=
  [84, 84, 73, 77, 1, BitVec.ofNat 8 t, 0, 12, 0, 0, 0, 0, 0, 0, 0, 1, 9, 0, 0, 0, 0, 0, 96] ++ List.replicate 41 0 ++
    [80, 0, 0, 0, 16, 0, 0, 0, 0, 0] ++ (if t = 8 then [64, 0, 0, 0, 3, 0] else [0, 0, 0, 0, 2, 0]) ++ List.replicate 48 5 ++
    [1, 0, 0, 0] ++ List.replicate 96 0xFF ++ bothKeys

/-- The owner has programmed key 12, and slot A of type t holds such an image. -/
def signed (t : Nat) (s : State) : State :=
  { s with nv := { s.nv with ownerDigest := #v[some (sha384 bothKeys), none, none, none], flash := bytesAt (slotBase t false) (imageOf t) } }

/-- An image of one bucket with one entry over one descriptor, a NOP, and no tensors: directory at 128. -/
def nopImage : List Byte :=
  let section_ := fun (k count offset : Nat) => leBytes 16 (k + count * 2 ^ 32 + offset * 2 ^ 64)
  leBytes 128 (0x4C444254 + 4 * 2 ^ 32 + 768 * 2 ^ 64 + 128 * 2 ^ 128 + 6 * 2 ^ 160 + 256 * 2 ^ 256) ++
    (section_ 1 1 256 ++ section_ 2 1 384 ++ section_ 0x10 1 512 ++ section_ 0x11 1 640 ++ section_ 0x12 0 768 ++ section_ 0x13 0 768) ++
    List.replicate 32 0 ++ leBytes 128 9 ++ leBytes 128 1 ++ List.replicate 128 0 ++ leBytes 128 ((2 ^ 96 - 1) * 2 ^ 128 + 2 ^ 256 + (2 ^ 64 - 1) * 2 ^ 512)

/-- Its load into segment 2 is asked for, the load record at 0x200000. -/
def loading (image : List Byte) : State :=
  let s := wr (wr op 0x200000 (leBytes 64 (0x210000 + 0x400000 * 2 ^ 64))) 0x210000 image
  after (.loadRequest .host 0x200000) { s with sec := { s.sec with segs := [(1, { lost := false }), (2, { lost := false })] } }

def theLoad (s : State) : LoadRun := s.hub.load.getD { record := 0, claim := 0, image := 0, size := 0, placeSize := 0, place := 0, regionTable := 0, regionCount := 0, locks := [], code := 0 }

def theBundle (s : State) : Bundle :=
  match (s.runLoad (theLoad s)).1 with
  | .ok x => x
  | .error _ => default

def theRefusal (s : State) : VFail :=
  match (s.runLoad (theLoad s)).1 with
  | .ok _ => { code := 0 }
  | .error f => f

def isOk {ε α : Type} : Except ε α → Bool
  | .ok _ => true
  | .error _ => false

/-- The value of an answer that is one. -/
def okOr {ε α : Type} (d : α) : Except ε α → α
  | .ok x => x
  | .error _ => d

theorem ok_okOr {ε α : Type} {d : α} {e : Except ε α} (h : isOk e = true) : e = .ok (okOr d e) := by
  cases e with
  | error => cases h
  | ok => rfl

theorem err_of {α : Type} {e : Except MemFail α} {f : MemFail} (h : (match e with | .error x => decide (x = f) | .ok _ => false) = true) :
    e = .error f := by
  cases e with
  | ok => cases h
  | error x => exact congrArg _ (of_decide_eq_true h)

/-- An ATTENTION of three heads of one row, one position and one column. -/
def attnRun : Run :=
  { mmRun with
    desc := mmDesc + 0x20
    tens := [some (ten 0 9 3), some (ten 0x1000 9 3), some (ten 0x2000 9 3), some (ten 0x3000 9 3), none, none, none]
    shares := [{ bough := 0, lo := 0, hi := 3, seeked := true }], units := [mmUnit] }

/-- A MATMUL of K extent 0. -/
def emptyRun : Run :=
  { { mmRun with shares := [{ bough := 0, lo := 0, hi := 3, seeked := true }], units := [mmUnit] } with tens := [some { ten 0 5 3 with ext := [0, 1, 3, 1, 1] }, some { ten 0x1000 5 3 with ext := [1, 0, 3, 1, 1] }, some (ten 0x2000 0xC 3), none, none, none, none] }

/-- A ring that takes slot 2's output. -/
def outRing (cs : List Chunk) : SubRing := { slot := 2, ring := 2, queue := 5, out := true, slots := 2, slotBytes := 2048, base := 0x4000, shift := 0, chunks := cs }

/-- An element-by-element sum of three rows on the vector unit of branch 0. -/
def sumRun (u : RunUnit) : Run :=
  { mmRun with
    desc := mmDesc - 0xFFFFFFFF * 2 ^ 640 + 0x200
    tens := [some (ten 0 0xD 3), some (ten 0x1000 0xD 3), some (ten 0x2000 0xD 3), none, none, none, none]
    shares := [{ bough := 0, lo := 0, hi := 3, seeked := true }], units := [{ u with who := .vectorUnit 0 0 }] }

/-- A HAUL from local memory of branch 0 into the early window by queue 4 of that branch. -/
def haulRun (u : RunUnit) : Run :=
  { mmRun with
    desc := mmDesc - 0xFFFFFFFF * 2 ^ 640 + 0x500
    tens := [some (ten 0 5 3), none, some { ten 0x4200000000 5 3 with rel := false }, none, none, none, none]
    shares := [{ bough := 0, lo := 0, hi := 3, seeked := true }], units := [{ u with who := .branchQueue 0 0 4 }] }

/-- A transfer of it that has landed, and one that waits for its answers. -/
def haulXfer : Xfer :=
  { queue := .branch 0 0 4, run := 0, who := .branchQueue 0 0 4, slot := 9, tile := 0, idx := 0, brings := [(0, 7)],
    move := ⟨some (0x4000000000, 64), [(0, 0)], [⟨0x4200000000 * 8, 8, 0⟩], none⟩, puts := [⟨0x4200000000 * 8, 8, 7⟩] }

/-- The pick of a seam's scheduler. -/
def pickOf (o : Option Pick) : Pick :=
  match o with
  | some p => p
  | none => .pre 0

/-- An image slot of no bytes takes no image. -/
theorem spImage_none {s : State} (j : List Byte) (h : s.regN .spImgStride = 0) : s.spImage j = none := by
  unfold State.spImage
  split
  · simp [h]
  · rfl

/-- A read at an address that another expression gives. -/
theorem read_at {s u : State} {a x n : Nat} {bs : List Byte} (h : a = x) (hr : s.spRead x n = (.ok bs, u)) : s.spRead a n = (.ok bs, u) :=
  h ▸ hr

/-- A record of an access unit is not empty. -/
theorem auRecord_pos (s : State) (c : LogCopy) (idr : Bool) (au : List Byte) : 0 < (s.auRecord c idr au).1.length := by
  simp [State.auRecord, leBytes]

/-- A buffer of one byte takes no picture. -/
theorem acceptPics_small {s : State} {op st work n : Nat} {l : List (Nat × Nat × Nat × Nat × List Byte)} (h : st = 1) :
    (s.acceptPics op st work n l).1 = [] := by
  subst h
  cases l with
  | nil => rfl
  | cons =>
    simp only [State.acceptPics]
    rw [if_pos (by simp; omega)]

/-- An image of a good form whose keys are programmed and not revoked passes every check before the signatures. -/
theorem code_zero {g : Grade} {nv : NonVolatile} {t room : Nat} {img keys : List Byte} {k : Nat} (hf : imageForm g t room img = 0)
    (hk : nv.keyDigest k = some (sha384 keys)) (hi : (parseHeader img).keyIndex = k) (hs : imageKeys img = keys)
    (hr : nv.revoked.getLsbD k = false) (hc : ¬(parseHeader img).secVersion < nv.secCounter[Fin.ofNat 8 (t - 1)]) :
    imageCode g nv t room img = 0 := by
  subst hi hs
  rw [imageCode, if_neg (fun h => h hf), if_neg (fun h => h hk), if_neg (by simp [hr]), if_neg hc]

/-- The owner's key 12 is that of the images. -/
theorem signed_key (t : Nat) (s : State) : (signed t s).nv.keyDigest 12 = some (sha384 bothKeys) := rfl

/-- An image that passes every check before the signatures verifies where they do. -/
theorem verify_zero {g : Grade} {nv : NonVolatile} {t room : Nat} {img : List Byte} (h : imageCode g nv t room img = 0)
    (hs : signatureCode img = 0) : verifyImage g nv t room img = 0 := by
  rw [verifyImage, if_pos h, hs]

/-- A slot of type t that holds no image but zeros. -/
def zeros (t : Nat) (slot : Bool) (s : State) : State :=
  { s with nv := { s.nv with flash := bytesAt (slotBase t slot) (List.replicate 64 0) } }

/- The spec's worked examples (chapters 2, 12 and 15) and the check values of the standards it names. -/

theorem test_e4m3_conversions :
    [0x3E99999A, 0x43E00000, 0x43FA0000, 0x7F800000, 0x3A83126F, 0x7FC12345].map (fun n => encodeElem 7 (fval (BitVec.ofNat 32 n))) =
      [(0x2A, 0), (0x7E, 0), (0x7E, 2), (0x7E, 2), (0x01, 0), (0x7F, 4)] := by decide +kernel

theorem test_u4_quantising :
    [0x3E99999A, 0x3E200000, 0x3E600000, 0x3F0CCCCD, 0xBF19999A].map (fun n => quantise 2 (BitVec.ofNat 32 n) 0x3D800000 8) =
      [(13, 0), (10, 0), (12, 0), (15, 2), (0, 2)] := by decide +kernel

theorem test_u4_dequantising :
    [13, 10, 12, 15, 0].map (fun q => dequantise 2 q 0x3D800000 8) =
      [0x3EA00000, 0x3E000000, 0x3E800000, 0x3EE00000, 0xBF000000] := by decide +kernel

theorem test_address_example :
    seamOf 0x812345C40 = 7 ∧ seamOffset 0x812345C40 = 0x48D1440 ∧ rowOfBurst (burstOf 0x812345C40) = 0x48D ∧
    colOf (burstOf 0x812345C40) = 648 ∧ bankOfBurst (burstOf 0x812345C40) = 6 ∧
    addrOfBurst 7 (burstOf 0x812345C40) = 0x812345C40 := by decide +kernel

/-- The check value of CRC-16/CCITT with initial value 0xFFFF. -/
theorem test_crc16_check : crc16 [0x31, 0x32, 0x33, 0x34, 0x35, 0x36, 0x37, 0x38, 0x39] = 0x29B1 := by decide +kernel

/-- The check value of CRC-32C. -/
theorem test_crc32c_check : crc32c [0x31, 0x32, 0x33, 0x34, 0x35, 0x36, 0x37, 0x38, 0x39] = 0xE3069283 := by decide +kernel

/-- The first bytes of the digests of no bytes at all. -/
theorem test_sha_check : (sha256 []).take 4 = [0xE3, 0xB0, 0xC4, 0x42] ∧ (sha384 []).take 4 = [0x38, 0xB0, 0x60, 0xA7] := by decide +kernel

/-- A command in front of the queue, stepped. -/
def run (i : Instr) (s : State) : State :=
  match step { s with pending := [i] } with
  | .next t => t
  | _ => s

/-- The part of chapter 15's example: DONE 0x17, REFUSED 0x02, and bit 8 of alert_enable set. -/
def polled : State :=
  regs { op with ports := op.ports.set 0 { accepted := 0x03000000, done := 0x17, refused := 0x02 } } [(Ob.key .alertEnable 0 0 0, 0x106)]

theorem test_poll_reads_operational :
    ((run (.read [0x0B, 0xF4, 0x01, 0x00, 0x12, 0x00]) polled).port .burlyn).out.take 10 = [3, 0, 0, 0, 0, 0, 0, 0, 0, 0] := by decide +kernel

/-- WRITE of bough_reset, posted and then applied. -/
def reset1 (v : Byte) : State :=
  run .postedWriteApply (run (.write [0x12, 0xED, 0x02, 0x01, 0x30, 0x00, v, 0, 0, 0, 0, 0, 0, 0]) polled)

theorem test_bough_reset_is_applied :
    ((reset1 1).port .burlyn).done = 0x18 ∧ (reset1 1).boughs[(1 : BoughId)].state = .fencing ∧ (reset1 1).alertAsserted = true ∧
    (reset1 1).alertCause.getLsbD 8 = true ∧ (reset1 1).crown = .operational := by decide +kernel

theorem test_bough_reset_value_2_is_refused :
    ((reset1 2).port .burlyn).refused = 0x03 ∧ ((reset1 2).port .burlyn).lastObj = 0x300102 ∧
    ((reset1 2).port .burlyn).lastCode = 0xA300 ∧ ((reset1 2).port .burlyn).done = 0x17 ∧
    (reset1 2).boughs[(1 : BoughId)].state = .ready := by decide +kernel

/-- Each check of Instr.wellFormed refuses an ill-formed command of its kind. -/
theorem test_ill_formed :
    ([.read [0x0C, 0xF3], .write [0x0B, 0xF4], .write (0x12 :: List.replicate 4102 0), .portReset [],
      .recoveryHello ⟨0, 0, List.replicate 4097 0, 0⟩, .recoveryBegin ⟨0, 0, List.replicate 4097 0, 0⟩,
      .recoveryData ⟨0, 0, List.replicate 4097 0, 0⟩, .recoveryFinish ⟨0, 0, List.replicate 4097 0, 0⟩,
      .recoveryReboot ⟨0, 0, List.replicate 4097 0, 0⟩, .blockDataRead .host 0 0, .blockDataRead .host 0 4097,
      .blockDataWrite .host 0 [], .canRequest 0 ⟨0, true, false, 8, List.replicate 9 0⟩, .canRequest 0 ⟨0, true, true, 15, List.replicate 65 0⟩,
      .dictionaryWrite .host (.store 0 3 0), .dictionaryWrite .host (.load 0x10000000 1), .csiPacket 0 ⟨33, 0, 0, true, []⟩,
      .csiLine 0 [], .i2cXfer .host 0 [0], .i2cDone 0 .ok 0 (List.replicate 33 0),
      .seamRequest 0 [⟨.host, .host, 63, 2, .read⟩], .sliceAccept ([⟨.host, .host, 0, 0, .read⟩], Vector.replicate 8 .clean),
      .sliceAccept ([⟨.host, .host, 127, 0, .write [1, 2]⟩], Vector.replicate 8 .clean), .ownerKeyProgram .host [12], .linkUp 0 (.up 0 0 0),
      .readReq 0 ⟨0, 0, 0, false, 0, 0, 257, []⟩, .writeTransaction 0 ⟨0, 0, 0, false, 0, 0, 2, [1]⟩,
      .readCpl 0 ⟨0, 0, 0, false, 0, 0, 0, List.replicate 257 0⟩ .ok, .writeAck 0 ⟨0, 0, 0, false, 0, 0, 0, [1]⟩ .ok,
      .pair 0 0 true [1], .pcieInboundRequest (.barAccess 6 0 4 none), .pcieInboundRequest (.barAccess 0 0 9 none),
      .pcieInboundRequest (.memRead 0 0 4097), .pcieInboundRequest (.memWrite 0 0 [])] : List Instr).map Instr.wellFormed =
    List.replicate 34 false := by decide +kernel

/-- Commands of those kinds that are well formed. -/
theorem test_well_formed :
    ([.read [0x0B, 0xF4, 1, 0, 0x12, 0], .portReset [0x99, 0x66], .blockDataRead .host 0 4096, .canRequest 0 ⟨0, true, true, 15, List.replicate 64 0⟩,
      .dictionaryWrite .host (.load 0xFFFFFF8 8), .seamRequest 0 [], .sliceAccept ([⟨.host, .host, 127, 1, .read⟩], Vector.replicate 8 .clean),
      .pair 0 0 true (List.replicate 16 0), .pcieInboundRequest (.barAccess 0 0 8 none)] : List Instr).map Instr.wellFormed =
    List.replicate 9 true := by decide +kernel

/-- The table gives no row bits: no word spells a command. -/
theorem test_no_word_spells_a_command (nbits w : Nat) : decodeTableWord nbits w = none ∧ State.reset.withFetchWord nbits w = State.reset :=
  ⟨rfl, rfl⟩

/-- With nothing waiting the timebase counts one tick (log entry 4). -/
theorem test_idle_step_ticks : step State.reset = .next { State.reset with now := 1 } := by rfl

/-- From reset PORST_N rises and the straps are sampled. -/
theorem test_porst_rise : (run (.porstNRise 2 false) State.reset).porstLow = false ∧ (run (.porstNRise 2 false) State.reset).pcie.strap = 2 := by
  decide +kernel

/-- A 64-byte write is acknowledged by its seam and read back. -/
theorem test_seam_write_then_read :
    ((after (.seamRequest 0 [store 0x200000 (List.replicate 64 3)]) op).seam 0).answers = [(1, .acked)] ∧
    (after (.seamRequest 0 [store 0x200000 (List.replicate 64 3)]) op).mem.readBytes 0x200000 2 = [3, 3] := by decide +kernel

set_option maxRecDepth 20000
set_option linter.unusedVariables false

/- Witnesses: a state and operands that meet the hypotheses of each clause of each statement. -/



theorem witness_EveryStepTakesTheFrontCommand :
    (∃ (s : State), s.pending = []) :=
  ⟨op,
     by decide +kernel⟩




theorem witness_EveryStepKeepsMemoryCanonical :
    (∃ (s : State) (t : State), Safety.MemOk s ∧
      step s = .next t) :=
  ⟨(wr op 0x4200000000 [1, 0, 2]), ({ wr op 0x4200000000 [1, 0, 2] with now := 1000001 }),
     by decide +kernel, by rfl⟩


theorem witness_EveryStepKeepsAbsentFunctionsUnready :
    (∃ (s : State) (t : State), Safety.ReadyOk s ∧
      step s = .next t) :=
  ⟨({ op with grade := .c64, readiness := 0xFF9F3FFFFF }), ({ op with grade := .c64, readiness := 0xFF9F3FFFFF, now := 1000001 }),
     by decide +kernel, by rfl⟩



theorem witness_BurlynFrameRoundTrip :
    (∃ (s : State) (idx : BitVec 16) (sub : BitVec 8) (sel : BitVec 8) (v : Word) (crc : Bool), s.serves .burlyn = true ∧
      (s.port .burlyn).posted.length < 16) ∧
    (∃ (s : State) (idx : BitVec 16) (sub : BitVec 8) (sel : BitVec 8) (v : Word) (crc : Bool), s.serves .burlyn = true ∧
      (s.port .burlyn).posted.length < 16) ∧
    (∃ (s : State) (a : BlockArgs) (commit : Bool) (crc : Bool), s.serves .burlyn = true ∧
      (s.port .burlyn).posted.length < 16 ∧
      a.crc = none) ∧
    (∃ (s : State) (a : BlockArgs) (commit : Bool) (crc : Bool), s.serves .burlyn = true ∧
      (s.port .burlyn).posted.length < 16 ∧
      a.crc = none) :=
  ⟨⟨({ op with ports := op.ports.set 0 { posted := List.replicate 15 (.write 0 0 0 0) } }), 0xFFFF, 255, 255, (-1), true,
     by decide +kernel, by decide +kernel⟩,
   ⟨op, 0x1234, 1, 2, 3, false,
     by decide +kernel, by decide +kernel⟩,
   ⟨op, (⟨0xFFFF, 255, 255, -1, -1, none⟩), true, true,
     by decide +kernel, by decide +kernel, by decide +kernel⟩,
   ⟨op, (⟨0x1234, 5, 6, 7, 8, none⟩), false, false,
     by decide +kernel, by decide +kernel, by decide +kernel⟩⟩


theorem witness_StoredBurstReadsBack :
    (∃ (s : State) (who : MemRequester) (a : Nat) (bs : List Byte), a < 2 ^ 37 ∧
      a % 64 = 0 ∧
      bs.length = 64 ∧
      s.checkDram who .write a = none ∧
      s.checkDram who .read a = none ∧
      (s.seams[seamOf a].poisoned).Nodup) ∧
    (∃ (s : State) (who : MemRequester) (a : Nat) (bs : List Byte), a < 2 ^ 37 ∧
      a % 64 = 0 ∧
      bs.length = 64 ∧
      s.checkDram who .write a = none ∧
      s.checkDram who .read a = none ∧
      (s.seams[seamOf a].poisoned).Nodup) :=
  ⟨⟨op, .host, 0x200000, (List.replicate 64 3),
     by decide +kernel, by decide +kernel, by decide +kernel, by decide +kernel, by decide +kernel, by decide +kernel⟩,
   ⟨({ op with seams := op.seams.set 0 { state := .ready, poisoned := [2097152/2^13*2, burstOf 0x2000C0] } }), (.job 0), 0x2000C0, (List.replicate 64 255),
     by decide +kernel, by decide +kernel, by decide +kernel, by decide +kernel, by decide +kernel, by decide +kernel⟩⟩


theorem witness_PorstResetsAndStarts :
    (∃ (s : State) (w : Nat), 10000 ≤ w) ∧
    (∃ (s : State) (m : Fin 4), s.porstLow = true ∧
      s.crown = .powerOn) ∧
    (∃ (s : State) (m : Fin 4), s.porstLow = true ∧
      s.crown = .powerOn) ∧
    (∃ (s : State) (m : Fin 4), s.porstLow = true) :=
  ⟨⟨op, 10000,
     by decide +kernel⟩,
   ⟨State.reset, 0,
     by decide +kernel, by decide +kernel⟩,
   ⟨State.reset, 3,
     by decide +kernel, by decide +kernel⟩,
   ⟨({ op with porstLow := true }), 2,
     by decide +kernel⟩⟩

def ex_ImagesAndPayloadLoad_0_0_s : State := signed 7 { op with boot := { op.boot with loads := (Vector.replicate 8 none).set 6 (some { slot := false, trial := false, why := .restart }) } }

def ex_ImagesAndPayloadLoad_0_0_l : ImageLoad := { slot := false, trial := false, why := .restart }

def ex_ImagesAndPayloadLoad_1_0_s : State := zeros 4 false ({ op with boot := { op.boot with loads := (Vector.replicate 8 none).set 3 (some { slot := false, trial := false, why := .restart }) } })

def ex_ImagesAndPayloadLoad_1_0_l : ImageLoad := { slot := false, trial := false, why := .restart }

def ex_ImagesAndPayloadLoad_1_1_s : State := zeros 1 true ({ op with boot := { op.boot with loads := (Vector.replicate 8 none).set 0 (some { slot := true, trial := true, why := .crownStart }) } })

def ex_ImagesAndPayloadLoad_1_1_l : ImageLoad := { slot := true, trial := true, why := .crownStart }

def ex_ImagesAndPayloadLoad_2_0_s : State := signed 8 { op with boot := { op.boot with payloadWaits := true } }

theorem witness_ImagesAndPayloadLoad_0 : (∃ (s : State) (i : ImageSlot) (l : ImageLoad), signatureCode (s.nv.slotImage (i.val + 1) l.slot) = 0 →
      s.boot.loads[i] = some l ∧
      s.verifySlot (i.val + 1) l.slot = 0) :=
  ⟨ex_ImagesAndPayloadLoad_0_0_s, 6, ex_ImagesAndPayloadLoad_0_0_l,
     fun h0 => ⟨by decide +kernel, verify_zero (code_zero (k := 12) (keys := bothKeys) (by decide +kernel) (signed_key _ _) (by decide +kernel) (by decide +kernel) (by decide +kernel) (by decide +kernel)) h0⟩⟩

theorem witness_ImagesAndPayloadLoad_1 : (∃ (s : State) (i : ImageSlot) (l : ImageLoad), s.boot.loads[i] = some l ∧
      s.verifySlot (i.val + 1) l.slot ≠ 0 ∧
      l.fellBack = false) :=
  ⟨ex_ImagesAndPayloadLoad_1_0_s, 3, ex_ImagesAndPayloadLoad_1_0_l,
     by decide +kernel, by decide +kernel, by decide +kernel⟩

theorem witness_ImagesAndPayloadLoad_2 : (∃ (s : State) (i : ImageSlot) (l : ImageLoad), s.boot.loads[i] = some l ∧
      s.verifySlot (i.val + 1) l.slot ≠ 0 ∧
      l.fellBack = false) :=
  ⟨ex_ImagesAndPayloadLoad_1_1_s, 0, ex_ImagesAndPayloadLoad_1_1_l,
     by decide +kernel, by decide +kernel, by decide +kernel⟩

theorem witness_ImagesAndPayloadLoad_3 : (
      let measured := fun (s t : State) (n : Nat) (slot trial : Bool) =>
        let img := s.nv.slotImage n slot
        ∃ m, t.boot.measures = s.boot.measures ++ [m] ∧ m.digest = sha384 (slice img 0 (parseHeader img).size) ∧ m.trial = trial ∧
          m.slot = slot ∧ m.time = s.now
      ∃ (s : State), signatureCode (s.nv.slotImage 8 (s.nv.entry 8).active) = 0 →
      s.boot.payloadWaits = true ∧
      s.foremanRuns 0 = true ∧
      (∀ b : BoughId, s.boughs[b].state = .ready) ∧
      (s.nv.entry 8).trial = false ∧
      s.verifySlot 8 (s.nv.entry 8).active = 0 ∧
      (let img := s.nv.slotImage 8 (s.nv.entry 8).active; ∀ n ∈ sectionSegs (copiedSections img 0), (s.seg n).claim = 0)) :=
  by
      dsimp only
      exact ⟨ex_ImagesAndPayloadLoad_2_0_s,
     fun h0 => ⟨by decide +kernel, by decide +kernel, by decide +kernel, by decide +kernel, verify_zero (code_zero (k := 12) (keys := bothKeys) (by decide +kernel) (signed_key _ _) (by decide +kernel) (by decide +kernel) (by decide +kernel) (by decide +kernel)) h0, by decide +kernel⟩⟩


theorem witness_ForemanTrapAndRestart :
    (∃ (s : State) (f : ForemanId) (cause : Word), s.boot.foremen[f].state = .running ∧
      (s.boot.foremen[f].traps.filter fun u => (s.now - u).toNat < 10000000000).length < 2 ∧
      s.boot.measures.length < 128) ∧
    (∃ (s : State) (f : ForemanId) (cause : Word), s.boot.foremen[f].state = .running ∧
      (s.boot.foremen[f].traps.filter fun u => (s.now - u).toNat < 10000000000).length < 2 ∧
      s.boot.measures.length < 128) ∧
    (∃ (s : State) (f : ForemanId) (cause : Word), s.boot.foremen[f].state = .running ∧
      s.crown ≠ .powerOn ∧
      2 ≤ (s.boot.foremen[f].traps.filter fun u => (s.now - u).toNat < 10000000000).length) ∧
    (∃ (s : State) (r : Requester) (v : Word), Safety.Writes s r .foremanRestart 0 0 0 v ∧
      v.toNat ≤ 4 ∧
      s.confidentialOpen = false ∧
      s.boot.measures.length < 120 ∧
      s.foremanBusy v.toNat = false ∧
      s.boot.updState ≠ .busy ∧
      (∀ f : Fin 5, s.boot.foremen[f].state ≠ .loading) ∧
      s.foremanRuns 0 = true) ∧
    (∃ (s : State) (r : Requester) (v : Word), Safety.Writes s r .foremanRestart 0 0 0 v ∧
      v.toNat ≤ 4 ∧
      s.confidentialOpen = false ∧
      s.boot.measures.length < 120 ∧
      s.foremanBusy v.toNat = false ∧
      s.boot.updState ≠ .busy ∧
      (∀ f : Fin 5, s.boot.foremen[f].state ≠ .loading) ∧
      s.foremanRuns 0 = true) :=
  ⟨⟨op, 2, 5,
     by decide +kernel, by decide +kernel, by decide +kernel⟩,
   ⟨({ op with boot := { foremen := Vector.replicate 5 { state := .running, traps := [999000] } } }), 0, 5,
     by decide +kernel, by decide +kernel, by decide +kernel⟩,
   ⟨({ op with boot := { foremen := Vector.replicate 5 { state := .running, traps := [999000, 998000] } } }), 4, 5,
     by decide +kernel, by decide +kernel, by decide +kernel⟩,
   ⟨op, .burlyn, 4,
     by decide +kernel, by decide +kernel, by decide +kernel, by decide +kernel, by decide +kernel, by decide +kernel, by decide +kernel, by decide +kernel⟩,
   ⟨op, .host, 0,
     by decide +kernel, by decide +kernel, by decide +kernel, by decide +kernel, by decide +kernel, by decide +kernel, by decide +kernel, by decide +kernel⟩⟩

def ex_FirmwareUpdateStartsAndEnds_0_0_s : State := regs op [(Ob.key .fwUpdateAddr 0 0 0, 0x200000), (Ob.key .fwUpdateSize 0 0 0, 0x200001)]

def ex_FirmwareUpdateStartsAndEnds_1_0_s : State := signed 7 (regs ({ wr op 0x200000 (imageOf 7) with boot := { op.boot with updState := .busy, updType := 7, updLocks := [1] } }) [(Ob.key .fwUpdateAddr 0 0 0, 0x200000), (Ob.key .fwUpdateSize 0 0 0, 3989)])

def ex_FirmwareUpdateStartsAndEnds_1_0_u : State := ((ex_FirmwareUpdateStartsAndEnds_1_0_s).readMem (.loader 0) 0x200000 3989).2

def ex_FirmwareUpdateStartsAndEnds_1_0_img : List Byte := okOr [] ((ex_FirmwareUpdateStartsAndEnds_1_0_s).readMem (.loader 0) 0x200000 3989).1

def ex_FirmwareUpdateStartsAndEnds_2_0_s : State := { op with boot := { op.boot with updState := .busy, updType := 2, updLocks := [1] } }

def ex_FirmwareUpdateStartsAndEnds_2_0_u : State := ((ex_FirmwareUpdateStartsAndEnds_2_0_s).readMem (.loader 0) 0 0).2

def ex_FirmwareUpdateStartsAndEnds_2_1_s : State := { op with boot := { op.boot with updState := .busy, updType := 2, updLocks := [1] } }

def ex_FirmwareUpdateStartsAndEnds_2_1_u : State := ((ex_FirmwareUpdateStartsAndEnds_2_1_s).readMem (.loader 0) 0 0).2

def ex_FirmwareUpdateStartsAndEnds_3_0_s : State := { op with boot := { op.boot with updState := .busy, updType := 2, updLocks := [1] } }

theorem witness_FirmwareUpdateStartsAndEnds_0 : (∃ (s : State) (r : Requester) (v : Word), Safety.Writes s r .fwUpdateStart 0 0 0 v ∧
      updateCodes v.toNat s = []) :=
  ⟨ex_FirmwareUpdateStartsAndEnds_0_0_s, .burlyn, 8,
     by decide +kernel, by decide +kernel⟩

theorem witness_FirmwareUpdateStartsAndEnds_1 : (
      let staged := fun (s : State) => s.readMem (.loader 0) (s.regN .fwUpdateAddr) (s.regN .fwUpdateSize)
      let kind := fun (s : State) => s.boot.updType.toNat
      let freed := fun (s t : State) => t.boot.updLocks = [] ∧ ∀ n, (t.seg n).locks = (s.seg n).locks - s.boot.updLocks.count n
      ∃ (s : State) (u : State) (img : List Byte), signatureCode img = 0 →
      (let slot := !(s.nv.entry (kind s)).active; let nv := (s.nv.flashErase (slotBase (kind s) slot) (roundUp (s.regN .fwUpdateSize) 0x10000)).flashProgram (slotBase (kind s) slot) img; ({ s with nv := nv }).verifySlot (kind s) slot = 0) →
      s.boot.updState = .busy ∧
      s.foremanRuns 0 = true ∧
      1 ≤ kind s ∧
      kind s ≤ 8 ∧
      staged s = (.ok img, u) ∧
      s.regN .fwUpdateSize ≤ slotSize (kind s) ∧
      verifyImage s.grade s.nv (kind s) (s.regN .fwUpdateSize) img = 0) :=
  by
      dsimp only
      exact ⟨ex_FirmwareUpdateStartsAndEnds_1_0_s, ex_FirmwareUpdateStartsAndEnds_1_0_u, ex_FirmwareUpdateStartsAndEnds_1_0_img,
     fun h0 _ => ⟨by decide +kernel, by decide +kernel, by decide +kernel, by decide +kernel, pair_of (ok_okOr (by decide +kernel)), by decide +kernel, verify_zero (code_zero (k := 12) (keys := bothKeys) (by decide +kernel) (signed_key _ _) (by decide +kernel) (by decide +kernel) (by decide +kernel) (by decide +kernel)) h0⟩⟩

theorem witness_FirmwareUpdateStartsAndEnds_2 : (
      let staged := fun (s : State) => s.readMem (.loader 0) (s.regN .fwUpdateAddr) (s.regN .fwUpdateSize)
      let kind := fun (s : State) => s.boot.updType.toNat
      let freed := fun (s t : State) => t.boot.updLocks = [] ∧ ∀ n, (t.seg n).locks = (s.seg n).locks - s.boot.updLocks.count n
      ∃ (s : State) (u : State) (img : List Byte) (ok : Bool), s.boot.updState = .busy ∧
      s.foremanRuns 0 = true ∧
      staged s = (.ok img, u) ∧
      verifyImage s.grade s.nv (kind s) (s.regN .fwUpdateSize) img ≠ 0) :=
  by
      dsimp only
      exact ⟨ex_FirmwareUpdateStartsAndEnds_2_0_s, ex_FirmwareUpdateStartsAndEnds_2_0_u, ([]), true,
     by decide +kernel, by decide +kernel, pair_of (ok_of (by decide +kernel)), by decide +kernel⟩

theorem witness_FirmwareUpdateStartsAndEnds_3 : (
      let staged := fun (s : State) => s.readMem (.loader 0) (s.regN .fwUpdateAddr) (s.regN .fwUpdateSize)
      let kind := fun (s : State) => s.boot.updType.toNat
      let freed := fun (s t : State) => t.boot.updLocks = [] ∧ ∀ n, (t.seg n).locks = (s.seg n).locks - s.boot.updLocks.count n
      ∃ (s : State) (u : State) (img : List Byte) (ok : Bool), s.boot.updState = .busy ∧
      s.foremanRuns 0 = true ∧
      staged s = (.ok img, u) ∧
      verifyImage s.grade s.nv (kind s) (s.regN .fwUpdateSize) img ≠ 0) :=
  by
      dsimp only
      exact ⟨ex_FirmwareUpdateStartsAndEnds_2_1_s, ex_FirmwareUpdateStartsAndEnds_2_1_u, ([]), false,
     by decide +kernel, by decide +kernel, pair_of (ok_of (by decide +kernel)), by decide +kernel⟩

theorem witness_FirmwareUpdateStartsAndEnds_4 : (∃ (s : State), s.boot.updState = .busy ∧
      s.foremanRuns 0 = true) :=
  ⟨ex_FirmwareUpdateStartsAndEnds_3_0_s,
     by decide +kernel, by decide +kernel⟩


theorem witness_TrialsAreConfirmedOrExpire :
    (∃ (s : State) (r : Requester) (v : Word), Safety.Writes s r .firmwareConfirm 0 0 0 v ∧
      1 ≤ v.toNat ∧
      v.toNat ≤ 8 ∧
      s.foremanRuns 0 = true ∧
      (s.nv.entry v.toNat).trial = true ∧
      (s.nv.entry v.toNat).tried = true ∧
      (s.boot.trialEnds[(Fin.ofNat 8 (v.toNat - 1))]).isSome = true) ∧
    (
      let header := fun (s : State) (v : Nat) (slot : Bool) => parseHeader (s.nv.flashRead (slotBase v slot) 64)
      let raised := fun (s t : State) (v n : Nat) =>
        t.nv.secCounter = upd s.nv.secCounter (Fin.ofNat 8 (v - 1)) fun c => max c n
      ∃ (s : State) (r : Requester) (v : Word), Safety.Writes s r .firmwareConfirm 0 0 0 v ∧
      1 ≤ v.toNat ∧
      v.toNat ≤ 8 ∧
      s.foremanRuns 0 = true ∧
      (s.nv.entry v.toNat).trial = false ∧
      (header s v.toNat (s.nv.entry v.toNat).active).magic = 0x4D495454) ∧
    (∃ (s : State) (i : ImageSlot) (d : BitVec 64), s.boot.trialEnds[i] = some d ∧
      d.toNat ≤ s.now.toNat) :=
  ⟨⟨({ op with nv := op.nv.setEntry 3 ⟨true, true, false⟩, boot := { op.boot with trialEnds := (Vector.replicate 8 none).set 2 (some 2000000) } }), .host, 3,
     by decide +kernel, by decide +kernel, by decide +kernel, by decide +kernel, by decide +kernel, by decide +kernel, by decide +kernel⟩,
   (by
      dsimp only
      exact ⟨(signed 7 op), .host, 7,
     by decide +kernel, by decide +kernel, by decide +kernel, by decide +kernel, by decide +kernel, by decide +kernel⟩),
   ⟨({ op with boot := { op.boot with trialEnds := (Vector.replicate 8 none).set 2 (some 900000) } }), 2, 900000,
     by decide +kernel, by decide +kernel⟩⟩


theorem witness_L2UnlockAndFlashSummary :
    (∃ (s : State), Safety.Writes s .host .hostL2Lock 0 0 0 0) ∧
    (∃ (s : State) (r : LogRec) (rest : List LogRec), s.log.toFlash = r :: rest ∧
      s.foremanRuns 0 = true ∧
      s.nv.flashNext < 4096) ∧
    (∃ (s : State) (r : LogRec) (rest : List LogRec), s.log.toFlash = r :: rest ∧
      s.foremanRuns 0 = true ∧
      s.nv.flashNext < 4096) ∧
    (∃ (s : State) (r : Requester), Safety.Writes s r .flashLogErase 0 0 0 1 ∧
      s.foremanRuns 0 = true) :=
  ⟨⟨({ op with boot := { op.boot with l2Lock := true, l2Locks := [(0, 64)] } }),
     by decide +kernel⟩,
   ⟨({ op with log := { op.log with toFlash := [⟨3, 5, 0x3402, 3, 4, 1, 6, 7⟩] }, nv := { op.nv with flashNext := 4095 } }), (⟨3, 5, 0x3402, 3, 4, 1, 6, 7⟩), ([]),
     by decide +kernel, by decide +kernel, by decide +kernel⟩,
   ⟨({ op with log := { op.log with toFlash := [⟨3, 5, 0x3402, 3, 4, 1, 6, 7⟩] }, nv := { op.nv with flashNext := 128, flash := [(0x20000 + 4096, 0), (0x40000, 1)] } }), (⟨3, 5, 0x3402, 3, 4, 1, 6, 7⟩), ([]),
     by decide +kernel, by decide +kernel, by decide +kernel⟩,
   ⟨({ op with nv := { op.nv with flash := [(0x1FFFF, 1), (0x20000, 0), (0x3FFFF, 1), (0x40000, 1)] } }), .burlyn,
     by decide +kernel, by decide +kernel⟩⟩


theorem witness_RecoveryLoaderAnswers :
    (∃ (s : State) (p : RecoveryPacket), s.crown = .recovery ∧
      packetCrcOk p 0x01 = true ∧
      p.payload = [] ∧
      (∀ q f, s.boot.recovery.last = some (q, f) → q ≠ p.seq)) ∧
    (∃ (s : State) (p : RecoveryPacket) (q : Byte) (f : List Byte), s.crown = .recovery ∧
      packetCrcOk p 0x02 = true ∧
      s.boot.recovery.last = some (q, f) ∧
      p.seq = q + 1 ∧
      p.payload.length = 6 ∧
      1 ≤ leAt p.payload 0 1 ∧
      leAt p.payload 0 1 ≤ 8 ∧
      leAt p.payload 1 1 ≤ 1 ∧
      leAt p.payload 2 4 ≤ slotSize (leAt p.payload 0 1)) ∧
    (∃ (s : State) (p : RecoveryPacket) (q : Byte) (f : List Byte), s.crown = .recovery ∧
      packetCrcOk p 0x02 = true ∧
      s.boot.recovery.last = some (q, f) ∧
      p.seq = q + 1 ∧
      p.payload.length = 6 ∧
      1 ≤ leAt p.payload 0 1 ∧
      leAt p.payload 0 1 ≤ 8 ∧
      leAt p.payload 1 1 ≤ 1 ∧
      leAt p.payload 2 4 ≤ slotSize (leAt p.payload 0 1)) ∧
    (∃ (s : State) (p : RecoveryPacket) (q : Byte) (f : List Byte) (ty : Nat) (n : Nat) (got : Nat) (sl : Bool) (bs : List Byte), s.crown = .recovery ∧
      packetCrcOk p 0x03 = true ∧
      s.boot.recovery.last = some (q, f) ∧
      p.seq = q + 1 ∧
      s.boot.recovery.begun = some (ty, sl, n, got) ∧
      p.payload = leBytes 4 got ++ bs ∧
      got < 2 ^ 32 ∧
      got + bs.length ≤ n) ∧
    (∃ (s : State) (p : RecoveryPacket) (q : Byte) (f : List Byte) (ty : Nat) (n : Nat) (got : Nat) (sl : Bool) (bs : List Byte), s.crown = .recovery ∧
      packetCrcOk p 0x03 = true ∧
      s.boot.recovery.last = some (q, f) ∧
      p.seq = q + 1 ∧
      s.boot.recovery.begun = some (ty, sl, n, got) ∧
      p.payload = leBytes 4 got ++ bs ∧
      got < 2 ^ 32 ∧
      got + bs.length ≤ n) ∧
    (∃ (s : State) (p : RecoveryPacket) (q : Byte) (f : List Byte) (ty : Nat) (n : Nat) (got : Nat) (sl : Bool), s.crown = .recovery ∧
      packetCrcOk p 0x04 = true ∧
      s.boot.recovery.last = some (q, f) ∧
      p.seq = q + 1 ∧
      s.boot.recovery.begun = some (ty, sl, n, got)) ∧
    (∃ (s : State) (p : RecoveryPacket) (q : Byte) (f : List Byte), s.crown = .recovery ∧
      packetCrcOk p 0x05 = true ∧
      s.boot.recovery.last = some (q, f) ∧
      p.seq = q + 1 ∧
      p.payload = []) ∧
    (∃ (s : State), s.crown = .recovery) :=
  ⟨⟨(recov none), (packet 1 9 []),
     by decide +kernel, by decide +kernel, by decide +kernel, fun q f h => by
      injection (show some ((7 : Byte), [(0 : Byte)]) = some (q, f) from h) with h
      injection h with h1 h2
      subst h1
      decide +kernel⟩,
   ⟨(recov none), (packet 2 8 [8, 1, 0, 0, 0, 2]), 7, ([0]),
     by decide +kernel, by decide +kernel, by decide +kernel, by decide +kernel, by decide +kernel, by decide +kernel, by decide +kernel, by decide +kernel, by decide +kernel⟩,
   ⟨(recov none), (packet 2 8 [1, 0, 0, 0, 0, 0]), 7, ([0]),
     by decide +kernel, by decide +kernel, by decide +kernel, by decide +kernel, by decide +kernel, by decide +kernel, by decide +kernel, by decide +kernel, by decide +kernel⟩,
   ⟨(recov (some (8, true, 0x2000000, 0x1FFFFFE))), (packet 3 8 (leBytes 4 0x1FFFFFE ++ [5, 6])), 7, ([0]), 8, 0x2000000, 0x1FFFFFE, true, ([5, 6]),
     by decide +kernel, by decide +kernel, by decide +kernel, by decide +kernel, by decide +kernel, by decide +kernel, by decide +kernel, by decide +kernel⟩,
   ⟨(recov (some (1, false, 5, 0))), (packet 3 8 (leBytes 4 0 ++ [255, 6])), 7, ([0]), 1, 5, 0, false, ([255, 6]),
     by decide +kernel, by decide +kernel, by decide +kernel, by decide +kernel, by decide +kernel, by decide +kernel, by decide +kernel, by decide +kernel⟩,
   ⟨(recov (some (1, false, 5, 5))), (packet 4 8 []), 7, ([0]), 1, 5, 5, false,
     by decide +kernel, by decide +kernel, by decide +kernel, by decide +kernel, by decide +kernel⟩,
   ⟨(recov none), (packet 5 8 []), 7, ([0]),
     by decide +kernel, by decide +kernel, by decide +kernel, by decide +kernel, by decide +kernel⟩,
   ⟨(recov none),
     by decide +kernel⟩⟩


theorem witness_BurlynReadsAndPostedWrites :
    (∃ (s : State) (idx : BitVec 16) (sub : BitVec 8) (g : Target), s.serves .burlyn = true ∧
      s.target (reqNum .burlyn) idx.toNat sub.toNat = some g ∧
      s.gateCodes .burlyn idx.toNat g = [] ∧
      g.ty.short = true) ∧
    (∃ (s : State) (idx : BitVec 16) (sub : BitVec 8) (sel : BitVec 8) (v : Word) (rest : List Posted), (s.port .burlyn).posted = .write idx sub sel v :: rest) ∧
    (∃ (s : State) (a : BlockArgs) (commit : Bool) (rest : List Posted), (s.port .burlyn).posted = .block commit a :: rest) :=
  ⟨⟨op, 0x1200, 1, (⟨⟨.crownState, 0, 0, 0⟩, none⟩),
     by decide +kernel, by decide +kernel, by decide +kernel, by decide +kernel⟩,
   ⟨({ op with ports := op.ports.set 0 { accepted := 0x03000000, posted := [.write 0x1200 2 0 1, .write 0 0 0 0] } }), 0x1200, 2, 0, 1, ([.write 0 0 0 0]),
     by decide +kernel⟩,
   ⟨({ op with ports := op.ports.set 0 { accepted := 0x03000000, posted := [.block false ⟨0x1000, 2, 0, 0, 16, none⟩] } }), (⟨0x1000, 2, 0, 0, 16, none⟩), false, ([]),
     by decide +kernel⟩⟩


theorem witness_PortResetEndsTheBlockOperation :
    (∃ (s : State), s.serves .burlyn = true) ∧
    (∃ (s : State), s.serves .burlyn = true) :=
  ⟨⟨({ op with ports := op.ports.set 0 { accepted := 0x03000000, posted := [.write 0x1200 2 0 1], blk := { state := .busy, op := some (false, ⟨0x1000, 2, 0, 0, 16, none⟩), buffer := [(3, 4)] } } }),
     by decide +kernel⟩,
   ⟨({ op with ports := op.ports.set 0 { accepted := 0x03000000, posted := [.block true ⟨0x1000, 2, 0, 0, 16, none⟩, .write 0x1200 2 0 1], blk := { state := .refused } } }),
     by decide +kernel⟩⟩


theorem witness_BlockAccessOpensCommitsAndMovesData :
    (∃ (s : State) (r : Requester) (a : BlockArgs) (g : Target), r ≠ .burlyn ∧
      Safety.Commits s r a g false) ∧
    (∃ (s : State) (r : Requester) (a : BlockArgs) (g : Target), r ≠ .burlyn ∧
      Safety.Commits s r a g true) ∧
    (∃ (s : State) (a : BlockArgs), s.serves .burlyn = true ∧
      a.crc = none ∧
      (s.port .burlyn).posted.length < 16) ∧
    (∃ (s : State) (r : Requester) (a : BlockArgs) (g : Target), (s.port r).blk.op = some (false, a) ∧
      s.target (reqNum r) a.idx.toNat a.sub.toNat = some g ∧
      s.blockCodes r false a g = []) ∧
    (∃ (s : State) (r : Requester) (addr : BitVec 32) (data : List Byte), s.serves r = true ∧
      addr.toNat < 2 ^ 16 ∧
      data.length ≤ 4096) ∧
    (∃ (s : State) (r : Requester) (addr : BitVec 32) (data : List Byte), s.serves r = true ∧
      addr.toNat < 2 ^ 16 ∧
      data.length ≤ 4096) ∧
    (∃ (s : State) (r : Requester) (addr : BitVec 32) (n : Nat), s.serves r = true ∧
      addr.toNat < 2 ^ 16 ∧
      (s.port r).blk.state = .ready ∧
      (s.port r).blk.op = none) :=
  ⟨⟨op, .host, (⟨0x1000, 2, 0, 0, 16, none⟩), (⟨⟨.partName, 0, 0, 0⟩, none⟩),
     by decide +kernel, by decide +kernel⟩,
   ⟨({ op with ports := op.ports.set 3 { declared := 0x0300, accepted := 0x0300, blk := { state := .ready, buffer := [(0, 13)] } } }), .host, (⟨BitVec.ofNat 16 (Ob.ownerKeyProgram.index 0 0), BitVec.ofNat 8 (Ob.ownerKeyProgram.subindex 0), 0, 0, 49, none⟩), (⟨⟨.ownerKeyProgram, 0, 0, 0⟩, none⟩),
     by decide +kernel, by decide +kernel⟩,
   ⟨op, (⟨0x1000, 2, 0, 0, 16, none⟩),
     by decide +kernel, by decide +kernel, by decide +kernel⟩,
   ⟨({ op with ports := op.ports.set 1 { accepted := 0x03000000, blk := { state := .busy, op := some (false, ⟨0x1000, 2, 0, 3, 13, none⟩), buffer := [(3, 4), (13, 1)] } } }), .can0, (⟨0x1000, 2, 0, 3, 13, none⟩), (⟨⟨.partName, 0, 0, 0⟩, none⟩),
     by decide +kernel, by decide +kernel, by decide +kernel⟩,
   ⟨op, .burlyn, 0xFFFF, ([1, 2, 0, 3]),
     by decide +kernel, by decide +kernel, by decide +kernel⟩,
   ⟨op, .host, 0, (List.replicate 4096 1),
     by decide +kernel, by decide +kernel, by decide +kernel⟩,
   ⟨({ op with ports := op.ports.set 0 { blk := { state := .ready, buffer := [(3, 4)] } } }), .burlyn, 2, 4,
     by decide +kernel, by decide +kernel, by decide +kernel, by decide +kernel⟩⟩


theorem witness_CanRequestsAreAnswered :
    (∃ (s : State) (k : Fin 2) (f : CanFrame) (idx : BitVec 16) (sub : BitVec 8) (pad : List Byte) (g : Target), s.serves (canRequester k) = true ∧
      f.extended = true ∧
      f.fd = true ∧
      f.dlc = 15 ∧
      f.ident.toNat = s.regN .canBaseId k.val ∧
      pad.length = 56 ∧
      f.data = [0x0B, 0, sub] ++ leBytes 2 idx.toNat ++ [0, 0, 0] ++ pad ∧
      s.target (reqNum (canRequester k)) idx.toNat sub.toNat = some g ∧
      s.gateCodes (canRequester k) idx.toNat g = [] ∧
      g.ty.short = true ∧
      (∀ q resp, (s.port (canRequester k)).prev = some (q, resp) → q ≠ f.data)) ∧
    (∃ (s : State) (k : Fin 2) (f : CanFrame) (resp : List Byte), s.serves (canRequester k) = true ∧
      f.extended = true ∧
      f.fd = true ∧
      f.dlc = 15 ∧
      f.data.length = 64 ∧
      f.ident.toNat = s.regN .canBaseId k.val ∧
      (s.port (canRequester k)).prev = some (f.data, resp)) ∧
    (∃ (s : State) (k : Fin 2), s.porstLow = false ∧
      s.crown ≠ .powerOn ∧
      s.can[k].busOff = false) ∧
    (∃ (s : State) (k : Fin 2), s.porstLow = false ∧
      s.crown ≠ .powerOn ∧
      s.can[k].busOff = true ∧
      (∀ j : Fin 2, j ≠ k → s.can[j].busOff = false)) ∧
    (∃ (s : State) (k : Fin 2), s.porstLow = false ∧
      s.crown ≠ .powerOn ∧
      s.can[k].busOff = true ∧
      ((∃ j : Fin 2, j ≠ k ∧ s.can[j].busOff = true) ∨ ∀ j : Fin 2, s.can[j].tookReady = false)) ∧
    (∃ (s : State) (k : Fin 2), s.porstLow = false ∧
      s.crown ≠ .powerOn ∧
      s.can[k].busOff = true ∧
      ((∃ j : Fin 2, j ≠ k ∧ s.can[j].busOff = true) ∨ ∀ j : Fin 2, s.can[j].tookReady = false)) :=
  ⟨⟨(regs op [(Ob.key .canBaseId 1 0 0, 0x1FFFFFFF)]), 1, (⟨0x1FFFFFFF, true, true, 15, [0x0B, 0, 1, 0x00, 0x12, 0, 0, 0] ++ List.replicate 56 0⟩), 0x1200, 1, (List.replicate 56 0), (⟨⟨.crownState, 0, 0, 0⟩, none⟩),
     by decide +kernel, by decide +kernel, by decide +kernel, by decide +kernel, by decide +kernel, by decide +kernel, by decide +kernel, by decide +kernel, by decide +kernel, by decide +kernel, fun q f h => absurd (show none = some (q, f) from h) (by simp)⟩,
   ⟨(regs { op with ports := op.ports.set 1 { accepted := 0x03000000, prev := some ([0x12, 0, 1, 0x00, 0x12, 0, 0, 0] ++ List.replicate 56 0, [9]) } } [(Ob.key .canBaseId 0 0 0, 5)]), 0, (⟨5, true, true, 15, [0x12, 0, 1, 0x00, 0x12, 0, 0, 0] ++ List.replicate 56 0⟩), ([9]),
     by decide +kernel, by decide +kernel, by decide +kernel, by decide +kernel, by decide +kernel, by decide +kernel, by decide +kernel⟩,
   ⟨op, 0,
     by decide +kernel, by decide +kernel, by decide +kernel⟩,
   ⟨({ op with readiness := op.readiness &&& ~~~((1 : BitVec 64) <<< rCan), can := op.can.set 1 { busOff := true, tookReady := true } }), 1,
     by decide +kernel, by decide +kernel, by decide +kernel, by decide +kernel⟩,
   ⟨({ op with can := op.can.set 1 { busOff := true } }), 1,
     by decide +kernel, by decide +kernel, by decide +kernel, by decide +kernel⟩,
   ⟨({ op with can := Vector.replicate 2 { busOff := true, tookReady := true } }), 0,
     by decide +kernel, by decide +kernel, by decide +kernel, by decide +kernel⟩⟩


theorem witness_AlertAssertionSendsTheAlertFrame :
    (∃ (s : State) (i : Nat), i < 64 ∧
      s.crown ≠ .powerOn ∧
      s.alertAsserted = false ∧
      (s.alertEnable).getLsbD i = true ∧
      s.ready rCan = true) ∧
    (∃ (s : State) (i : Nat), i < 64 ∧
      s.crown ≠ .powerOn ∧
      s.alertAsserted = false ∧
      (s.alertEnable).getLsbD i = true ∧
      s.ready rCan = true) :=
  ⟨⟨({ op with can := op.can.set 1 { busOff := true, alertFrame := [3] } }), 1,
     by decide +kernel, by decide +kernel, by decide +kernel, by decide +kernel, by decide +kernel⟩,
   ⟨(regs op [(Ob.key .alertEnable 0 0 0, 1)]), 0,
     by decide +kernel, by decide +kernel, by decide +kernel, by decide +kernel, by decide +kernel⟩⟩


theorem witness_DictionaryWritesAndHostWindow :
    (∃ (s : State) (r : Requester) (v : Word), Safety.Writes s r .capSustained 0 0 0 v ∧
      s.onT5 (reqNum r) = false ∧
      s.powerBad .capSustained v.toNat = false ∧
      s.foremanRuns 2 = true) ∧
    (∃ (s : State) (v : Word), Safety.Writes s .host .capSustained 0 0 0 v ∧
      s.onT5 (reqNum .host) = false ∧
      s.powerBad .capSustained v.toNat = false ∧
      s.foremanRuns 2 = true) ∧
    (∃ (s : State), s.serves .host = true ∧
      s.onT5 (reqNum .host) = false ∧
      s.gateCodes .host 0x1200 ⟨⟨.crownState, 0, 0, 0⟩, none⟩ = []) :=
  ⟨⟨op, .burlyn, 40,
     by decide +kernel, by decide +kernel, by decide +kernel, by decide +kernel⟩,
   ⟨op, 40,
     by decide +kernel, by decide +kernel, by decide +kernel, by decide +kernel⟩,
   ⟨op,
     by decide +kernel, by decide +kernel, by decide +kernel⟩⟩


theorem witness_DeclarationsAndT5Accept :
    (∃ (s : State) (r : Requester) (v : Word), Safety.Writes s r .ifDeclare (reqNum r).val 0 0 v ∧
      (declNative (reqNum r) v.toNat = true ∨ declT5 (reqNum r) v.toNat = true) ∧
      (onHost (reqNum r) = true → v.toNat = (s.port r).accepted.toNat ∨ ∀ q : QueueId, (s.wq q).enabled = false)) ∧
    (∃ (s : State) (r : Requester) (v : Word), Safety.Writes s r .ifDeclare (reqNum r).val 0 0 v ∧
      (declNative (reqNum r) v.toNat = true ∨ declT5 (reqNum r) v.toNat = true) ∧
      (onHost (reqNum r) = true → v.toNat = (s.port r).accepted.toNat ∨ ∀ q : QueueId, (s.wq q).enabled = false)) ∧
    (∃ (s : State) (r : Requester) (v : Word), Safety.Writes s r .t5Accept (reqNum r).val 0 0 v) :=
  ⟨⟨op, .burlyn, 0x02000000,
     by decide +kernel, by decide +kernel, by decide +kernel⟩,
   ⟨op, .burlyn, 0x03000000,
     by decide +kernel, by decide +kernel, by decide +kernel⟩,
   ⟨({ op with ports := op.ports.set 0 { accepted := 0x02000000 } }), .burlyn, 0x1FF,
     by decide +kernel⟩⟩


theorem witness_AlertCausesAndReadiness :
    (∃ (s : State) (r : Requester) (v : Word), Safety.Writes s r .alertCause 0 0 0 v ∧
      v.toNat < 2 ^ 9) ∧
    (∃ (s : State) (r : Requester) (v : Word), Safety.Writes s r .alertCause 0 0 0 v ∧
      v.toNat < 2 ^ 9) ∧
    (∃ (s : State) (r : Requester) (v : Word), Safety.Writes s r .readinessExpected 0 0 0 v ∧
      v &&& ~~~(presentReady s.grade) = 0) ∧
    (∃ (s : State) (r : Requester) (v : Word), Safety.Writes s r .readinessExpected 0 0 0 v ∧
      v &&& ~~~(presentReady s.grade) = 0) ∧
    (∃ (s : State) (f : ReadyFunction), s.porstLow = false ∧
      s.crown ≠ .powerOn ∧
      s.crown ≠ .recovery ∧
      (∀ d, functionDomain f = some d → s.domainOn.testBit d = true) ∧
      s.functionCanReport f = true ∧
      (f = .sysCache → ∃ k, k < 8 ∧ s.power.domainOff.getLsbD (48 + k) = false) ∧
      (presentReady s.grade).getLsbD (functionBit f) = true) ∧
    (∃ (s : State) (f : ReadyFunction), s.porstLow = false ∧
      s.crown ≠ .powerOn ∧
      s.crown ≠ .recovery ∧
      (∀ d, functionDomain f = some d → s.domainOn.testBit d = true) ∧
      s.functionCanReport f = true ∧
      (f = .sysCache → ∃ k, k < 8 ∧ s.power.domainOff.getLsbD (48 + k) = false) ∧
      (presentReady s.grade).getLsbD (functionBit f) = true) :=
  ⟨⟨({ op with alertCause := 0x1FF }), .burlyn, 0x1FF,
     by decide +kernel, by decide +kernel⟩,
   ⟨({ op with alertCause := 0x1FF }), .host, 1,
     by decide +kernel, by decide +kernel⟩,
   ⟨({ op with crown := .bringup, readiness := 0xFFFF }), .burlyn, 0xFFFF,
     by decide +kernel, by decide +kernel⟩,
   ⟨({ op with crown := .bringup, readiness := 0xFFFF, readyFailed := 0x10000 }), .burlyn, 0x1FFFF,
     by decide +kernel, by decide +kernel⟩,
   ⟨({ op with readiness := 0, readyFailed := 0xFFFFFFFFFF }), .can,
     by decide +kernel, by decide +kernel, by decide +kernel, by decide +kernel, by decide +kernel, by decide +kernel, by decide +kernel⟩,
   ⟨({ op with readiness := 0, readyFailed := 0xFFFFFFFFFF }), .crypto,
     by decide +kernel, by decide +kernel, by decide +kernel, by decide +kernel, by decide +kernel, by decide +kernel, by decide +kernel⟩⟩


theorem witness_CrownCommandsChangeTheCrownState :
    (∃ (s : State) (r : Requester), Safety.Writes s r .crownCommand 0 0 0 1 ∧
      (s.crown = .operational ∨ s.crown = .degraded) ∧
      s.foremanRuns 4 = true) ∧
    (∃ (s : State) (r : Requester), Safety.Writes s r .crownCommand 0 0 0 1 ∧
      (s.crown = .operational ∨ s.crown = .degraded) ∧
      s.foremanRuns 4 = true) ∧
    (∃ (s : State) (r : Requester), Safety.Writes s r .crownCommand 0 0 0 2 ∧
      s.crown = .quiescing ∧
      reqPort r ≠ 1 ∧
      s.foremanRuns 4 = true) ∧
    (∃ (s : State) (r : Requester), Safety.Writes s r .crownCommand 0 0 0 2 ∧
      s.crown = .quiescing ∧
      reqPort r ≠ 1 ∧
      s.foremanRuns 4 = true) ∧
    (∃ (s : State) (r : Requester), Safety.Writes s r .crownCommand 0 0 0 3 ∧
      s.crown = .quiescing ∧
      reqPort r ≠ 1 ∧
      s.canSleep = true ∧
      s.foremanRuns 4 = true) ∧
    (∃ (s : State) (r : Requester), Safety.Writes s r .crownCommand 0 0 0 4 ∧
      s.crown = .sleep ∧
      reqPort r ≠ 1 ∧
      s.foremanRuns 4 = true) ∧
    (∃ (s : State) (r : Requester), Safety.Writes s r .crownCommand 0 0 0 7 ∧
      s.crown ≠ .halted) ∧
    (∃ (s : State) (r : Requester), Safety.Writes s r .crownCommand 0 0 0 7 ∧
      s.crown ≠ .halted) :=
  ⟨⟨op, .host,
     by decide +kernel, by decide +kernel, by decide +kernel⟩,
   ⟨({ op with crown := .degraded }), .burlyn,
     by decide +kernel, by decide +kernel, by decide +kernel⟩,
   ⟨({ op with crown := .quiescing }), .host,
     by decide +kernel, by decide +kernel, by decide +kernel, by decide +kernel⟩,
   ⟨({ op with crown := .quiescing, readyFailed := 1 }), .burlyn,
     by decide +kernel, by decide +kernel, by decide +kernel, by decide +kernel⟩,
   ⟨({ op with crown := .quiescing }), .burlyn,
     by decide +kernel, by decide +kernel, by decide +kernel, by decide +kernel, by decide +kernel⟩,
   ⟨({ op with crown := .sleep, boughs := (Vector.replicate 4 { state := .down }), groups := op.groups.set 2 { mode := .drop } }), .burlyn,
     by decide +kernel, by decide +kernel, by decide +kernel, by decide +kernel⟩,
   ⟨op, .burlyn,
     by decide +kernel, by decide +kernel⟩,
   ⟨({ op with crown := .bringup }), .host,
     by decide +kernel, by decide +kernel⟩⟩


theorem witness_CrownCommandsTakeBoughsDownAndUp :
    (∃ (s : State) (r : Requester) (m : BitVec 4), Safety.Writes s r .crownCommand 0 0 0 (BitVec.ofNat 64 (5 + m.toNat * 256)) ∧
      m ≠ 0 ∧
      (commandStates 5).testBit s.crown.code = true ∧
      s.foremanRuns 4 = true ∧
      (∀ b : BoughId, m.getLsbD b.val = true → s.canGoDown b = true)) ∧
    (∃ (s : State) (r : Requester) (m : BitVec 4), Safety.Writes s r .crownCommand 0 0 0 (BitVec.ofNat 64 (5 + m.toNat * 256)) ∧
      m ≠ 0 ∧
      (commandStates 5).testBit s.crown.code = true ∧
      s.foremanRuns 4 = true ∧
      (∀ b : BoughId, m.getLsbD b.val = true → s.canGoDown b = true)) ∧
    (∃ (s : State) (r : Requester) (m : BitVec 4), Safety.Writes s r .crownCommand 0 0 0 (BitVec.ofNat 64 (6 + m.toNat * 256)) ∧
      m ≠ 0 ∧
      reqPort r ≠ 1 ∧
      (commandStates 6).testBit s.crown.code = true ∧
      s.foremanRuns 4 = true ∧
      s.foremanRuns 1 = true ∧
      (∀ b : BoughId, m.getLsbD b.val = true → s.canComeUp b = true)) ∧
    (∃ (s : State) (r : Requester) (m : BitVec 4), Safety.Writes s r .crownCommand 0 0 0 (BitVec.ofNat 64 (6 + m.toNat * 256)) ∧
      m ≠ 0 ∧
      reqPort r ≠ 1 ∧
      (commandStates 6).testBit s.crown.code = true ∧
      s.foremanRuns 4 = true ∧
      s.foremanRuns 1 = true ∧
      (∀ b : BoughId, m.getLsbD b.val = true → s.canComeUp b = true)) :=
  ⟨⟨op, .burlyn, 15,
     by decide +kernel, by decide +kernel, by decide +kernel, by decide +kernel, by decide +kernel⟩,
   ⟨op, .burlyn, 4,
     by decide +kernel, by decide +kernel, by decide +kernel, by decide +kernel, by decide +kernel⟩,
   ⟨({ op with boughs := (Vector.replicate 4 { state := .down }) }), .host, 15,
     by decide +kernel, by decide +kernel, by decide +kernel, by decide +kernel, by decide +kernel, by decide +kernel, by decide +kernel⟩,
   ⟨({ op with boughs := op.boughs.set 2 { state := .down } }), .burlyn, 4,
     by decide +kernel, by decide +kernel, by decide +kernel, by decide +kernel, by decide +kernel, by decide +kernel, by decide +kernel⟩⟩


theorem witness_BoughResetFencesTheBough :
    (∃ (s : State) (b : BoughId) (r : Requester), Safety.Writes s r .boughReset b.val 0 0 1 ∧
      s.boughs[b].state = .ready ∧
      s.foremanRuns 4 = true) ∧
    (∃ (s : State) (b : BoughId) (r : Requester), Safety.Writes s r .boughReset b.val 0 0 1 ∧
      s.boughs[b].state = .ready ∧
      s.foremanRuns 4 = true) ∧
    (∃ (s : State) (b : BoughId), s.boughs[b].state = .ready ∧
      s.foremanRuns 4 = true ∧
      s.seamWaits b = true) :=
  ⟨⟨(withJobs [{ aJob with touched := 3 }] op), 1, .burlyn,
     by decide +kernel, by decide +kernel, by decide +kernel⟩,
   ⟨op, 3, .host,
     by decide +kernel, by decide +kernel, by decide +kernel⟩,
   ⟨({ op with seams := op.seams.set 7 { state := .failed, outPending := true } }), 1,
     by decide +kernel, by decide +kernel, by decide +kernel⟩⟩


theorem witness_BoughDrainResetsTheBough :
    (∃ (s : State) (b : BoughId), s.boughs[b].state = .fencing ∧
      s.boughs[b].drainAt.toNat ≤ s.now.toNat) ∧
    (∃ (s : State) (b : BoughId), s.boughs[b].state = .fencing ∧
      s.boughs[b].limitPassed = true) ∧
    (∃ (s : State) (b : BoughId), s.boughs[b].state = .resetting ∧
      (∀ q ∈ seamsOf b, s.seams[q].state.inService = true)) :=
  ⟨⟨({ op with boughs := op.boughs.set 2 { state := .fencing }, hub := { op.hub with xfers := [{ queue := .branch 2 0 0, run := 0, who := .branchQueue 2 0 0, slot := 0, tile := 0, idx := 0, move := ⟨none, [], [], none⟩ }, ({ ({ queue := .branch 2 0 0, run := 0, who := .branchQueue 2 0 0, slot := 0, tile := 0, idx := 0, move := ⟨none, [], [], none⟩ } : Xfer) with who := .branchQueue 1 0 0 })] } }), 2,
     by decide +kernel, by decide +kernel⟩,
   ⟨({ wr (wr op 0x200000 [5]) 0x4000000000 [3] with boughs := op.boughs.set 0 { state := .fencing, limitPassed := true } }), 0,
     by decide +kernel, by decide +kernel⟩,
   ⟨({ op with boughs := op.boughs.set 3 { state := .resetting }, readiness := 0xFFFFF7FFFF }), 3,
     by decide +kernel, by decide +kernel⟩⟩


theorem witness_QueuesAreEnabledAndDisabled :
    (∃ (s : State) (r : Requester) (q : QueueId), Safety.Writes s r .wqEnable q.val 0 0 1 ∧
      s.wqEnableCodes q = [] ∧
      s.crown ≠ .quiescing ∧
      s.abi3 = true) ∧
    (∃ (s : State) (r : Requester) (q : QueueId), Safety.Writes s r .wqEnable q.val 0 0 0 ∧
      (∀ j ∈ s.hub.jobs, j.queue ≠ q)) :=
  ⟨⟨({ hubUp with hub := { hubUp.hub with queues := hubUp.hub.queues.set 5 { refusal := 3, compRead := 5 } } }), .host, 5,
     by decide +kernel, by decide +kernel, by decide +kernel, by decide +kernel⟩,
   ⟨(withJobs [{ aJob with queue := 4 }] hubUp), .host, 5,
     by decide +kernel, by decide +kernel⟩⟩


theorem witness_DoorbellAcceptsJobs :
    (∃ (s : State) (r : Requester) (q : QueueId) (bs : List Byte) (u : State), reachesWindow r = true ∧
      (s.wq q).enabled = true ∧
      s.ringRead (s.wqClaim q) (s.regN .wqSubBase q.val + (s.wq q).acceptIndex.toNat % 2 ^ s.wqSubLog q * 64) 64 = (.ok bs, u) ∧
      u.recordRefusal q (leNat bs) = none) ∧
    (∃ (s : State) (r : Requester) (q : QueueId) (v : BitVec 32), reachesWindow r = true ∧
      (s.wq q).enabled = false) ∧
    (∃ (s : State) (r : Requester) (q : QueueId) (v : BitVec 32), reachesWindow r = true ∧
      (v - (s.wq q).compRead).toNat ≤ ((s.wq q).compWrite - (s.wq q).compRead).toNat) ∧
    (∃ (s : State) (r : Requester) (q : QueueId) (v : BitVec 32), reachesWindow r = true ∧
      (v - (s.wq q).compRead).toNat ≤ ((s.wq q).compWrite - (s.wq q).compRead).toNat) :=
  ⟨⟨(wr hubUp 0x42000003C0 (leBytes 64 (0x200000 + 2 * 2 ^ 48))), .host, 5, (leBytes 64 (0x200000 + 2 * 2 ^ 48)), (wr hubUp 0x42000003C0 (leBytes 64 (0x200000 + 2 * 2 ^ 48))),
     by decide +kernel, by decide +kernel, by rfl, by decide +kernel⟩,
   ⟨op, .host, 63, 7,
     by decide +kernel, by decide +kernel⟩,
   ⟨hubUp, .pcie, 5, 14,
     by decide +kernel, by decide +kernel⟩,
   ⟨hubUp, .host, 5, 0,
     by decide +kernel, by decide +kernel⟩⟩


theorem witness_CancelsAndDeadlinesDecideJobs :
    (
      let named := fun (s : State) => (s.hub.jobs.map fun j => (j.queue, j.seq)).Nodup
      let cancelled := fun (s t : State) (j : Job) =>
        (t.job? j.queue j.seq).bind (·.decision) = some { status := stCancelled, time := s.now }
      ∃ (s : State) (r : Requester) (q : QueueId) (seq : BitVec 32) (j : Job), named s ∧
      Safety.Writes s r .wqCancel q.val 0 0 (BitVec.ofNat 64 seq.toNat) ∧
      s.job? q seq = some j ∧
      j.decision = none) ∧
    (
      let named := fun (s : State) => (s.hub.jobs.map fun j => (j.queue, j.seq)).Nodup
      let cancelled := fun (s t : State) (j : Job) =>
        (t.job? j.queue j.seq).bind (·.decision) = some { status := stCancelled, time := s.now }
      ∃ (s : State) (r : Requester) (q : QueueId), named s ∧
      Safety.Writes s r .wqCancel q.val 0 0 (BitVec.ofNat 64 (2 ^ 32))) ∧
    (
      let named := fun (s : State) => (s.hub.jobs.map fun j => (j.queue, j.seq)).Nodup
      let cancelled := fun (s t : State) (j : Job) =>
        (t.job? j.queue j.seq).bind (·.decision) = some { status := stCancelled, time := s.now }
      ∃ (s : State) (r : Requester) (v : Word), named s ∧
      Safety.Writes s r .cancelBundle 0 0 0 v ∧
      v.toNat ≤ 63) ∧
    (
      let named := fun (s : State) => (s.hub.jobs.map fun j => (j.queue, j.seq)).Nodup
      let cancelled := fun (s t : State) (j : Job) =>
        (t.job? j.queue j.seq).bind (·.decision) = some { status := stCancelled, time := s.now }
      ∃ (s : State) (r : Requester) (v : Word), named s ∧
      Safety.Writes s r .cancelBundle 0 0 0 v ∧
      v.toNat ≤ 63) ∧
    (
      let named := fun (s : State) => (s.hub.jobs.map fun j => (j.queue, j.seq)).Nodup
      let cancelled := fun (s t : State) (j : Job) =>
        (t.job? j.queue j.seq).bind (·.decision) = some { status := stCancelled, time := s.now }
      ∃ (s : State) (q : QueueId) (seq : BitVec 32) (j : Job) (d : Nat), named s ∧
      s.job? q seq = some j ∧
      j.decision = none ∧
      j.deadline = some d ∧
      d ≤ s.now.toNat) ∧
    (
      let named := fun (s : State) => (s.hub.jobs.map fun j => (j.queue, j.seq)).Nodup
      let cancelled := fun (s t : State) (j : Job) =>
        (t.job? j.queue j.seq).bind (·.decision) = some { status := stCancelled, time := s.now }
      ∃ (s : State) (q : QueueId) (seq : BitVec 32) (j : Job) (d : Nat), named s ∧
      s.job? q seq = some j ∧
      j.decision = none ∧
      j.deadline = some d ∧
      d ≤ s.now.toNat) :=
  ⟨(by
      dsimp only
      exact ⟨(withJobs [{ aJob with seq := 8 }, aJob] hubUp), .host, 5, 9, aJob,
     by decide +kernel, by decide +kernel, by decide +kernel, by decide +kernel⟩),
   (by
      dsimp only
      exact ⟨(withJobs [{ aJob with seq := 8 }, aJob, { aJob with queue := 4 }] hubUp), .host, 5,
     by decide +kernel, by decide +kernel⟩),
   (by
      dsimp only
      exact ⟨(withJobs [{ aJob with seq := 8, handle := 63 }, aJob, { aJob with queue := 4 }] hubUp), .burlyn, 63,
     by decide +kernel, by decide +kernel, by decide +kernel⟩),
   (by
      dsimp only
      exact ⟨(withJobs [{ aJob with seq := 8, handle := 63 }, aJob, { aJob with queue := 4 }] hubUp), .burlyn, 2,
     by decide +kernel, by decide +kernel, by decide +kernel⟩),
   (by
      dsimp only
      exact ⟨(withJobs [aJob] hubUp), 5, 9, aJob, 1000000,
     by decide +kernel, by decide +kernel, by decide +kernel, by decide +kernel, by decide +kernel⟩),
   (by
      dsimp only
      exact ⟨(withJobs [{ aJob with replays := 1 }] hubUp), 5, 9, ({ aJob with replays := 1 }), 1000000,
     by decide +kernel, by decide +kernel, by decide +kernel, by decide +kernel, by decide +kernel⟩)⟩


theorem witness_JobsTakeHandlesAndReserveBuffers :
    (∃ (s : State) (b : BoughId) (q : HqPos) (j : Job) (h : BitVec 64) (rest : List (BitVec 64)), (s.oldestWaiting fun j => j.take = some (b, q) && j.taken.isNone) = some j ∧
      (s.hq b q).queued = h :: rest) ∧
    (∃ (s : State) (b : BoughId) (q : HqPos) (j : Job) (i : Nat) (rest : List Nat), (s.oldestWaiting fun j => j.post = some (b, q) && j.reserved.isNone) = some j ∧
      (s.hq b q).free = i :: rest ∧
      (∀ a ∈ s.asking b q, j.order < a.2)) ∧
    (∃ (s : State) (b : BoughId) (q : HqPos) (j : Job) (a : Producer × Nat), (s.oldestWaiting fun j => j.post = some (b, q) && j.reserved.isNone) = some j ∧
      a ∈ s.asking b q ∧
      a.2 ≤ j.order) :=
  ⟨⟨(withJobs [{ aJob with take := some (0, 3), seq := 8, taken := some 1 }, { aJob with take := some (0, 3) }] (withHandles [0x41, 0x42] hubUp)), 0, 3, ({ aJob with take := some (0, 3) }), 0x41, ([0x42]),
     by decide +kernel, by decide +kernel⟩,
   ⟨(withJobs [{ aJob with post := some (0, 3) }] (withHandles [] hubUp)), 0, 3, ({ aJob with post := some (0, 3) }), 1, ([]),
     by decide +kernel, by decide +kernel, by decide +kernel⟩,
   ⟨((let s := regs (withJobs [{ aJob with post := some (0, 3), order := 5 }] (withHandles [] hubUp)) [(Ob.key .spTarget 0 0 0, 3)]
  { s with sample := { s.sample with state := .waiting }, boughs := upd s.boughs 0 fun x => { x with hqs := upd x.hqs 3 fun q => { q with asks := [(.samplePipe, 4)] } } })), 0, 3, ({ aJob with post := some (0, 3), order := 5 }), ((.samplePipe, 4)),
     by decide +kernel, by decide +kernel, by decide +kernel⟩⟩


theorem witness_CompletionRecordsAreWrittenInOrder :
    (
      let due := fun (s : State) (q : QueueId) (j : Job) (d : Decision) =>
        s.oldestJob q = some j ∧ j.decision = some d ∧ s.jobState j = 5
      let place := fun (s : State) (q : QueueId) => s.regN .wqCompBase q.val + (s.wq q).compWrite.toNat % 2 ^ s.wqCompLog q * 32
      let bytes := fun (s : State) (q : QueueId) (j : Job) (d : Decision) => recordBytes j d s.hub.epoch (s.wq q).compWrite.toNat (s.wqCompLog q)
      let written := fun (s t : State) (q : QueueId) (j : Job) (d : Decision) =>
        (t.wq q).compWrite = (s.wq q).compWrite + 1 ∧ (t.wq q).recordBlocked = false ∧
        t.reg .wqRecorded q.val = s.reg .wqRecorded q.val + 1 ∧ t.mem.readBytes (place s q) 32 = bytes s q j d ∧
        (∀ k ∈ t.hub.jobs, k ∈ s.hub.jobs ∧ ¬(k.queue = q ∧ k.seq = j.seq)) ∧ t.sec = s.sec ∧ t.ports = s.ports
      ∃ (s : State) (q : QueueId) (j : Job) (d : Decision), due s q j d ∧
      (s.wq q).recordBlocked = false ∧
      s.regN .wqCompBase q.val % 64 = 0 ∧
      place s q + 32 ≤ 2 ^ 37 ∧
      s.checkDram (.job j.claim) .write (place s q) = none) ∧
    (
      let due := fun (s : State) (q : QueueId) (j : Job) (d : Decision) =>
        s.oldestJob q = some j ∧ j.decision = some d ∧ s.jobState j = 5
      let place := fun (s : State) (q : QueueId) => s.regN .wqCompBase q.val + (s.wq q).compWrite.toNat % 2 ^ s.wqCompLog q * 32
      let bytes := fun (s : State) (q : QueueId) (j : Job) (d : Decision) => recordBytes j d s.hub.epoch (s.wq q).compWrite.toNat (s.wqCompLog q)
      let written := fun (s t : State) (q : QueueId) (j : Job) (d : Decision) =>
        (t.wq q).compWrite = (s.wq q).compWrite + 1 ∧ (t.wq q).recordBlocked = false ∧
        t.reg .wqRecorded q.val = s.reg .wqRecorded q.val + 1 ∧ t.mem.readBytes (place s q) 32 = bytes s q j d ∧
        (∀ k ∈ t.hub.jobs, k ∈ s.hub.jobs ∧ ¬(k.queue = q ∧ k.seq = j.seq)) ∧ t.sec = s.sec ∧ t.ports = s.ports
      ∃ (s : State) (q : QueueId) (j : Job) (d : Decision), due s q j d ∧
      (s.wq q).recordBlocked = true ∧
      10000 ≤ (s.now - (s.wq q).triedAt).toNat ∧
      s.regN .wqCompBase q.val % 64 = 0 ∧
      place s q + 32 ≤ 2 ^ 37 ∧
      s.checkDram (.job j.claim) .write (place s q) = none) ∧
    (
      let due := fun (s : State) (q : QueueId) (j : Job) (d : Decision) =>
        s.oldestJob q = some j ∧ j.decision = some d ∧ s.jobState j = 5
      let place := fun (s : State) (q : QueueId) => s.regN .wqCompBase q.val + (s.wq q).compWrite.toNat % 2 ^ s.wqCompLog q * 32
      let bytes := fun (s : State) (q : QueueId) (j : Job) (d : Decision) => recordBytes j d s.hub.epoch (s.wq q).compWrite.toNat (s.wqCompLog q)
      let written := fun (s t : State) (q : QueueId) (j : Job) (d : Decision) =>
        (t.wq q).compWrite = (s.wq q).compWrite + 1 ∧ (t.wq q).recordBlocked = false ∧
        t.reg .wqRecorded q.val = s.reg .wqRecorded q.val + 1 ∧ t.mem.readBytes (place s q) 32 = bytes s q j d ∧
        (∀ k ∈ t.hub.jobs, k ∈ s.hub.jobs ∧ ¬(k.queue = q ∧ k.seq = j.seq)) ∧ t.sec = s.sec ∧ t.ports = s.ports
      ∃ (s : State) (q : QueueId) (j : Job) (d : Decision) (f : MemFail), due s q j d ∧
      (s.wq q).recordBlocked = false ∧
      s.regN .wqCompBase q.val % 64 = 0 ∧
      place s q + 32 ≤ 2 ^ 37 ∧
      s.checkDram (.job j.claim) .write (place s q) = some f) :=
  ⟨(by
      dsimp only
      exact ⟨(withJobs [{ aJob with decision := some { status := 3, time := 5 } }, { aJob with seq := 10 }] hubDram), 5, ({ aJob with decision := some { status := 3, time := 5 } }), ({ status := 3, time := 5 }),
     by decide +kernel, by decide +kernel, by decide +kernel, by decide +kernel, by decide +kernel⟩),
   (by
      dsimp only
      exact ⟨(withJobs [{ aJob with decision := some { status := 3, time := 5 } }] { hubDram with hub := { hubDram.hub with queues := upd hubDram.hub.queues 5 fun w => { w with recordBlocked := true } } }), 5, ({ aJob with decision := some { status := 3, time := 5 } }), ({ status := 3, time := 5 }),
     by decide +kernel, by decide +kernel, by decide +kernel, by decide +kernel, by decide +kernel, by decide +kernel⟩),
   (by
      dsimp only
      exact ⟨(withJobs [{ aJob with decision := some { status := 3, time := 5 } }] { hubDram with seams := op.seams.set 3 { state := .training }, sec := { op.sec with segs := [(1, { lost := false, perm := 1 })] } }), 5, ({ aJob with decision := some { status := 3, time := 5 } }), ({ status := 3, time := 5 }), .access,
     by decide +kernel, by decide +kernel, by decide +kernel, by decide +kernel, by decide +kernel⟩)⟩


theorem witness_HandleQueuesBindUnbindAndPost :
    (∃ (s : State) (r : Requester) (b : BoughId) (q : HqPos), Safety.Writes s r .hqBind b.val q.val 0 1 ∧
      (s.hq b q).bound = false ∧
      s.hqBindCodes b q = []) ∧
    (∃ (s : State) (r : Requester) (b : BoughId) (q : HqPos), Safety.Writes s r .hqBind b.val q.val 0 0 ∧
      (s.hq b q).filling = [] ∧
      (s.hq b q).held = []) ∧
    (∃ (s : State) (r : Requester) (b : BoughId) (q : HqPos) (v : Word), Safety.Writes s r .hqPost b.val q.val 0 v ∧
      bits v 63 60 = 0 ∧
      bits v 31 6 = 0 ∧
      (s.hq b q).bound = true ∧
      (s.hq b q).free.contains (handleIndex v) = true ∧
      s.boughs[b].state.inReset = false ∧
      (s.claimState (s.hq b q).claim).confidential = false) :=
  ⟨⟨(regs op [(Ob.key .hqPoolBase 2 31 0, 0x4200000000), (Ob.key .hqPoolShape 2 31 0, 0x200000800)]), .burlyn, 2, 31,
     by decide +kernel, by decide +kernel, by decide +kernel⟩,
   ⟨(withHandles [0x41] op), .burlyn, 0, 3,
     by decide +kernel, by decide +kernel, by decide +kernel⟩,
   ⟨(withHandles [0x41] op), .host, 0, 3, 0x0FFFFFFF00000001,
     by decide +kernel, by decide +kernel, by decide +kernel, by decide +kernel, by decide +kernel, by decide +kernel, by decide +kernel⟩⟩


theorem witness_EventCountersAndClearObjects :
    (∃ (s : State) (r : Requester) (b : BoughId) (c : BitVec 10) (v : Word), Safety.Writes s r .eventCounter b.val (c.toNat / 256) (c.toNat % 256) v) ∧
    (∃ (s : State) (r : Requester) (b : BoughId) (c : BitVec 10) (v : Word), Safety.Writes s r .eventCounter b.val (c.toNat / 256) (c.toNat % 256) v) ∧
    (∃ (s : State) (r : Requester) (g : CounterGroup), Safety.Writes s r (groupClear g).1 (groupClear g).2.1 (groupClear g).2.2 0 1) ∧
    (∃ (s : State) (r : Requester) (g : CounterGroup), Safety.Writes s r (groupClear g).1 (groupClear g).2.1 (groupClear g).2.2 0 1) ∧
    (∃ (s : State) (r : Requester) (g : CounterGroup), Safety.Writes s r (groupClear g).1 (groupClear g).2.1 (groupClear g).2.2 0 0) ∧
    (∃ (s : State) (r : Requester) (g : CounterGroup), Safety.Writes s r (groupClear g).1 (groupClear g).2.1 (groupClear g).2.2 0 0) ∧
    (∃ (s : State) (r : Requester) (b : BoughId) (work : Bool) (v : Word), Safety.Writes s r (if work then .wcBlockClaims else .ecBlockClaims) b.val 0 0 v ∧
      (∀ k, k < 16 → s.blockClaim work b k ≠ bits v (4 * k + 3) (4 * k) → (∀ x ∈ s.hub.bundles, (if work then x.wcBlocks else x.ecBlocks).contains (b, k) = false) ∧ (s.claimState (Fin.ofNat 16 (s.blockClaim work b k))).confidential = false ∧ (s.claimState (Fin.ofNat 16 (bits v (4 * k + 3) (4 * k)))).confidential = false)) ∧
    (∃ (s : State) (r : Requester) (b : BoughId) (work : Bool) (v : Word), Safety.Writes s r (if work then .wcBlockClaims else .ecBlockClaims) b.val 0 0 v ∧
      (∀ k, k < 16 → s.blockClaim work b k ≠ bits v (4 * k + 3) (4 * k) → (∀ x ∈ s.hub.bundles, (if work then x.wcBlocks else x.ecBlocks).contains (b, k) = false) ∧ (s.claimState (Fin.ofNat 16 (s.blockClaim work b k))).confidential = false ∧ (s.claimState (Fin.ofNat 16 (bits v (4 * k + 3) (4 * k)))).confidential = false)) :=
  ⟨⟨op, .host, 0, 0x3FF, 0x12345678,
     by decide +kernel⟩,
   ⟨op, .host, 3, 0, 1,
     by decide +kernel⟩,
   ⟨(regs op ((groupObs (.branch 3 5)).map fun x => (Ob.key x.1 x.2.1 x.2.2 0, 7))), .host, (.branch 3 5),
     by decide +kernel⟩,
   ⟨(regs op ((groupObs (.slice 7)).map fun x => (Ob.key x.1 x.2.1 x.2.2 0, 7))), .host, (.slice 7),
     by decide +kernel⟩,
   ⟨(regs op ((groupObs (.branch 3 5)).map fun x => (Ob.key x.1 x.2.1 x.2.2 0, 7))), .host, (.branch 3 5),
     by decide +kernel⟩,
   ⟨(regs op ((groupObs (.slice 7)).map fun x => (Ob.key x.1 x.2.1 x.2.2 0, 7))), .host, (.slice 7),
     by decide +kernel⟩,
   ⟨({ hubUp with sec := { hubUp.sec with claims := hubUp.sec.claims.set 3 { state := .opened } } }), .host, 1, true, 0x3000000000000003,
     by decide +kernel, by decide +kernel⟩,
   ⟨op, .burlyn, 1, false, 0x3000000000000003,
     by decide +kernel, by decide +kernel⟩⟩


theorem witness_BundlesLoadAndUnload :
    (∃ (s : State) (r : Requester) (v : Word), Safety.Writes s r .loadRequest 0 0 0 v ∧
      s.hub.loadState ≠ 1 ∧
      s.ready rWorkHub = true) ∧
    (∃ (s : State) (r : Requester) (v : Word), Safety.Writes s r .loadRequest 0 0 0 v ∧
      s.hub.loadState ≠ 1 ∧
      s.ready rWorkHub = true) ∧
    (∃ (s : State) (l : LoadRun), s.hub.load = some l) ∧
    (∃ (s : State) (l : LoadRun), s.hub.load = some l) ∧
    (∃ (s : State) (l : LoadRun) (x : Bundle), s.hub.load = some l ∧
      (s.runLoad l).1 = .ok x) ∧
    (∃ (s : State) (l : LoadRun) (f : VFail), s.hub.load = some l ∧
      (s.runLoad l).1 = .error f) ∧
    (∃ (s : State) (l : LoadRun) (f : VFail), s.hub.load = some l ∧
      (s.runLoad l).1 = .error f) ∧
    (∃ (s : State) (r : Requester) (v : Word) (b : Bundle), Safety.Writes s r .unload 0 0 0 v ∧
      v.toNat < 64 ∧
      s.bundle? (Fin.ofNat 64 v.toNat) = some b ∧
      (∀ j ∈ s.hub.jobs, j.handle ≠ b.handle)) :=
  ⟨⟨op, .host, 0x200000,
     by decide +kernel, by decide +kernel, by decide +kernel⟩,
   ⟨(wr op 0x200000 (leBytes 64 1)), .pcie, 0x200000,
     by decide +kernel, by decide +kernel, by decide +kernel⟩,
   ⟨({ op with hub := { op.hub with loadState := 1, load := some { record := 0x200000, claim := 0, image := 0, size := 0, placeSize := 0, place := 0, regionTable := 0, regionCount := 0, locks := [], code := 5 } } }), ({ record := 0x200000, claim := 0, image := 0, size := 0, placeSize := 0, place := 0, regionTable := 0, regionCount := 0, locks := [], code := 5 }),
     by decide +kernel⟩,
   ⟨({ op with hub := { op.hub with loadState := 1, load := some { record := 0x200000, claim := 0, image := 0, size := 0, placeSize := 0, place := 0, regionTable := 0, regionCount := 0, locks := [], code := 0 } } }), ({ record := 0x200000, claim := 0, image := 0, size := 0, placeSize := 0, place := 0, regionTable := 0, regionCount := 0, locks := [], code := 0 }),
     by decide +kernel⟩,
   ⟨(loading nopImage), (theLoad (loading nopImage)), (theBundle (loading nopImage)),
     by decide +kernel, by rfl⟩,
   ⟨(loading (List.replicate 768 0)), (theLoad (loading (List.replicate 768 0))), (theRefusal (loading (List.replicate 768 0))),
     by decide +kernel, by rfl⟩,
   ⟨(loading (0x54 :: nopImage.tail.set 511 2)), (theLoad (loading (0x54 :: nopImage.tail.set 511 2))), (theRefusal (loading (0x54 :: nopImage.tail.set 511 2))),
     by decide +kernel, by rfl⟩,
   ⟨hubUp, .host, 2, (bundle [0] [] 0 0),
     by decide +kernel, by decide +kernel, by decide +kernel, by decide +kernel⟩⟩


theorem witness_DescriptorStarts :
    (∃ (s : State) (j : Job) (x : JDesc) (c : Nat) (p : Place), (s.candidates.findSome? fun (j, x, c) => ((s.places (dTarget (s.descBits j x))).find? (s.capacity (s.descBits j x))).map fun p => (j, x, c, p)) = some (j, x, c, p) ∧
      (s.jobProg j).isSome = true ∧
      (dOpcode (s.descBits j x) ≠ opIndirect ∨ x.key.inst = none)) ∧
    (∃ (s : State) (j : Job) (x : JDesc) (c : Nat) (p : Place), (s.candidates.findSome? fun (j, x, c) => ((s.places (dTarget (s.descBits j x))).find? (s.capacity (s.descBits j x))).map fun p => (j, x, c, p)) = some (j, x, c, p) ∧
      (s.jobProg j).isSome = true ∧
      (dOpcode (s.descBits j x) ≠ opIndirect ∨ x.key.inst = none)) :=
  ⟨⟨(withJobs [{ aJob with descs := [{ key := ⟨0, none⟩, phase := .startable 4 1 }] }] { hubUp with hub := { hubUp.hub with bundles := [bundle [mmDesc] [] 0 0] } }), ({ aJob with descs := [{ key := ⟨0, none⟩, phase := .startable 4 1 }] }), ({ key := ⟨0, none⟩, phase := .startable 4 1 }), 1, (⟨[0], none, none⟩),
     by decide +kernel, by decide +kernel, by decide +kernel⟩,
   ⟨(withJobs [{ aJob with descs := [{ key := ⟨0, none⟩, phase := .startable 4 1 }] }] hubUp), ({ aJob with descs := [{ key := ⟨0, none⟩, phase := .startable 4 1 }] }), ({ key := ⟨0, none⟩, phase := .startable 4 1 }), 1, (⟨[0, 1, 2, 3], none, none⟩),
     by decide +kernel, by decide +kernel, by decide +kernel⟩⟩


theorem witness_BranchesJoinAndClaimTiles :
    (∃ (s : State) (b : BoughId) (p : BranchPos) (r : Run) (job : Job), p.val < branchesOf s.grade ∧
      (s.hub.runs.find? fun r => r.branch.isNone && (isLeafOp (dOpcode r.desc) || isVuOp (dOpcode r.desc)) && !r.stopped && !r.ready && r.posted.contains b && !r.joined.contains (b, p) && s.enginesFree r.desc (claimantsOn r.desc none b p) b p) = some r ∧
      s.job? r.queue r.seq = some job ∧
      (r.shares.any fun h => h.bough = b) = true) ∧
    (∃ (s : State) (b : BoughId) (p : BranchPos) (r : Run), p.val < branchesOf s.grade ∧
      (s.hub.runs.find? fun r => r.branch.isNone && (isLeafOp (dOpcode r.desc) || isVuOp (dOpcode r.desc)) && !r.stopped && !r.ready && r.posted.contains b && !r.joined.contains (b, p) && s.enginesFree r.desc (claimantsOn r.desc none b p) b p) = some r ∧
      (r.shares.any fun h => h.bough = b) = false ∧
      s.confidentialOpen = false) ∧
    (∃ (s : State) (b : BoughId) (c : BitVec 8) (r : Run) (h : Share), s.ctrHolder b c.toNat = some r ∧
      (r.shares.find? fun h => h.bough = b) = some h ∧
      h.seeked = false) ∧
    (∃ (s : State) (b : BoughId) (c : BitVec 8) (r : Run) (h : Share), s.ctrHolder b c.toNat = some r ∧
      (r.shares.find? fun h => h.bough = b) = some h ∧
      h.seeked = false) ∧
    (∃ (s : State) (w : Claimant) (r : Run) (u : RunUnit) (h : Share), s.unitOf w = some (r, u) ∧
      u.sentinel = false ∧
      r.ready = false ∧
      r.stopped = false ∧
      u.running.isSome = true ∧
      u.held = none ∧
      (r.shares.find? fun h => h.bough = claimantBough w) = some h ∧
      (r.shares.any fun h => h.bough = claimantBough w && !h.seeked) = false ∧
      (s.ctr (claimantBough w) (dWorkCounter r.desc)).next < h.hi) ∧
    (∃ (s : State) (w : Claimant) (r : Run) (u : RunUnit) (h : Share), s.unitOf w = some (r, u) ∧
      u.sentinel = false ∧
      r.ready = false ∧
      r.stopped = false ∧
      u.running = none ∧
      (r.shares.find? fun h => h.bough = claimantBough w) = some h ∧
      (r.shares.any fun h => h.bough = claimantBough w && !h.seeked) = false ∧
      (s.ctr (claimantBough w) (dWorkCounter r.desc)).next < h.hi) ∧
    (∃ (s : State) (w : Claimant) (r : Run) (u : RunUnit), s.unitOf w = some (r, u) ∧
      u.sentinel = false ∧
      r.ready = false ∧
      r.stopped = false ∧
      (u.running.isSome && u.held.isSome) = false ∧
      (r.shares.any fun h => h.bough = claimantBough w && !h.seeked) = true) ∧
    (∃ (s : State) (w : Claimant) (r : Run) (u : RunUnit), s.unitOf w = some (r, u) ∧
      u.sentinel = false ∧
      r.ready = false ∧
      (u.running.isSome && u.held.isSome) = false ∧
      (!r.stopped && r.shares.any fun h => h.bough = claimantBough w && !h.seeked) = false ∧
      ((r.shares.find? fun h => h.bough = claimantBough w).all fun h => r.stopped || h.hi ≤ (s.ctr (claimantBough w) (dWorkCounter r.desc)).next) = true ∧
      s.confidentialOpen = false) ∧
    (∃ (s : State) (w : Claimant) (r : Run) (u : RunUnit), s.unitOf w = some (r, u) ∧
      u.sentinel = false ∧
      r.ready = false ∧
      (u.running.isSome && u.held.isSome) = false ∧
      (!r.stopped && r.shares.any fun h => h.bough = claimantBough w && !h.seeked) = false ∧
      ((r.shares.find? fun h => h.bough = claimantBough w).all fun h => r.stopped || h.hi ≤ (s.ctr (claimantBough w) (dWorkCounter r.desc)).next) = true ∧
      s.confidentialOpen = false) :=
  ⟨⟨(running [mmRun] hubUp), 0, 5, mmRun, ({ aJob with started := true }),
     by decide +kernel, by decide +kernel, by decide +kernel, by decide +kernel⟩,
   ⟨(running [{ mmRun with shares := [] }] hubUp), 0, 5, ({ mmRun with shares := [] }),
     by decide +kernel, by decide +kernel, by decide +kernel, by decide +kernel⟩,
   ⟨(running [mmRun] hubUp), 0, 0, mmRun, ({ bough := 0, lo := 0, hi := 3 }),
     by decide +kernel, by decide +kernel, by decide +kernel⟩,
   ⟨(running [{ mmRun with shares := [{ bough := 0, lo := 0, hi := 3, claims := [.leafGroup 0 0 0] }], units := [{ mmUnit with running := none }] }] hubUp), 0, 0, ({ mmRun with shares := [{ bough := 0, lo := 0, hi := 3, claims := [.leafGroup 0 0 0] }], units := [{ mmUnit with running := none }] }), ({ bough := 0, lo := 0, hi := 3, claims := [.leafGroup 0 0 0] }),
     by decide +kernel, by decide +kernel, by decide +kernel⟩,
   ⟨(running [{ mmRun with shares := [{ bough := 0, lo := 0, hi := 3, seeked := true }], units := [mmUnit] }] hubUp), (.leafGroup 0 0 0), ({ mmRun with shares := [{ bough := 0, lo := 0, hi := 3, seeked := true }], units := [mmUnit] }), mmUnit, ({ bough := 0, lo := 0, hi := 3, seeked := true }),
     by decide +kernel, by decide +kernel, by decide +kernel, by decide +kernel, by decide +kernel, by decide +kernel, by decide +kernel, by decide +kernel, by decide +kernel⟩,
   ⟨(running [{ mmRun with shares := [{ bough := 0, lo := 0, hi := 3, seeked := true }], units := [{ mmUnit with running := none }] }] hubUp), (.leafGroup 0 0 0), ({ mmRun with shares := [{ bough := 0, lo := 0, hi := 3, seeked := true }], units := [{ mmUnit with running := none }] }), ({ mmUnit with running := none }), ({ bough := 0, lo := 0, hi := 3, seeked := true }),
     by decide +kernel, by decide +kernel, by decide +kernel, by decide +kernel, by decide +kernel, by decide +kernel, by decide +kernel, by decide +kernel⟩,
   ⟨(running [{ mmRun with shares := [{ bough := 0, lo := 0, hi := 3 }], units := [{ mmUnit with running := none }] }] hubUp), (.leafGroup 0 0 0), ({ mmRun with shares := [{ bough := 0, lo := 0, hi := 3 }], units := [{ mmUnit with running := none }] }), ({ mmUnit with running := none }),
     by decide +kernel, by decide +kernel, by decide +kernel, by decide +kernel, by decide +kernel, by decide +kernel⟩,
   ⟨(running [{ mmRun with shares := [{ bough := 0, lo := 0, hi := 0, seeked := true }], units := [mmUnit] }] hubUp), (.leafGroup 0 0 0), ({ mmRun with shares := [{ bough := 0, lo := 0, hi := 0, seeked := true }], units := [mmUnit] }), mmUnit,
     by decide +kernel, by decide +kernel, by decide +kernel, by decide +kernel, by decide +kernel, by decide +kernel, by decide +kernel⟩,
   ⟨(running [{ mmRun with shares := [{ bough := 0, lo := 0, hi := 3 }], units := [mmUnit], stopped := true }] hubUp), (.leafGroup 0 0 0), ({ mmRun with shares := [{ bough := 0, lo := 0, hi := 3 }], units := [mmUnit], stopped := true }), mmUnit,
     by decide +kernel, by decide +kernel, by decide +kernel, by decide +kernel, by decide +kernel, by decide +kernel, by decide +kernel⟩⟩


theorem witness_LeavesStepOrFreeze_0 : (∃ (s : State) (v : State) (b : BoughId) (p : BranchPos) (l : LeafPos) (ws : List PortRequest) (r : Run) (u : RunUnit) (g : List LeafPos) (k : Nat) (y : LeafSet) (z : LeafSet) (fl : NumFlags) (esc : Nat), v = s.bankRound b p ws ∧
      v.leafGroupOf b p l = some (r, u, g) ∧
      u.running = some k ∧
      (v.leaf b p l).step < r.tileSteps k ∧
      v.leafFreeze r u b p l k g = none ∧
      dOpcode r.desc ≠ opAttention ∧
      ((v.leaf b p l).fill = some y ∨ ((v.leaf b p l).fill = none ∧ v.beginSet r u l k (r.stepPlan k (v.leaf b p l).step).pos = .ok y)) ∧
      v.stepSet r u l k (v.leaf b p l).step y = .ok (z, fl, esc) ∧
      v.confidentialOpen = false) :=
  ⟨(withLeaf 0 { fill := some { tile := 0, pos := 0, acc := [] } } (running [{ mmRun with shares := [{ bough := 0, lo := 0, hi := 3, seeked := true }], units := [mmUnit] }] hubUp)), ((withLeaf 0 { fill := some { tile := 0, pos := 0, acc := [] } } (running [{ mmRun with shares := [{ bough := 0, lo := 0, hi := 3, seeked := true }], units := [mmUnit] }] hubUp)).bankRound 0 0 []), 0, 0, 0, ([]), ({ mmRun with shares := [{ bough := 0, lo := 0, hi := 3, seeked := true }], units := [mmUnit] }), mmUnit, ([0]), 0, ({ tile := 0, pos := 0, acc := [] }), ((okOr ({ tile := 0, pos := 0, acc := [] }, 0, 0) (((withLeaf 0 { fill := some { tile := 0, pos := 0, acc := [] } } (running [{ mmRun with shares := [{ bough := 0, lo := 0, hi := 3, seeked := true }], units := [mmUnit] }] hubUp)).bankRound 0 0 []).stepSet ({ mmRun with shares := [{ bough := 0, lo := 0, hi := 3, seeked := true }], units := [mmUnit] }) mmUnit 0 0 0 ({ tile := 0, pos := 0, acc := [] }))).1), ((okOr ({ tile := 0, pos := 0, acc := [] }, 0, 0) (((withLeaf 0 { fill := some { tile := 0, pos := 0, acc := [] } } (running [{ mmRun with shares := [{ bough := 0, lo := 0, hi := 3, seeked := true }], units := [mmUnit] }] hubUp)).bankRound 0 0 []).stepSet ({ mmRun with shares := [{ bough := 0, lo := 0, hi := 3, seeked := true }], units := [mmUnit] }) mmUnit 0 0 0 ({ tile := 0, pos := 0, acc := [] }))).2.1), ((okOr ({ tile := 0, pos := 0, acc := [] }, 0, 0) (((withLeaf 0 { fill := some { tile := 0, pos := 0, acc := [] } } (running [{ mmRun with shares := [{ bough := 0, lo := 0, hi := 3, seeked := true }], units := [mmUnit] }] hubUp)).bankRound 0 0 []).stepSet ({ mmRun with shares := [{ bough := 0, lo := 0, hi := 3, seeked := true }], units := [mmUnit] }) mmUnit 0 0 0 ({ tile := 0, pos := 0, acc := [] }))).2.2),
     by decide +kernel, by decide +kernel, by decide +kernel, by decide +kernel, by decide +kernel, by decide +kernel, .inl (by decide +kernel), ok_okOr (d := ({ tile := 0, pos := 0, acc := [] }, 0, 0)) (by decide +kernel), by decide +kernel⟩

theorem witness_LeavesStepOrFreeze_1 : (∃ (s : State) (v : State) (b : BoughId) (p : BranchPos) (l : LeafPos) (ws : List PortRequest) (r : Run) (u : RunUnit) (g : List LeafPos) (k : Nat) (y : LeafSet) (z : LeafSet) (fl : NumFlags) (esc : Nat), v = s.bankRound b p ws ∧
      v.leafGroupOf b p l = some (r, u, g) ∧
      u.running = some k ∧
      (v.leaf b p l).step < r.tileSteps k ∧
      v.leafFreeze r u b p l k g = none ∧
      dOpcode r.desc ≠ opAttention ∧
      ((v.leaf b p l).fill = some y ∨ ((v.leaf b p l).fill = none ∧ v.beginSet r u l k (r.stepPlan k (v.leaf b p l).step).pos = .ok y)) ∧
      v.stepSet r u l k (v.leaf b p l).step y = .ok (z, fl, esc) ∧
      v.confidentialOpen = false) :=
  ⟨(withLeaf 0 {} (running [{ mmRun with shares := [{ bough := 0, lo := 0, hi := 3, seeked := true }], units := [mmUnit] }] hubUp)), ((withLeaf 0 {} (running [{ mmRun with shares := [{ bough := 0, lo := 0, hi := 3, seeked := true }], units := [mmUnit] }] hubUp)).bankRound 0 0 []), 0, 0, 0, ([]), ({ mmRun with shares := [{ bough := 0, lo := 0, hi := 3, seeked := true }], units := [mmUnit] }), mmUnit, ([0]), 0, (okOr { tile := 0, pos := 0, acc := [] } (((withLeaf 0 {} (running [{ mmRun with shares := [{ bough := 0, lo := 0, hi := 3, seeked := true }], units := [mmUnit] }] hubUp)).bankRound 0 0 []).beginSet ({ mmRun with shares := [{ bough := 0, lo := 0, hi := 3, seeked := true }], units := [mmUnit] }) mmUnit 0 0 0)), ((okOr (okOr { tile := 0, pos := 0, acc := [] } (((withLeaf 0 {} (running [{ mmRun with shares := [{ bough := 0, lo := 0, hi := 3, seeked := true }], units := [mmUnit] }] hubUp)).bankRound 0 0 []).beginSet ({ mmRun with shares := [{ bough := 0, lo := 0, hi := 3, seeked := true }], units := [mmUnit] }) mmUnit 0 0 0), 0, 0) (((withLeaf 0 {} (running [{ mmRun with shares := [{ bough := 0, lo := 0, hi := 3, seeked := true }], units := [mmUnit] }] hubUp)).bankRound 0 0 []).stepSet ({ mmRun with shares := [{ bough := 0, lo := 0, hi := 3, seeked := true }], units := [mmUnit] }) mmUnit 0 0 0 (okOr { tile := 0, pos := 0, acc := [] } (((withLeaf 0 {} (running [{ mmRun with shares := [{ bough := 0, lo := 0, hi := 3, seeked := true }], units := [mmUnit] }] hubUp)).bankRound 0 0 []).beginSet ({ mmRun with shares := [{ bough := 0, lo := 0, hi := 3, seeked := true }], units := [mmUnit] }) mmUnit 0 0 0)))).1), ((okOr (okOr { tile := 0, pos := 0, acc := [] } (((withLeaf 0 {} (running [{ mmRun with shares := [{ bough := 0, lo := 0, hi := 3, seeked := true }], units := [mmUnit] }] hubUp)).bankRound 0 0 []).beginSet ({ mmRun with shares := [{ bough := 0, lo := 0, hi := 3, seeked := true }], units := [mmUnit] }) mmUnit 0 0 0), 0, 0) (((withLeaf 0 {} (running [{ mmRun with shares := [{ bough := 0, lo := 0, hi := 3, seeked := true }], units := [mmUnit] }] hubUp)).bankRound 0 0 []).stepSet ({ mmRun with shares := [{ bough := 0, lo := 0, hi := 3, seeked := true }], units := [mmUnit] }) mmUnit 0 0 0 (okOr { tile := 0, pos := 0, acc := [] } (((withLeaf 0 {} (running [{ mmRun with shares := [{ bough := 0, lo := 0, hi := 3, seeked := true }], units := [mmUnit] }] hubUp)).bankRound 0 0 []).beginSet ({ mmRun with shares := [{ bough := 0, lo := 0, hi := 3, seeked := true }], units := [mmUnit] }) mmUnit 0 0 0)))).2.1), ((okOr (okOr { tile := 0, pos := 0, acc := [] } (((withLeaf 0 {} (running [{ mmRun with shares := [{ bough := 0, lo := 0, hi := 3, seeked := true }], units := [mmUnit] }] hubUp)).bankRound 0 0 []).beginSet ({ mmRun with shares := [{ bough := 0, lo := 0, hi := 3, seeked := true }], units := [mmUnit] }) mmUnit 0 0 0), 0, 0) (((withLeaf 0 {} (running [{ mmRun with shares := [{ bough := 0, lo := 0, hi := 3, seeked := true }], units := [mmUnit] }] hubUp)).bankRound 0 0 []).stepSet ({ mmRun with shares := [{ bough := 0, lo := 0, hi := 3, seeked := true }], units := [mmUnit] }) mmUnit 0 0 0 (okOr { tile := 0, pos := 0, acc := [] } (((withLeaf 0 {} (running [{ mmRun with shares := [{ bough := 0, lo := 0, hi := 3, seeked := true }], units := [mmUnit] }] hubUp)).bankRound 0 0 []).beginSet ({ mmRun with shares := [{ bough := 0, lo := 0, hi := 3, seeked := true }], units := [mmUnit] }) mmUnit 0 0 0)))).2.2),
     by decide +kernel, by decide +kernel, by decide +kernel, by decide +kernel, by decide +kernel, by decide +kernel, .inr ⟨by decide +kernel, ok_okOr (by decide +kernel)⟩, ok_okOr (d := (okOr { tile := 0, pos := 0, acc := [] } (((withLeaf 0 {} (running [{ mmRun with shares := [{ bough := 0, lo := 0, hi := 3, seeked := true }], units := [mmUnit] }] hubUp)).bankRound 0 0 []).beginSet ({ mmRun with shares := [{ bough := 0, lo := 0, hi := 3, seeked := true }], units := [mmUnit] }) mmUnit 0 0 0), 0, 0)) (by decide +kernel), by decide +kernel⟩

theorem witness_LeavesStepOrFreeze_2 : (∃ (s : State) (v : State) (b : BoughId) (p : BranchPos) (l : LeafPos) (ws : List PortRequest) (r : Run) (u : RunUnit) (g : List LeafPos) (k : Nat) (z : LeafSet), v = s.bankRound b p ws ∧
      v.leafGroupOf b p l = some (r, u, g) ∧
      u.running = some k ∧
      (v.leaf b p l).step < r.tileSteps k ∧
      v.leafFreeze r u b p l k g = none ∧
      dOpcode r.desc = opAttention ∧
      v.confidentialOpen = false ∧
      ((v.leaf b p l).step + 1 = r.tileSteps k → v.attentionSet r u l k = .ok z)) :=
  ⟨(withLeaf 0 { step := 0 } (running [attnRun] hubUp)), ((withLeaf 0 { step := 0 } (running [attnRun] hubUp)).bankRound 0 0 []), 0, 0, 0, ([]), attnRun, mmUnit, ([0]), 0, (okOr { tile := 0, pos := 0, acc := [] } (((withLeaf 0 { step := 0 } (running [attnRun] hubUp)).bankRound 0 0 []).attentionSet attnRun mmUnit 0 0)),
     by decide +kernel, by decide +kernel, by decide +kernel, by decide +kernel, by decide +kernel, by decide +kernel, by decide +kernel, fun h => absurd h (by decide +kernel)⟩

theorem witness_LeavesStepOrFreeze_3 : (∃ (s : State) (v : State) (b : BoughId) (p : BranchPos) (l : LeafPos) (ws : List PortRequest) (r : Run) (u : RunUnit) (g : List LeafPos) (k : Nat) (z : LeafSet), v = s.bankRound b p ws ∧
      v.leafGroupOf b p l = some (r, u, g) ∧
      u.running = some k ∧
      (v.leaf b p l).step < r.tileSteps k ∧
      v.leafFreeze r u b p l k g = none ∧
      dOpcode r.desc = opAttention ∧
      v.confidentialOpen = false ∧
      ((v.leaf b p l).step + 1 = r.tileSteps k → v.attentionSet r u l k = .ok z)) :=
  ⟨(withLeaf 0 { step := 259 } (running [attnRun] hubUp)), ((withLeaf 0 { step := 259 } (running [attnRun] hubUp)).bankRound 0 0 []), 0, 0, 0, ([]), attnRun, mmUnit, ([0]), 0, (okOr { tile := 0, pos := 0, acc := [] } (((withLeaf 0 { step := 259 } (running [attnRun] hubUp)).bankRound 0 0 []).attentionSet attnRun mmUnit 0 0)),
     by decide +kernel, by decide +kernel, by decide +kernel, by decide +kernel, by decide +kernel, by decide +kernel, by decide +kernel, fun _ => ok_okOr (by decide +kernel)⟩

theorem witness_LeavesStepOrFreeze_4 : (∃ (s : State) (v : State) (b : BoughId) (p : BranchPos) (l : LeafPos) (e : WordError) (ws : List PortRequest) (r : Run) (u : RunUnit) (g : List LeafPos) (k : Nat) (f : Freeze), v = s.bankRound b p ws ∧
      v.leafGroupOf b p l = some (r, u, g) ∧
      u.running = some k ∧
      (v.leaf b p l).step < r.tileSteps k ∧
      v.leafFreeze r u b p l k g = some f ∧
      v.confidentialOpen = false) :=
  ⟨(withLeaf 0 { drain := [{ tile := 0, pos := 0, acc := [] }, { tile := 0, pos := 0, acc := [] }] } (running [{ mmRun with shares := [{ bough := 0, lo := 0, hi := 3, seeked := true }], units := [mmUnit] }] hubUp)), ((withLeaf 0 { drain := [{ tile := 0, pos := 0, acc := [] }, { tile := 0, pos := 0, acc := [] }] } (running [{ mmRun with shares := [{ bough := 0, lo := 0, hi := 3, seeked := true }], units := [mmUnit] }] hubUp)).bankRound 0 0 []), 0, 0, 0, .clean, ([]), ({ mmRun with shares := [{ bough := 0, lo := 0, hi := 3, seeked := true }], units := [mmUnit] }), mmUnit, ([0]), 0, .drain,
     by decide +kernel, by decide +kernel, by decide +kernel, by decide +kernel, by decide +kernel, by decide +kernel⟩

theorem witness_LeavesStepOrFreeze_5 : (∃ (s : State) (v : State) (b : BoughId) (p : BranchPos) (l : LeafPos) (e : WordError) (ws : List PortRequest) (r : Run) (u : RunUnit) (g : List LeafPos) (k : Nat) (f : Freeze), v = s.bankRound b p ws ∧
      v.leafGroupOf b p l = some (r, u, g) ∧
      u.running = some k ∧
      (v.leaf b p l).step < r.tileSteps k ∧
      v.leafFreeze r u b p l k g = some f ∧
      v.confidentialOpen = false) :=
  ⟨(withLeaf 0 { owed := 3 } (running [{ mmRun with shares := [{ bough := 0, lo := 0, hi := 3, seeked := true }], units := [mmUnit] }] hubUp)), ((withLeaf 0 { owed := 3 } (running [{ mmRun with shares := [{ bough := 0, lo := 0, hi := 3, seeked := true }], units := [mmUnit] }] hubUp)).bankRound 0 0 [⟨.hauler, 0x40⟩, ⟨.feederA 3, 0x840⟩]), 0, 0, 0, (.uncorrectable 7), ([⟨.hauler, 0x40⟩, ⟨.feederA 3, 0x840⟩]), ({ mmRun with shares := [{ bough := 0, lo := 0, hi := 3, seeked := true }], units := [mmUnit] }), mmUnit, ([0]), 0, .escape,
     by decide +kernel, by decide +kernel, by decide +kernel, by decide +kernel, by decide +kernel, by decide +kernel⟩

theorem witness_LeavesStepOrFreeze_6 : (∃ (s : State) (v : State) (b : BoughId) (p : BranchPos) (l : LeafPos) (e : WordError) (ws : List PortRequest) (r : Run) (u : RunUnit) (g : List LeafPos) (k : Nat) (y : LeafSet), v = s.bankRound b p ws ∧
      v.leafGroupOf b p l = some (r, u, g) ∧
      u.running = some k ∧
      r.tileSteps k = 0 ∧
      (v.leaf b p l).step < (r.leafTile k).positions.length ∧
      (v.leaf b p l).drain.length < 2 ∧
      u.loaded r k l (v.leaf b p l).step = true ∧
      dOpcode r.desc ≠ opAttention ∧
      v.beginSet r u l k (v.leaf b p l).step = .ok y) :=
  ⟨(withLeaf 0 {} (running [emptyRun] hubUp)), ((withLeaf 0 {} (running [emptyRun] hubUp)).bankRound 0 0 []), 0, 0, 0, .clean, ([]), emptyRun, mmUnit, ([0]), 0, (okOr { tile := 0, pos := 0, acc := [] } (((withLeaf 0 {} (running [emptyRun] hubUp)).bankRound 0 0 []).beginSet (emptyRun) mmUnit 0 0 (((withLeaf 0 {} (running [emptyRun] hubUp)).bankRound 0 0 []).leaf 0 0 0).step)),
     by decide +kernel, by decide +kernel, by decide +kernel, by decide +kernel, by decide +kernel, by decide +kernel, by decide +kernel, by decide +kernel, ok_okOr (by decide +kernel)⟩


theorem witness_DrainsAndTilesFinish :
    (∃ (s : State) (b : BoughId) (p : BranchPos) (l : LeafPos) (r : Run) (u : RunUnit) (g : List LeafPos) (x : LeafSet) (rest : List LeafSet) (es : List (Coord × Nat)) (fl : NumFlags) (o : Tensor), s.leafGroupOf b p l = some (r, u, g) ∧
      (s.leaf b p l).drain = x :: rest ∧
      x.sent = false ∧
      s.setCodes r u l x = .ok (es, fl) ∧
      r.tensor (outSlot (dOpcode r.desc)) = some o ∧
      (u.rings.find? fun y => y.slot = outSlot (dOpcode r.desc) && y.out) = none ∧
      u.outHeld = true) ∧
    (∃ (s : State) (b : BoughId) (p : BranchPos) (l : LeafPos) (r : Run) (u : RunUnit) (g : List LeafPos) (x : LeafSet) (rest : List LeafSet) (es : List (Coord × Nat)) (fl : NumFlags) (o : Tensor) (y : SubRing), s.leafGroupOf b p l = some (r, u, g) ∧
      (s.leaf b p l).drain = x :: rest ∧
      x.sent = false ∧
      s.setCodes r u l x = .ok (es, fl) ∧
      r.tensor (outSlot (dOpcode r.desc)) = some o ∧
      (u.rings.find? fun y => y.slot = outSlot (dOpcode r.desc) && y.out) = some y ∧
      u.outFree (outSlot (dOpcode r.desc)) = true) ∧
    (∃ (s : State) (b : BoughId) (p : BranchPos) (l : LeafPos) (r : Run) (u : RunUnit) (g : List LeafPos) (x : LeafSet) (rest : List LeafSet) (es : List (Coord × Nat)) (fl : NumFlags) (o : Tensor) (y : SubRing), s.leafGroupOf b p l = some (r, u, g) ∧
      (s.leaf b p l).drain = x :: rest ∧
      x.sent = false ∧
      s.setCodes r u l x = .ok (es, fl) ∧
      r.tensor (outSlot (dOpcode r.desc)) = some o ∧
      (u.rings.find? fun y => y.slot = outSlot (dOpcode r.desc) && y.out) = some y ∧
      u.outFree (outSlot (dOpcode r.desc)) = true) ∧
    (∃ (s : State) (b : BoughId) (p : BranchPos) (l : LeafPos) (e : WordError) (r : Run) (u : RunUnit) (g : List LeafPos) (x : LeafSet) (rest : List LeafSet), s.leafGroupOf b p l = some (r, u, g) ∧
      (s.leaf b p l).drain = x :: rest ∧
      x.sent = true) ∧
    (∃ (s : State) (b : BoughId) (p : BranchPos) (l : LeafPos) (e : WordError) (r : Run) (u : RunUnit) (g : List LeafPos) (x : LeafSet) (rest : List LeafSet), s.leafGroupOf b p l = some (r, u, g) ∧
      (s.leaf b p l).drain = x :: rest ∧
      x.sent = true) ∧
    (∃ (s : State) (b : BoughId) (p : BranchPos) (j : LeafPos) (e : WordError) (r : Run) (u : RunUnit) (h : Share) (k : Nat) (rest : List Nat), (s.hub.runs.map (·.id)).Nodup ∧
      s.unitOf (.leafGroup b p j) = some (r, u) ∧
      u.finishing = k :: rest ∧
      ((groupLeaves (dGang r.desc) j.val).all fun l => ((s.leaf b p l).drain.all fun y => y.tile ≠ k) && ((s.leaf b p l).fill.all fun y => y.tile ≠ k)) = true ∧
      hasGrid (dOpcode r.desc) = true ∧
      (r.shares.filter fun h => h.bough = b) = [h] ∧
      h.done + 1 < h.hi - h.lo) ∧
    (∃ (s : State) (w : Claimant) (e : WordError) (r : Run) (u : RunUnit) (k : Nat), s.unitOf w = some (r, u) ∧
      u.running = some k ∧
      ((∃ b p, w = .vectorUnit b p) ∧ u.emitted = true ∧ u.outHeld = true ∨ (claimantQueue w).isSome = true ∧ u.todo = [] ∧ u.stage = none ∧ ((s.xfersOf r.id).any fun x => x.who = w) = false)) ∧
    (∃ (s : State) (w : Claimant) (e : WordError) (r : Run) (u : RunUnit) (k : Nat), s.unitOf w = some (r, u) ∧
      u.running = some k ∧
      ((∃ b p, w = .vectorUnit b p) ∧ u.emitted = true ∧ u.outHeld = true ∨ (claimantQueue w).isSome = true ∧ u.todo = [] ∧ u.stage = none ∧ ((s.xfersOf r.id).any fun x => x.who = w) = false)) ∧
    (∃ (s : State) (b : BoughId) (p : BranchPos) (r : Run) (u : RunUnit) (k : Nat) (outs : List (Nat × List (Coord × Nat))) (fl : NumFlags), s.unitOf (.vectorUnit b p) = some (r, u) ∧
      u.running = some k ∧
      u.emitted = false ∧
      u.fedWhole k = true ∧
      u.outsFree = true ∧
      s.vuCodes r u k = .ok (outs, fl)) :=
  ⟨⟨(withLeaf 0 { drain := [{ tile := 0, pos := 0, acc := [], sum := [7] }] } (running [{ mmRun with shares := [{ bough := 0, lo := 0, hi := 3, seeked := true }], units := [mmUnit] }] hubUp)), 0, 0, 0, ({ mmRun with shares := [{ bough := 0, lo := 0, hi := 3, seeked := true }], units := [mmUnit] }), mmUnit, ([0]), ({ tile := 0, pos := 0, acc := [], sum := [7] }), ([]), ([([0, 0, 0, 0, 0], 7)]), 0, (ten 0x2000 0xC 3),
     by decide +kernel, by decide +kernel, by decide +kernel, by rfl, by decide +kernel, by decide +kernel, by decide +kernel⟩,
   ⟨(withLeaf 0 { drain := [{ tile := 0, pos := 0, acc := [], sum := [7] }] } (running [{ mmRun with shares := [{ bough := 0, lo := 0, hi := 3, seeked := true }], units := [{ mmUnit with rings := [outRing []] }] }] hubUp)), 0, 0, 0, ({ mmRun with shares := [{ bough := 0, lo := 0, hi := 3, seeked := true }], units := [{ mmUnit with rings := [outRing []] }] }), ({ mmUnit with rings := [outRing []] }), ([0]), ({ tile := 0, pos := 0, acc := [], sum := [7] }), ([]), ([([0, 0, 0, 0, 0], 7)]), 0, (ten 0x2000 0xC 3), (outRing []),
     by decide +kernel, by decide +kernel, by decide +kernel, by rfl, by decide +kernel, by decide +kernel, by decide +kernel⟩,
   ⟨(withLeaf 0 { drain := [{ tile := 0, pos := 0, acc := [], sum := [7] }] } (running [{ mmRun with shares := [{ bough := 0, lo := 0, hi := 3, seeked := true }], units := [{ mmUnit with rings := [outRing [{ tile := 2, idx := 0, todo := [], out := 1, data := [] }]] }] }] hubUp)), 0, 0, 0, ({ mmRun with shares := [{ bough := 0, lo := 0, hi := 3, seeked := true }], units := [{ mmUnit with rings := [outRing [{ tile := 2, idx := 0, todo := [], out := 1, data := [] }]] }] }), ({ mmUnit with rings := [outRing [{ tile := 2, idx := 0, todo := [], out := 1, data := [] }]] }), ([0]), ({ tile := 0, pos := 0, acc := [], sum := [7] }), ([]), ([([0, 0, 0, 0, 0], 7)]), 0, (ten 0x2000 0xC 3), (outRing [{ tile := 2, idx := 0, todo := [], out := 1, data := [] }]),
     by decide +kernel, by decide +kernel, by decide +kernel, by rfl, by decide +kernel, by decide +kernel, by decide +kernel⟩,
   ⟨(withLeaf 0 { drain := [{ tile := 0, pos := 0, acc := [], sum := [7], sent := true }] } (running [{ mmRun with shares := [{ bough := 0, lo := 0, hi := 3, seeked := true }], units := [{ mmUnit with rings := [outRing ([])] }] }] hubUp)), 0, 0, 0, .clean, ({ mmRun with shares := [{ bough := 0, lo := 0, hi := 3, seeked := true }], units := [{ mmUnit with rings := [outRing ([])] }] }), ({ mmUnit with rings := [outRing ([])] }), ([0]), ({ tile := 0, pos := 0, acc := [], sum := [7], sent := true }), ([]),
     by decide +kernel, by decide +kernel, by decide +kernel⟩,
   ⟨(withLeaf 0 { drain := [{ tile := 0, pos := 0, acc := [], sum := [7], sent := true }] } (running [{ mmRun with shares := [{ bough := 0, lo := 0, hi := 3, seeked := true }], units := [{ mmUnit with rings := [outRing (List.replicate 3 { tile := 2, idx := 0, todo := [], out := 1, data := [] })] }] }] hubUp)), 0, 0, 0, .clean, ({ mmRun with shares := [{ bough := 0, lo := 0, hi := 3, seeked := true }], units := [{ mmUnit with rings := [outRing (List.replicate 3 { tile := 2, idx := 0, todo := [], out := 1, data := [] })] }] }), ({ mmUnit with rings := [outRing (List.replicate 3 { tile := 2, idx := 0, todo := [], out := 1, data := [] })] }), ([0]), ({ tile := 0, pos := 0, acc := [], sum := [7], sent := true }), ([]),
     by decide +kernel, by decide +kernel, by decide +kernel⟩,
   ⟨(running [{ mmRun with shares := [{ bough := 0, lo := 0, hi := 3, seeked := true }], units := [{ mmUnit with running := some 1, finishing := [0] }] }] hubUp), 0, 0, 0, .clean, ({ mmRun with shares := [{ bough := 0, lo := 0, hi := 3, seeked := true }], units := [{ mmUnit with running := some 1, finishing := [0] }] }), ({ mmUnit with running := some 1, finishing := [0] }), ({ bough := 0, lo := 0, hi := 3, seeked := true }), 0, ([]),
     by decide +kernel, by decide +kernel, by decide +kernel, by decide +kernel, by decide +kernel, by decide +kernel, by decide +kernel⟩,
   ⟨(running [sumRun { running := some 0, emitted := true, who := .vectorUnit 0 0 }] hubUp), (.vectorUnit 0 0), .clean, (sumRun { running := some 0, emitted := true, who := .vectorUnit 0 0 }), ({ running := some 0, emitted := true, who := .vectorUnit 0 0 }), 0,
     by decide +kernel, by decide +kernel, by decide +kernel⟩,
   ⟨(running [haulRun { running := some 0, held := some 1, who := .branchQueue 0 0 4 }] hubUp), (.branchQueue 0 0 4), .clean, (haulRun { running := some 0, held := some 1, who := .branchQueue 0 0 4 }), ({ running := some 0, held := some 1, who := .branchQueue 0 0 4 }), 0,
     by decide +kernel, by decide +kernel, by decide +kernel⟩,
   ⟨(running [sumRun { running := some 0, who := .vectorUnit 0 0 }] hubUp), 0, 0, (sumRun { running := some 0, who := .vectorUnit 0 0 }), ({ running := some 0, who := .vectorUnit 0 0 }), 0, ((okOr ([], 0) ((running [sumRun { running := some 0, who := .vectorUnit 0 0 }] hubUp).vuCodes (sumRun { running := some 0, who := .vectorUnit 0 0 }) { running := some 0, who := .vectorUnit 0 0 } 0)).1), ((okOr ([], 0) ((running [sumRun { running := some 0, who := .vectorUnit 0 0 }] hubUp).vuCodes (sumRun { running := some 0, who := .vectorUnit 0 0 }) { running := some 0, who := .vectorUnit 0 0 } 0)).2),
     by decide +kernel, by decide +kernel, by decide +kernel, by decide +kernel, by decide +kernel, ok_okOr (d := ([], 0)) (by decide +kernel)⟩⟩


theorem witness_DescriptorsComplete :
    (∃ (s : State) (q : QueueId) (seq : BitVec 32) (id : Nat) (inst : Option Nat) (r : Run), (s.hub.runs.find? fun r => r.queue = q && r.seq = seq && r.key = ⟨id, inst⟩) = some r ∧
      r.stopped = false ∧
      (r.ready = true ∧ (dOpcode r.desc ≠ opIndirect ∨ r.iter = 1) ∨ dOpcode r.desc = opIndirect ∧ r.iter = 1 ∧ ((s.job? r.queue r.seq).any fun j => j.descs.all fun x => x.key.inst.isNone || x.key.id ≠ r.key.id || x.phase = .done) = true)) ∧
    (∃ (s : State) (q : QueueId) (seq : BitVec 32) (id : Nat) (inst : Option Nat) (r : Run), (s.hub.runs.find? fun r => r.queue = q && r.seq = seq && r.key = ⟨id, inst⟩) = some r ∧
      r.stopped = false ∧
      (r.ready = true ∧ (dOpcode r.desc ≠ opIndirect ∨ r.iter = 1) ∨ dOpcode r.desc = opIndirect ∧ r.iter = 1 ∧ ((s.job? r.queue r.seq).any fun j => j.descs.all fun x => x.key.inst.isNone || x.key.id ≠ r.key.id || x.phase = .done) = true)) :=
  ⟨⟨(running [{ mmRun with ready := true }] hubUp), 5, 9, 0, none, ({ mmRun with ready := true }),
     by decide +kernel, by decide +kernel, by decide +kernel⟩,
   ⟨(running [{ mmRun with desc := mmDesc - 0x100 + 3, iter := 1 }] hubUp), 5, 9, 0, none, ({ mmRun with desc := mmDesc - 0x100 + 3, iter := 1 }),
     by decide +kernel, by decide +kernel, by decide +kernel⟩⟩


theorem witness_SortUnitAndRotation :
    (∃ (s : State) (b : BoughId) (id : Nat) (rest : List Nat), s.boughs[b].sortBusy = none ∧
      s.boughs[b].sortWait = id :: rest) ∧
    (∃ (s : State) (v : State) (b : BoughId) (p : BranchPos) (id : Nat) (r : Run) (ps : List Pull) (ws : List Nat), s.boughs[b].sortBusy = some id ∧
      s.run? id = some r ∧
      s.confidentialOpen = false ∧
      r.acks = [] ∧
      r.pulls = [] ∧
      s.pullAll r r.sortPlaces = (.ok ps, v) ∧
      pulledWords ps = some ws) ∧
    (∃ (s : State) (b : BoughId) (p : BranchPos) (e : WordError) (id : Nat) (r : Run), s.boughs[b].sortBusy = some id ∧
      s.run? id = some r ∧
      r.acks ≠ [] ∧
      r.acks.all s.tagReady = true) ∧
    (∃ (s : State) (b : BoughId) (q : BranchPos) (r : Run) (o : Tensor), (s.hub.runs.find? fun r => r.passes.any fun p => p.1 = b && 0 < p.2) = some r ∧
      r.tensor 0 = some o ∧
      (s.branchList.all fun p => (wordsOf o.base o.bufSize).all fun w => !s.wordPoisoned b p w) = true ∧
      o.base + o.bufSize ≤ 0x400000) :=
  ⟨⟨({ op with boughs := op.boughs.set 2 { state := .ready, sortWait := [6, 4] } }), 2, 6, ([4]),
     by decide +kernel, by decide +kernel⟩,
   ⟨(running [{ mmRun with desc := mmDesc + 0x400 }] { hubUp with boughs := hubUp.boughs.set 0 { state := .ready, sortBusy := some 0 } }), (((running [{ mmRun with desc := mmDesc + 0x400 }] { hubUp with boughs := hubUp.boughs.set 0 { state := .ready, sortBusy := some 0 } }).pullAll ({ mmRun with desc := mmDesc + 0x400 }) ({ mmRun with desc := mmDesc + 0x400 } : Run).sortPlaces).2), 0, 0, 0, ({ mmRun with desc := mmDesc + 0x400 }), (okOr [] ((running [{ mmRun with desc := mmDesc + 0x400 }] { hubUp with boughs := hubUp.boughs.set 0 { state := .ready, sortBusy := some 0 } }).pullAll ({ mmRun with desc := mmDesc + 0x400 }) ({ mmRun with desc := mmDesc + 0x400 } : Run).sortPlaces).1), ((pulledWords (okOr [] ((running [{ mmRun with desc := mmDesc + 0x400 }] { hubUp with boughs := hubUp.boughs.set 0 { state := .ready, sortBusy := some 0 } }).pullAll ({ mmRun with desc := mmDesc + 0x400 }) ({ mmRun with desc := mmDesc + 0x400 } : Run).sortPlaces).1)).getD []),
     by decide +kernel, by decide +kernel, by decide +kernel, by decide +kernel, by decide +kernel, pair_of (ok_okOr (by decide +kernel)), by decide +kernel⟩,
   ⟨(running [{ { mmRun with desc := mmDesc + 0x400 } with acks := [9] }] { hubUp with boughs := hubUp.boughs.set 0 { state := .ready, sortBusy := some 0 } }), 0, 0, .clean, 0, ({ { mmRun with desc := mmDesc + 0x400 } with acks := [9] }),
     by decide +kernel, by decide +kernel, by decide +kernel, by decide +kernel⟩,
   ⟨(wr (running [{ mmRun with desc := mmDesc + 0x501, passes := [(0, 1)], tens := [some (ten 0x3FFF40 5 3), none, none, none, none, none, none] }] hubUp) (localBase 0 5 + 0x3FFF40) [7, 8]), 0, 0, ({ mmRun with desc := mmDesc + 0x501, passes := [(0, 1)], tens := [some (ten 0x3FFF40 5 3), none, none, none, none, none, none] }), (ten 0x3FFF40 5 3),
     by decide +kernel, by decide +kernel, by decide +kernel, by decide +kernel⟩⟩


theorem witness_TransfersAreIssuedAndComplete :
    (∃ (s : State) (h : HaulQueue), (s.queueXfers h).length < s.queueLimit h ∧
      (s.hub.xfers.filter fun x => sameHauler x.queue h).length < haulerTotal h ∧
      (s.nextTransfer h).isSome = true ∧
      (((s.hub.haulWaits.filter s.canIssue).find? fun q => sameHauler q h).all fun q => q = h) = true) ∧
    (∃ (s : State) (h : HaulQueue) (e : WordError), s.canIssue h = true ∧
      haulerTotal h ≤ (s.hub.xfers.filter fun x => sameHauler x.queue h).length) ∧
    (∃ (s : State) (h : HaulQueue) (i : Nat) (ws : List PortRequest) (x : Xfer) (e : Nat), (s.queueXfers h)[i]? = some x ∧
      x.fail = some e ∧
      (s.run? x.run).isSome = true) ∧
    (∃ (s : State) (h : HaulQueue) (i : Nat) (ws : List PortRequest) (x : Xfer) (r : Run) (u : RunUnit), (s.queueXfers h)[i]? = some x ∧
      x.fail = none ∧
      x.phase = .landed ∧
      x.tags = [] ∧
      x.move.src.isSome = true ∧
      x.slot < 5 ∧
      s.run? x.run = some r ∧
      (r.units.find? fun u => u.who = x.who) = some u ∧
      s.mergeWaits r x = false) ∧
    (∃ (s : State) (v : State) (h : HaulQueue) (i : Nat) (ws : List PortRequest) (x : Xfer) (r : Run) (u : RunUnit) (a : Tensor) (o : Tensor), (s.queueXfers h)[i]? = some x ∧
      x.fail = none ∧
      x.phase = .landed ∧
      x.tags = [] ∧
      x.move.src.isSome = true ∧
      x.slot = 9 ∧
      s.run? x.run = some r ∧
      (r.units.find? fun u => u.who = x.who) = some u ∧
      r.moverTensors x.who = some (a, o) ∧
      s.oldRanges r x = [] ∧
      ((s.dropXfer h i).addFlags r (moverCodes r a o x []).2).writePuts r [] (moverCodes r a o x []).1 = (.ok [], v)) ∧
    (∃ (s : State) (v : State) (h : HaulQueue) (i : Nat) (ws : List PortRequest) (x : Xfer) (r : Run) (u : RunUnit) (bss : List (List Byte)), (s.queueXfers h)[i]? = some x ∧
      x.fail = none ∧
      x.phase = .ack ∧
      s.run? x.run = some r ∧
      (r.units.find? fun u => u.who = x.who) = some u ∧
      s.answers x.tags = (some (.ok bss), v)) :=
  ⟨⟨(running [{ mmRun with units := [{ mmUnit with rings := [ring [{ tile := 0, idx := 0, todo := [move], out := 0, data := [] }]] }] }] hubUp), (.branch 0 0 4),
     by decide +kernel, by decide +kernel, by decide +kernel, by decide +kernel⟩,
   ⟨((let s := running [{ mmRun with units := [{ mmUnit with rings := [ring [{ tile := 0, idx := 0, todo := [move], out := 0, data := [] }]] }] }] hubUp; { s with hub := { s.hub with xfers := List.replicate 128 { xfer with queue := .branch 0 0 5 } } })), (.branch 0 0 4), .clean,
     by decide +kernel, by decide +kernel⟩,
   ⟨(running [{ mmRun with units := [{ mmUnit with rings := [ring [{ tile := 0, idx := 0, todo := [], out := 1, data := [] }]] }] }] { hubUp with hub := { hubUp.hub with xfers := [{ xfer with queue := .branch 0 0 5 }, xfer, { xfer with fail := some 0x42 }] } }), (.branch 0 0 4), 1, ([]), ({ xfer with fail := some 0x42 }), 0x42,
     by decide +kernel, by decide +kernel, by decide +kernel⟩,
   ⟨(running [{ mmRun with units := [{ mmUnit with rings := [ring [{ tile := 0, idx := 0, todo := [], out := 1, data := [] }]] }] }] { hubUp with hub := { hubUp.hub with xfers := [{ xfer with queue := .branch 0 0 5 }, xfer] } }), (.branch 0 0 4), 0, ([]), xfer, ({ mmRun with units := [{ mmUnit with rings := [ring [{ tile := 0, idx := 0, todo := [], out := 1, data := [] }]] }] }), ({ mmUnit with rings := [ring [{ tile := 0, idx := 0, todo := [], out := 1, data := [] }]] }),
     by decide +kernel, by decide +kernel, by decide +kernel, by decide +kernel, by decide +kernel, by decide +kernel, by decide +kernel, by decide +kernel, by decide +kernel⟩,
   ⟨(running [haulRun { running := some 0, who := .branchQueue 0 0 4 }] { hubUp with hub := { hubUp.hub with xfers := [haulXfer] } }), ((let s := (running [haulRun { running := some 0, who := .branchQueue 0 0 4 }] { hubUp with hub := { hubUp.hub with xfers := [haulXfer] } }); let r := haulRun { running := some 0, who := .branchQueue 0 0 4 }; ((s.dropXfer (.branch 0 0 4) 0).addFlags r (moverCodes r { ten 0x4000000000 5 3 with rel := false } { ten 0x4200000000 5 3 with rel := false } haulXfer []).2).writePuts r [] (moverCodes r { ten 0x4000000000 5 3 with rel := false } { ten 0x4200000000 5 3 with rel := false } haulXfer []).1).2), (.branch 0 0 4), 0, ([]), haulXfer, (haulRun { running := some 0, who := .branchQueue 0 0 4 }), ({ running := some 0, who := .branchQueue 0 0 4 }), ({ ten 0x4000000000 5 3 with rel := false }), ({ ten 0x4200000000 5 3 with rel := false }),
     by decide +kernel, by decide +kernel, by decide +kernel, by decide +kernel, by decide +kernel, by decide +kernel, by decide +kernel, by decide +kernel, by decide +kernel, by decide +kernel, pair_of (ok_of (by decide +kernel))⟩,
   ⟨(withWaits [{ waits (some 3) with answer := some (.ok, []), len := 0 }] <| running [haulRun { running := some 0, who := .branchQueue 0 0 4 }] { hubUp with hub := { hubUp.hub with xfers := [{ haulXfer with phase := .ack, tags := [7] }] } }), (((withWaits [{ waits (some 3) with answer := some (.ok, []), len := 0 }] <| running [haulRun { running := some 0, who := .branchQueue 0 0 4 }] { hubUp with hub := { hubUp.hub with xfers := [{ haulXfer with phase := .ack, tags := [7] }] } }).answers [7]).2), (.branch 0 0 4), 0, ([]), ({ haulXfer with phase := .ack, tags := [7] }), (haulRun { running := some 0, who := .branchQueue 0 0 4 }), ({ running := some 0, who := .branchQueue 0 0 4 }), (match ((withWaits [{ waits (some 3) with answer := some (.ok, []), len := 0 }] <| running [haulRun { running := some 0, who := .branchQueue 0 0 4 }] { hubUp with hub := { hubUp.hub with xfers := [{ haulXfer with phase := .ack, tags := [7] }] } }).answers [7]).1 with | some (.ok bss) => bss | _ => []),
     by decide +kernel, by decide +kernel, by decide +kernel, by decide +kernel, by decide +kernel, by rfl⟩⟩


theorem witness_SampleRunsStartStopAndTakeBuffers :
    (∃ (s : State) (r : Requester), Safety.Writes s r .spControl 0 0 0 1 ∧
      spStartCodes s = []) ∧
    (∃ (s : State) (r : Requester), Safety.Writes s r .spControl 0 0 0 1 ∧
      spStartCodes s = []) ∧
    (∃ (s : State) (r : Requester), Safety.Writes s r .spControl 0 0 0 2 ∧
      s.sample.state ≠ .stopped ∧
      (s.sample.segs ≠ [] ∨ s.sample.closed = true)) ∧
    (∃ (s : State) (r : Requester), Safety.Writes s r .spControl 0 0 0 2 ∧
      s.sample.state ≠ .stopped ∧
      (s.sample.segs ≠ [] ∨ s.sample.closed = true)) ∧
    (∃ (s : State) (r : Requester), Safety.Writes s r .spControl 0 0 0 2 ∧
      s.sample.state ≠ .stopped ∧
      s.sample.segs = [] ∧
      s.sample.closed = false) ∧
    (∃ (s : State) (r : Requester), Safety.Writes s r .spControl 0 0 0 2 ∧
      s.sample.state ≠ .stopped ∧
      s.sample.segs = [] ∧
      s.sample.closed = false) ∧
    (∃ (s : State) (b : BoughId) (q : HqPos) (i : Nat) (rest : List Nat), s.sample.state ≠ .stopped ∧
      s.sample.buffer = none ∧
      s.spQueue = (b, q) ∧
      (s.hq b q).free = i :: rest ∧
      Safety.Oldest s .samplePipe b q) ∧
    (∃ (s : State) (b : BoughId) (q : HqPos) (i : Nat) (rest : List Nat), s.sample.state ≠ .stopped ∧
      s.sample.buffer = none ∧
      s.spQueue = (b, q) ∧
      (s.hq b q).free = i :: rest ∧
      Safety.Oldest s .samplePipe b q) ∧
    (∃ (s : State) (b : BoughId) (q : HqPos), s.sample.state ≠ .stopped ∧
      s.sample.buffer = none ∧
      s.spQueue = (b, q) ∧
      ((s.hq b q).free = [] ∨ ¬ Safety.Oldest s .samplePipe b q)) ∧
    (∃ (s : State) (b : BoughId) (q : HqPos), s.sample.state ≠ .stopped ∧
      s.sample.buffer = none ∧
      s.spQueue = (b, q) ∧
      ((s.hq b q).free = [] ∨ ¬ Safety.Oldest s .samplePipe b q)) ∧
    (∃ (s : State) (r : DecRun) (i : Nat) (rest : List Nat), s.decoder.run = some r ∧
      r.pictures ≠ [] ∧
      r.buffer = none ∧
      (s.hq r.bough r.queue).free = i :: rest ∧
      Safety.Oldest s (if r.op = 2 then .jpegDecoder else .videoDecoder) r.bough r.queue) ∧
    (∃ (s : State) (r : DecRun), s.decoder.run = some r ∧
      r.pictures ≠ [] ∧
      r.buffer = none ∧
      ((s.hq r.bough r.queue).free = [] ∨ ¬ Safety.Oldest s (if r.op = 2 then .jpegDecoder else .videoDecoder) r.bough r.queue)) :=
  ⟨⟨spOp, .burlyn,
     by decide +kernel, by decide +kernel⟩,
   ⟨({ spOp with sample := { spBuilding with state := .stopped, buffer := none, stopReason := 2 } }), .host,
     by decide +kernel, by decide +kernel⟩,
   ⟨({ spOp with sample := { spBuilding with segs := [⟨0, 0, [], 2, none, false, 0, 0⟩] } }), .burlyn,
     by decide +kernel, by decide +kernel, by decide +kernel⟩,
   ⟨({ spOp with sample := { spBuilding with state := .waiting, closed := true } }), .burlyn,
     by decide +kernel, by decide +kernel, by decide +kernel⟩,
   ⟨({ spOp with sample := spBuilding }), .burlyn,
     by decide +kernel, by decide +kernel, by decide +kernel, by decide +kernel⟩,
   ⟨({ spOp with sample := { state := .waiting } }), .can0,
     by decide +kernel, by decide +kernel, by decide +kernel, by decide +kernel⟩,
   ⟨({ spOp with sample := { state := .waiting } }), 0, 3, 0, ([1]),
     by decide +kernel, by decide +kernel, by rfl, by decide +kernel, by decide +kernel⟩,
   ⟨({ spOp with sample := { state := .stopping, stopAsked := true } }), 0, 3, 0, ([1]),
     by decide +kernel, by decide +kernel, by rfl, by decide +kernel, by decide +kernel⟩,
   ⟨(regs { spOp with sample := { state := .running } } [(Ob.key .spTarget 0 0 0, 4)]), 0, 4,
     by decide +kernel, by decide +kernel, by rfl, by decide +kernel⟩,
   ⟨((let s := { spOp with sample := { state := .running } }
  { s with boughs := upd s.boughs 0 fun x => { x with hqs := upd x.hqs 3 fun q => { q with asks := [(.jpegDecoder, 4)] } }
           decoder := { run := some (decRun [⟨16, 2, 0, []⟩] none) } })), 0, 3,
     by decide +kernel, by decide +kernel, by rfl, by decide +kernel⟩,
   ⟨({ decOp with decoder := { run := some (decRun [⟨16, 2, 0, []⟩] none) } }), (decRun [⟨16, 2, 0, []⟩] none), 0, ([1]),
     by decide +kernel, by decide +kernel, by decide +kernel, by decide +kernel, by decide +kernel⟩,
   ⟨(withHandles [] { regs decOp [(Ob.key .spTarget 0 0 0, 4)] with decoder := { run := some { decRun [⟨16, 2, 0, []⟩] none with queue := 4 } } }), ({ decRun [⟨16, 2, 0, []⟩] none with queue := 4 }),
     by decide +kernel, by decide +kernel, by decide +kernel, by decide +kernel⟩⟩

def ex_SamplesArePackedAndPosted_0_0_s : State := packing (entry 0 65 0 260 0) spBuilding

def ex_SamplesArePackedAndPosted_0_0_u : State := spGot (ex_SamplesArePackedAndPosted_0_0_s)

def ex_SamplesArePackedAndPosted_0_0_bs : List Byte := entry 0 65 0 260 0

def ex_SamplesArePackedAndPosted_1_0_s : State := packing (entry (crc32c tokens).toNat 2 0 8 0) ({ spBuilding with row := 1, fill := 62, segs := [⟨1, 0, [], 62, none, false, 0, 3⟩] })

def ex_SamplesArePackedAndPosted_1_0_u : State := spGot (ex_SamplesArePackedAndPosted_1_0_s)

def ex_SamplesArePackedAndPosted_1_0_w : State := ((ex_SamplesArePackedAndPosted_1_0_u).spRead ((ex_SamplesArePackedAndPosted_1_0_s).regN .spStoreBase + (spEntryOf (entry (crc32c tokens).toNat 2 0 8 0)).offset) (spEntryOf (entry (crc32c tokens).toNat 2 0 8 0)).length).2

def ex_SamplesArePackedAndPosted_1_0_bs : List Byte := entry (crc32c tokens).toNat 2 0 8 0

def ex_SamplesArePackedAndPosted_2_0_s : State := regs (packing (entry (crc32c (tokens ++ [0, 0, 0, 0])).toNat 2 1 12 0) ({ spBuilding with row := 1, fill := 62, segs := [⟨1, 0, [], 62, none, false, 0, 3⟩] })) [(Ob.key .spImgStride 0 0 0, 0x1000)]

def ex_SamplesArePackedAndPosted_2_0_u : State := ((ex_SamplesArePackedAndPosted_2_0_s).spRead 0x200000 16).2

def ex_SamplesArePackedAndPosted_2_0_w : State := ((ex_SamplesArePackedAndPosted_2_0_u).spRead 0x210000 12).2

def ex_SamplesArePackedAndPosted_2_0_bs : List Byte := entry (crc32c (tokens ++ [0, 0, 0, 0])).toNat 2 1 12 0

def ex_SamplesArePackedAndPosted_2_0_rb : List Byte := tokens ++ [0, 0, 0, 0]

def ex_SamplesArePackedAndPosted_3_0_s : State := packing (entry 7 2 0 8 0) ({ spBuilding with row := 1, fill := 62, segs := [⟨1, 0, [], 62, none, false, 0, 3⟩] })

def ex_SamplesArePackedAndPosted_3_0_u : State := spGot (ex_SamplesArePackedAndPosted_3_0_s)

def ex_SamplesArePackedAndPosted_3_0_w : State := ((ex_SamplesArePackedAndPosted_3_0_u).spRead ((ex_SamplesArePackedAndPosted_3_0_s).regN .spStoreBase + (spEntryOf (entry 7 2 0 8 0)).offset) (spEntryOf (entry 7 2 0 8 0)).length).2

def ex_SamplesArePackedAndPosted_3_0_bs : List Byte := entry 7 2 0 8 0

def ex_SamplesArePackedAndPosted_4_0_s : State := packing (entry (crc32c (tokens ++ [0, 0, 0, 0])).toNat 2 1 12 0) ({ spBuilding with row := 1, fill := 62, segs := [⟨1, 0, [], 62, none, false, 0, 3⟩] })

def ex_SamplesArePackedAndPosted_4_0_u : State := spGot (ex_SamplesArePackedAndPosted_4_0_s)

def ex_SamplesArePackedAndPosted_4_0_w : State := ((ex_SamplesArePackedAndPosted_4_0_u).spRead ((ex_SamplesArePackedAndPosted_4_0_s).regN .spStoreBase + (spEntryOf (entry (crc32c (tokens ++ [0, 0, 0, 0])).toNat 2 1 12 0)).offset) (spEntryOf (entry (crc32c (tokens ++ [0, 0, 0, 0])).toNat 2 1 12 0)).length).2

def ex_SamplesArePackedAndPosted_4_0_bs : List Byte := entry (crc32c (tokens ++ [0, 0, 0, 0])).toNat 2 1 12 0

def ex_SamplesArePackedAndPosted_4_0_rb : List Byte := tokens ++ [0, 0, 0, 0]

def ex_SamplesArePackedAndPosted_5_0_s : State := packing (entry 7 2 0 9 0) spBuilding

def ex_SamplesArePackedAndPosted_5_0_u : State := spGot (ex_SamplesArePackedAndPosted_5_0_s)

def ex_SamplesArePackedAndPosted_5_0_bs : List Byte := entry 7 2 0 9 0

def ex_SamplesArePackedAndPosted_6_0_s : State := packing (entry 7 2 1 9 0) { spBuilding with imagesTaken := 1 }

def ex_SamplesArePackedAndPosted_6_0_u : State := spGot (ex_SamplesArePackedAndPosted_6_0_s)

def ex_SamplesArePackedAndPosted_6_0_bs : List Byte := entry 7 2 1 9 0

def ex_SamplesArePackedAndPosted_7_0_s : State := { spOp with sample := { spBuilding with closed := true, pos := 1, segs := [⟨0, 0, [5, 511], 2, none, false, 0, 0⟩] } }

def ex_SamplesArePackedAndPosted_7_0_w : State := spPosted ex_SamplesArePackedAndPosted_7_0_s

theorem witness_SamplesArePackedAndPosted_0 : (
      let index := fun (s : State) =>
        samplePi s.sample.pos (s.regN .spSampleCount) (s.regN .spSeed) s.sample.epoch.toNat
      let reads := fun (s u : State) (bs : List Byte) =>
        s.sample.state ≠ .stopped ∧ s.sample.closed = false ∧ s.sample.buffer.isSome = true ∧
        s.spRead (s.regN .spIndexBase + 16 * index s) 16 = (.ok bs, u)
      let taken := fun (s t : State) (g : SpSeg) =>
        t.sample = { s.sample with row := g.row, fill := g.start + g.span, segs := s.sample.segs ++ [g], pos := s.sample.pos + 1,
                                   closed := s.sample.pos + 1 == s.regN .spSampleCount,
                                   imagesTaken := if g.imageTaken then s.sample.imagesTaken + 1 else s.sample.imagesTaken }
      let placed := fun (s t : State) (g : SpSeg) =>
        taken s t g ∧ t.reg .spDropped = s.reg .spDropped + (if g.reason = 0 then 0 else 1) ∧
        Safety.KeepsRegs s t [Ob.key .spDropped 0 0 0] ∧
        t = { s with free := t.free, objs := t.objs, sample := t.sample }
      let image := fun (s : State) (e : SpEntry) => e.kind = 1 → s.sample.imagesTaken < s.spImgSlots
      ∃ (s : State) (u : State) (bs : List Byte) (row : Nat) (fill : Nat), reads s u bs ∧
      s.spRowLen < (spEntryOf bs).tokens ∧
      s.spPlace 0 = some (row, fill)) :=
  by
      dsimp only
      exact ⟨ex_SamplesArePackedAndPosted_0_0_s, ex_SamplesArePackedAndPosted_0_0_u, ex_SamplesArePackedAndPosted_0_0_bs, 0, 0,
     ⟨by decide +kernel, by decide +kernel, by decide +kernel, read_at (x := 0x200000) (by decide +kernel) (pair_of (ok_of (by decide +kernel)))⟩, by decide +kernel, by decide +kernel⟩

theorem witness_SamplesArePackedAndPosted_1 : (
      let index := fun (s : State) =>
        samplePi s.sample.pos (s.regN .spSampleCount) (s.regN .spSeed) s.sample.epoch.toNat
      let reads := fun (s u : State) (bs : List Byte) =>
        s.sample.state ≠ .stopped ∧ s.sample.closed = false ∧ s.sample.buffer.isSome = true ∧
        s.spRead (s.regN .spIndexBase + 16 * index s) 16 = (.ok bs, u)
      let taken := fun (s t : State) (g : SpSeg) =>
        t.sample = { s.sample with row := g.row, fill := g.start + g.span, segs := s.sample.segs ++ [g], pos := s.sample.pos + 1,
                                   closed := s.sample.pos + 1 == s.regN .spSampleCount,
                                   imagesTaken := if g.imageTaken then s.sample.imagesTaken + 1 else s.sample.imagesTaken }
      let placed := fun (s t : State) (g : SpSeg) =>
        taken s t g ∧ t.reg .spDropped = s.reg .spDropped + (if g.reason = 0 then 0 else 1) ∧
        Safety.KeepsRegs s t [Ob.key .spDropped 0 0 0] ∧
        t = { s with free := t.free, objs := t.objs, sample := t.sample }
      let image := fun (s : State) (e : SpEntry) => e.kind = 1 → s.sample.imagesTaken < s.spImgSlots
      ∃ (s : State) (u : State) (w : State) (bs : List Byte) (rb : List Byte) (row : Nat) (fill : Nat), reads s u bs ∧
      (spEntryOf bs).kind = 0 ∧
      (spEntryOf bs).tokens ≤ s.spRowLen ∧
      s.spPlace (spEntryOf bs).tokens = some (row, fill) ∧
      s.spIndexBad (spEntryOf bs) = false ∧
      u.spRead (s.regN .spStoreBase + (spEntryOf bs).offset) (spEntryOf bs).length = (.ok rb, w) ∧
      (crc32c rb).toNat = (spEntryOf bs).crc) :=
  by
      dsimp only
      exact ⟨ex_SamplesArePackedAndPosted_1_0_s, ex_SamplesArePackedAndPosted_1_0_u, ex_SamplesArePackedAndPosted_1_0_w, ex_SamplesArePackedAndPosted_1_0_bs, tokens, 1, 62,
     ⟨by decide +kernel, by decide +kernel, by decide +kernel, read_at (x := 0x200000) (by decide +kernel) (pair_of (ok_of (by decide +kernel)))⟩, by decide +kernel, by decide +kernel, by decide +kernel, by decide +kernel, pair_of (ok_of (by decide +kernel)), by decide +kernel⟩

theorem witness_SamplesArePackedAndPosted_2 : (
      let index := fun (s : State) =>
        samplePi s.sample.pos (s.regN .spSampleCount) (s.regN .spSeed) s.sample.epoch.toNat
      let reads := fun (s u : State) (bs : List Byte) =>
        s.sample.state ≠ .stopped ∧ s.sample.closed = false ∧ s.sample.buffer.isSome = true ∧
        s.spRead (s.regN .spIndexBase + 16 * index s) 16 = (.ok bs, u)
      let taken := fun (s t : State) (g : SpSeg) =>
        t.sample = { s.sample with row := g.row, fill := g.start + g.span, segs := s.sample.segs ++ [g], pos := s.sample.pos + 1,
                                   closed := s.sample.pos + 1 == s.regN .spSampleCount,
                                   imagesTaken := if g.imageTaken then s.sample.imagesTaken + 1 else s.sample.imagesTaken }
      let placed := fun (s t : State) (g : SpSeg) =>
        taken s t g ∧ t.reg .spDropped = s.reg .spDropped + (if g.reason = 0 then 0 else 1) ∧
        Safety.KeepsRegs s t [Ob.key .spDropped 0 0 0] ∧
        t = { s with free := t.free, objs := t.objs, sample := t.sample }
      let image := fun (s : State) (e : SpEntry) => e.kind = 1 → s.sample.imagesTaken < s.spImgSlots
      ∃ (s : State) (u : State) (w : State) (bs : List Byte) (rb : List Byte) (row : Nat) (fill : Nat), ∀ (x : State) (im : List (Nat × List Byte)), s.spImage (rb.drop (4 * (spEntryOf bs).tokens)) = some im →
      w.mediaWrites (.codec s.spClaim) ((s.hq s.spQueue.1 s.spQueue.2).base + (s.sample.buffer.getD 0) * (s.hq s.spQueue.1 s.spQueue.2).stride + s.spImages + s.sample.imagesTaken * s.regN .spImgStride) im = (none, x) →
      reads s u bs ∧
      (spEntryOf bs).kind = 1 ∧
      (spEntryOf bs).tokens ≤ s.spRowLen ∧
      s.sample.imagesTaken < s.spImgSlots ∧
      s.spPlace (spEntryOf bs).tokens = some (row, fill) ∧
      s.spIndexBad (spEntryOf bs) = false ∧
      u.spRead (s.regN .spStoreBase + (spEntryOf bs).offset) (spEntryOf bs).length = (.ok rb, w) ∧
      (crc32c rb).toNat = (spEntryOf bs).crc) :=
  by
      dsimp only
      exact ⟨ex_SamplesArePackedAndPosted_2_0_s, ex_SamplesArePackedAndPosted_2_0_u, ex_SamplesArePackedAndPosted_2_0_w, ex_SamplesArePackedAndPosted_2_0_bs, ex_SamplesArePackedAndPosted_2_0_rb, 1, 62,
     fun _ _ _ _ => ⟨⟨by decide +kernel, by decide +kernel, by decide +kernel, read_at (x := 0x200000) (by decide +kernel) (pair_of (ok_of (by decide +kernel)))⟩, by decide +kernel, by decide +kernel, by decide +kernel, by decide +kernel, by decide +kernel, pair_of (ok_of (by decide +kernel)), by decide +kernel⟩⟩

theorem witness_SamplesArePackedAndPosted_3 : (
      let index := fun (s : State) =>
        samplePi s.sample.pos (s.regN .spSampleCount) (s.regN .spSeed) s.sample.epoch.toNat
      let reads := fun (s u : State) (bs : List Byte) =>
        s.sample.state ≠ .stopped ∧ s.sample.closed = false ∧ s.sample.buffer.isSome = true ∧
        s.spRead (s.regN .spIndexBase + 16 * index s) 16 = (.ok bs, u)
      let taken := fun (s t : State) (g : SpSeg) =>
        t.sample = { s.sample with row := g.row, fill := g.start + g.span, segs := s.sample.segs ++ [g], pos := s.sample.pos + 1,
                                   closed := s.sample.pos + 1 == s.regN .spSampleCount,
                                   imagesTaken := if g.imageTaken then s.sample.imagesTaken + 1 else s.sample.imagesTaken }
      let placed := fun (s t : State) (g : SpSeg) =>
        taken s t g ∧ t.reg .spDropped = s.reg .spDropped + (if g.reason = 0 then 0 else 1) ∧
        Safety.KeepsRegs s t [Ob.key .spDropped 0 0 0] ∧
        t = { s with free := t.free, objs := t.objs, sample := t.sample }
      let image := fun (s : State) (e : SpEntry) => e.kind = 1 → s.sample.imagesTaken < s.spImgSlots
      ∃ (s : State) (u : State) (w : State) (bs : List Byte) (rb : List Byte) (row : Nat) (fill : Nat), reads s u bs ∧
      (spEntryOf bs).tokens ≤ s.spRowLen ∧
      image s (spEntryOf bs) ∧
      s.spPlace (spEntryOf bs).tokens = some (row, fill) ∧
      s.spIndexBad (spEntryOf bs) = false ∧
      u.spRead (s.regN .spStoreBase + (spEntryOf bs).offset) (spEntryOf bs).length = (.ok rb, w) ∧
      (crc32c rb).toNat ≠ (spEntryOf bs).crc) :=
  by
      dsimp only
      exact ⟨ex_SamplesArePackedAndPosted_3_0_s, ex_SamplesArePackedAndPosted_3_0_u, ex_SamplesArePackedAndPosted_3_0_w, ex_SamplesArePackedAndPosted_3_0_bs, tokens, 1, 62,
     ⟨by decide +kernel, by decide +kernel, by decide +kernel, read_at (x := 0x200000) (by decide +kernel) (pair_of (ok_of (by decide +kernel)))⟩, by decide +kernel, by decide +kernel, by decide +kernel, by decide +kernel, pair_of (ok_of (by decide +kernel)), by decide +kernel⟩

theorem witness_SamplesArePackedAndPosted_4 : (
      let index := fun (s : State) =>
        samplePi s.sample.pos (s.regN .spSampleCount) (s.regN .spSeed) s.sample.epoch.toNat
      let reads := fun (s u : State) (bs : List Byte) =>
        s.sample.state ≠ .stopped ∧ s.sample.closed = false ∧ s.sample.buffer.isSome = true ∧
        s.spRead (s.regN .spIndexBase + 16 * index s) 16 = (.ok bs, u)
      let taken := fun (s t : State) (g : SpSeg) =>
        t.sample = { s.sample with row := g.row, fill := g.start + g.span, segs := s.sample.segs ++ [g], pos := s.sample.pos + 1,
                                   closed := s.sample.pos + 1 == s.regN .spSampleCount,
                                   imagesTaken := if g.imageTaken then s.sample.imagesTaken + 1 else s.sample.imagesTaken }
      let placed := fun (s t : State) (g : SpSeg) =>
        taken s t g ∧ t.reg .spDropped = s.reg .spDropped + (if g.reason = 0 then 0 else 1) ∧
        Safety.KeepsRegs s t [Ob.key .spDropped 0 0 0] ∧
        t = { s with free := t.free, objs := t.objs, sample := t.sample }
      let image := fun (s : State) (e : SpEntry) => e.kind = 1 → s.sample.imagesTaken < s.spImgSlots
      ∃ (s : State) (u : State) (w : State) (bs : List Byte) (rb : List Byte) (row : Nat) (fill : Nat), reads s u bs ∧
      (spEntryOf bs).kind = 1 ∧
      (spEntryOf bs).tokens ≤ s.spRowLen ∧
      s.sample.imagesTaken < s.spImgSlots ∧
      s.spPlace (spEntryOf bs).tokens = some (row, fill) ∧
      s.spIndexBad (spEntryOf bs) = false ∧
      u.spRead (s.regN .spStoreBase + (spEntryOf bs).offset) (spEntryOf bs).length = (.ok rb, w) ∧
      (crc32c rb).toNat = (spEntryOf bs).crc ∧
      s.spImage (rb.drop (4 * (spEntryOf bs).tokens)) = none) :=
  by
      dsimp only
      exact ⟨ex_SamplesArePackedAndPosted_4_0_s, ex_SamplesArePackedAndPosted_4_0_u, ex_SamplesArePackedAndPosted_4_0_w, ex_SamplesArePackedAndPosted_4_0_bs, ex_SamplesArePackedAndPosted_4_0_rb, 1, 62,
     ⟨by decide +kernel, by decide +kernel, by decide +kernel, read_at (x := 0x200000) (by decide +kernel) (pair_of (ok_of (by decide +kernel)))⟩, by decide +kernel, by decide +kernel, by decide +kernel, by decide +kernel, by decide +kernel, pair_of (ok_of (by decide +kernel)), by decide +kernel, spImage_none _ (by decide +kernel)⟩

theorem witness_SamplesArePackedAndPosted_5 : (
      let index := fun (s : State) =>
        samplePi s.sample.pos (s.regN .spSampleCount) (s.regN .spSeed) s.sample.epoch.toNat
      let reads := fun (s u : State) (bs : List Byte) =>
        s.sample.state ≠ .stopped ∧ s.sample.closed = false ∧ s.sample.buffer.isSome = true ∧
        s.spRead (s.regN .spIndexBase + 16 * index s) 16 = (.ok bs, u)
      let taken := fun (s t : State) (g : SpSeg) =>
        t.sample = { s.sample with row := g.row, fill := g.start + g.span, segs := s.sample.segs ++ [g], pos := s.sample.pos + 1,
                                   closed := s.sample.pos + 1 == s.regN .spSampleCount,
                                   imagesTaken := if g.imageTaken then s.sample.imagesTaken + 1 else s.sample.imagesTaken }
      let placed := fun (s t : State) (g : SpSeg) =>
        taken s t g ∧ t.reg .spDropped = s.reg .spDropped + (if g.reason = 0 then 0 else 1) ∧
        Safety.KeepsRegs s t [Ob.key .spDropped 0 0 0] ∧
        t = { s with free := t.free, objs := t.objs, sample := t.sample }
      let image := fun (s : State) (e : SpEntry) => e.kind = 1 → s.sample.imagesTaken < s.spImgSlots
      ∃ (s : State) (u : State) (bs : List Byte) (row : Nat) (fill : Nat), reads s u bs ∧
      (spEntryOf bs).tokens ≤ s.spRowLen ∧
      image s (spEntryOf bs) ∧
      s.spPlace (spEntryOf bs).tokens = some (row, fill) ∧
      s.spIndexBad (spEntryOf bs) = true) :=
  by
      dsimp only
      exact ⟨ex_SamplesArePackedAndPosted_5_0_s, ex_SamplesArePackedAndPosted_5_0_u, ex_SamplesArePackedAndPosted_5_0_bs, 0, 0,
     ⟨by decide +kernel, by decide +kernel, by decide +kernel, read_at (x := 0x200000) (by decide +kernel) (pair_of (ok_of (by decide +kernel)))⟩, by decide +kernel, by decide +kernel, by decide +kernel, by decide +kernel⟩

theorem witness_SamplesArePackedAndPosted_6 : (
      let index := fun (s : State) =>
        samplePi s.sample.pos (s.regN .spSampleCount) (s.regN .spSeed) s.sample.epoch.toNat
      let reads := fun (s u : State) (bs : List Byte) =>
        s.sample.state ≠ .stopped ∧ s.sample.closed = false ∧ s.sample.buffer.isSome = true ∧
        s.spRead (s.regN .spIndexBase + 16 * index s) 16 = (.ok bs, u)
      let taken := fun (s t : State) (g : SpSeg) =>
        t.sample = { s.sample with row := g.row, fill := g.start + g.span, segs := s.sample.segs ++ [g], pos := s.sample.pos + 1,
                                   closed := s.sample.pos + 1 == s.regN .spSampleCount,
                                   imagesTaken := if g.imageTaken then s.sample.imagesTaken + 1 else s.sample.imagesTaken }
      let placed := fun (s t : State) (g : SpSeg) =>
        taken s t g ∧ t.reg .spDropped = s.reg .spDropped + (if g.reason = 0 then 0 else 1) ∧
        Safety.KeepsRegs s t [Ob.key .spDropped 0 0 0] ∧
        t = { s with free := t.free, objs := t.objs, sample := t.sample }
      let image := fun (s : State) (e : SpEntry) => e.kind = 1 → s.sample.imagesTaken < s.spImgSlots
      ∃ (s : State) (u : State) (bs : List Byte), reads s u bs ∧
      (spEntryOf bs).tokens ≤ s.spRowLen ∧
      ((spEntryOf bs).kind = 1 ∧ s.spImgSlots ≤ s.sample.imagesTaken ∨ s.spPlace (spEntryOf bs).tokens = none)) :=
  by
      dsimp only
      exact ⟨ex_SamplesArePackedAndPosted_6_0_s, ex_SamplesArePackedAndPosted_6_0_u, ex_SamplesArePackedAndPosted_6_0_bs,
     ⟨by decide +kernel, by decide +kernel, by decide +kernel, read_at (x := 0x200000) (by decide +kernel) (pair_of (ok_of (by decide +kernel)))⟩, by decide +kernel, by decide +kernel⟩

theorem witness_SamplesArePackedAndPosted_7 : (∃ (s : State) (w : State) (b : BoughId) (q : HqPos) (i : Nat), s.sample.buffer = some i ∧
      s.sample.closed = true ∧
      s.sample.state ≠ .stopped ∧
      s.spQueue = (b, q) ∧
      s.boughs[b].state.inReset = false ∧
      s.mediaWrites (.codec s.spClaim) ((s.hq b q).base + i * (s.hq b q).stride) s.spRowsOut = (none, w)) :=
  ⟨ex_SamplesArePackedAndPosted_7_0_s, ex_SamplesArePackedAndPosted_7_0_w, 0, 3, 1,
     by decide +kernel, by decide +kernel, by decide +kernel, by rfl, by decide +kernel, pair_of (by decide +kernel)⟩


theorem witness_CameraPortsAndPackets :
    (∃ (s : State) (r : Requester) (p : CamId) (v : Word), Safety.Writes s r .csiConfig p.val 0 0 v ∧
      csiConfigCodes p.val v.toNat s = [] ∧
      s.camOn p.val = false ∧
      v.getLsbD 0 = true) ∧
    (∃ (s : State) (r : Requester) (p : CamId) (v : Word), Safety.Writes s r .csiConfig p.val 0 0 v ∧
      csiConfigCodes p.val v.toNat s = [] ∧
      s.camOn p.val = true ∧
      v.getLsbD 0 = false) ∧
    (∃ (s : State) (r : Requester) (p : CamId) (v : Word), Safety.Writes s r .csiConfig p.val 0 0 v ∧
      csiConfigCodes p.val v.toNat s = [] ∧
      s.camOn p.val = true ∧
      v.getLsbD 0 = false) ∧
    (∃ (s : State) (p : CamId) (on : Bool), p.val < camerasOf s.grade) ∧
    (∃ (s : State) (p : CamId) (on : Bool), p.val < camerasOf s.grade) ∧
    (∃ (s : State) (p : CamId), p.val < camerasOf s.grade) ∧
    (∃ (s : State) (p : CamId) (k : CsiPacket), s.camOn p.val = true ∧
      k.headerErrors = 0 ∧
      k.vc.toNat ≠ s.csi p.val 55 52) ∧
    (∃ (s : State) (p : CamId) (k : CsiPacket), s.camOn p.val = true ∧
      k.headerErrors = 0 ∧
      k.vc.toNat = s.csi p.val 55 52 ∧
      4 ≤ k.dt.toNat ∧
      (k.dt.toNat ≠ s.csi p.val 51 46 ∨ s.cameras[p].started = false)) ∧
    (∃ (s : State) (p : CamId) (k : CsiPacket), s.camOn p.val = true ∧
      k.headerErrors = 0 ∧
      k.vc.toNat = s.csi p.val 55 52 ∧
      4 ≤ k.dt.toNat ∧
      (k.dt.toNat ≠ s.csi p.val 51 46 ∨ s.cameras[p].started = false)) ∧
    (∃ (s : State) (p : CamId) (k : CsiPacket), s.camOn p.val = true ∧
      2 ≤ k.headerErrors) ∧
    (∃ (s : State) (p : CamId) (k : CsiPacket), s.camOn p.val = true ∧
      2 ≤ k.headerErrors) ∧
    (∃ (s : State) (p : CamId) (k : CsiPacket), s.camOn p.val = false) ∧
    (∃ (s : State) (p : CamId) (k : CsiPacket), s.camOn p.val = true ∧
      k.headerErrors = 0 ∧
      k.vc.toNat = s.csi p.val 55 52 ∧
      (shortDt k.dt.toNat = true ∨ k.dt.toNat = s.csi p.val 51 46 ∧ s.cameras[p].started = true ∧ k.crcOk = true)) ∧
    (∃ (s : State) (p : CamId) (k : CsiPacket), s.camOn p.val = true ∧
      k.headerErrors = 0 ∧
      k.vc.toNat = s.csi p.val 55 52 ∧
      (shortDt k.dt.toNat = true ∨ k.dt.toNat = s.csi p.val 51 46 ∧ s.cameras[p].started = true ∧ k.crcOk = true)) ∧
    (∃ (s : State) (p : CamId) (k : CsiPacket), s.camOn p.val = true ∧
      k.headerErrors = 1 ∧
      k.vc.toNat = s.csi p.val 55 52 ∧
      k.dt = 0) ∧
    (∃ (s : State) (p : CamId) (k : CsiPacket), s.camOn p.val = true ∧
      k.headerErrors = 1 ∧
      k.vc.toNat = s.csi p.val 55 52 ∧
      k.dt ≠ 0 ∧
      (shortDt k.dt.toNat = true ∨ k.dt.toNat = s.csi p.val 51 46 ∧ s.cameras[p].started = true ∧ k.crcOk = true)) ∧
    (∃ (s : State) (p : CamId) (k : CsiPacket), s.camOn p.val = true ∧
      k.headerErrors = 1 ∧
      k.vc.toNat = s.csi p.val 55 52 ∧
      k.dt ≠ 0 ∧
      (shortDt k.dt.toNat = true ∨ k.dt.toNat = s.csi p.val 51 46 ∧ s.cameras[p].started = true ∧ k.crcOk = true)) ∧
    (∃ (s : State) (p : CamId) (k : CsiPacket) (f : Frame), s.camOn p.val = true ∧
      k.headerErrors = 0 ∧
      k.vc.toNat = s.csi p.val 55 52 ∧
      4 ≤ k.dt.toNat ∧
      k.dt.toNat = s.csi p.val 51 46 ∧
      s.cameras[p].started = true ∧
      k.crcOk = false ∧
      s.cameras[p].frame = some f) :=
  ⟨⟨(regs (camOp 16) [(Ob.key .csiConfig 1 0 0, 0)]), .burlyn, 1, (BitVec.ofNat 64 (2 * 2 ^ 52 + 0x2A * 2 ^ 46 + 16 * 2 ^ 32 + 16 * 2 ^ 18 + 1)),
     by decide +kernel, by decide +kernel, by decide +kernel, by decide +kernel⟩,
   ⟨(withFrame (frame [] []) (camOp 16)), .host, 1, (BitVec.ofNat 64 (2 * 2 ^ 52 + 0x2A * 2 ^ 46 + 16 * 2 ^ 32 + 16 * 2 ^ 18 + 1) - 1),
     by decide +kernel, by decide +kernel, by decide +kernel, by decide +kernel⟩,
   ⟨(camOp 16), .host, 1, (BitVec.ofNat 64 (2 * 2 ^ 52 + 0x2A * 2 ^ 46 + 16 * 2 ^ 32 + 16 * 2 ^ 18 + 1) - 1),
     by decide +kernel, by decide +kernel, by decide +kernel, by decide +kernel⟩,
   ⟨({ op with grade := .c64 }), 7, true,
     by decide +kernel⟩,
   ⟨op, 15, false,
     by decide +kernel⟩,
   ⟨op, 15,
     by decide +kernel⟩,
   ⟨(camOp 16), 1, (packetOf 0 3 0x2A true),
     by decide +kernel, by decide +kernel, by decide +kernel⟩,
   ⟨(camOp 16), 1, (packetOf 0 2 0x2A true),
     by decide +kernel, by decide +kernel, by decide +kernel, by decide +kernel, by decide +kernel⟩,
   ⟨(withFrame (frame [] []) (camOp 16)), 1, (packetOf 0 2 0x2B true),
     by decide +kernel, by decide +kernel, by decide +kernel, by decide +kernel, by decide +kernel⟩,
   ⟨(withFrame (frame [] []) (camOp 16)), 1, (packetOf 2 2 0x2A true),
     by decide +kernel, by decide +kernel⟩,
   ⟨(camOp 16), 1, (packetOf 2 3 0 true),
     by decide +kernel, by decide +kernel⟩,
   ⟨op, 3, (packetOf 0 2 0x2A true),
     by decide +kernel⟩,
   ⟨(withFrame (frame [] []) (camOp 16)), 1, (packetOf 0 2 0x2A true),
     by decide +kernel, by decide +kernel, by decide +kernel, by decide +kernel⟩,
   ⟨(camOp 16), 1, (packetOf 0 2 3 false),
     by decide +kernel, by decide +kernel, by decide +kernel, by decide +kernel⟩,
   ⟨(camOp 16), 1, (packetOf 1 2 0 true),
     by decide +kernel, by decide +kernel, by decide +kernel, by decide +kernel⟩,
   ⟨(withFrame (frame [] []) (camOp 16)), 1, (packetOf 1 2 0x2A true),
     by decide +kernel, by decide +kernel, by decide +kernel, by decide +kernel, by decide +kernel⟩,
   ⟨(camOp 16), 1, (packetOf 1 2 1 false),
     by decide +kernel, by decide +kernel, by decide +kernel, by decide +kernel, by decide +kernel⟩,
   ⟨(withFrame (frame [[1]] []) (camOp 16)), 1, (packetOf 0 2 0x2A false), (frame [[1]] []),
     by decide +kernel, by decide +kernel, by decide +kernel, by decide +kernel, by decide +kernel, by decide +kernel, by decide +kernel, by decide +kernel⟩⟩


theorem witness_FramesPassThePipeline :
    (∃ (s : State) (u : State) (p : CamId) (b : BoughId) (q : HqPos) (i : Nat) (rest : List Nat) (bs : List Byte), s.camOn p.val = true ∧
      s.cameras[p].frame = none ∧
      s.camQueue p.val = (b, q) ∧
      s.boughs[b].state.inReset = false ∧
      s.boughs[b].state ≠ .down ∧
      (s.asking b q).length + (s.reserving b q).length < (s.hq b q).free.length ∧
      (s.hq b q).free = i :: rest ∧
      s.readMem (.media 0) (s.regN .ipipeParamAddr p.val) 640 = (.ok bs, u)) ∧
    (∃ (s : State) (p : CamId) (b : BoughId) (q : HqPos), s.camOn p.val = true ∧
      s.cameras[p].frame = none ∧
      s.camQueue p.val = (b, q) ∧
      (s.boughs[b].state.inReset = true ∨ s.boughs[b].state = .down ∨ (s.hq b q).free.length ≤ (s.asking b q).length + (s.reserving b q).length)) ∧
    (∃ (s : State) (p : CamId) (b : BoughId) (q : HqPos), s.camOn p.val = true ∧
      s.cameras[p].frame = none ∧
      s.camQueue p.val = (b, q) ∧
      (s.boughs[b].state.inReset = true ∨ s.boughs[b].state = .down ∨ (s.hq b q).free.length ≤ (s.asking b q).length + (s.reserving b q).length)) ∧
    (∃ (s : State) (p : CamId), s.camOn p.val = true ∧
      (s.cameras[p].frame).isSome = true) ∧
    (∃ (s : State) (p : CamId), s.camOn p.val = true ∧
      (s.cameras[p].frame).isSome = true) ∧
    (∃ (s : State) (p : CamId) (f : Frame) (px : List (BitVec 16)), s.cameras[p].frame = some f ∧
      s.camOn p.val = true ∧
      px.length = s.csi p.val 45 32 * codesPerPixel (s.csi p.val 51 46) ∧
      f.stored.length < (Config.lineStoreLines (s.csi p.val 51 46)).val + 1) ∧
    (∃ (s : State) (p : CamId) (f : Frame) (px : List (BitVec 16)), s.cameras[p].frame = some f ∧
      s.camOn p.val = true ∧
      px.length = s.csi p.val 45 32 * codesPerPixel (s.csi p.val 51 46) ∧
      (Config.lineStoreLines (s.csi p.val 51 46)).val + 1 ≤ f.stored.length) ∧
    (∃ (s : State) (p : CamId) (f : Frame) (px : List (BitVec 16)), s.cameras[p].frame = some f ∧
      s.camOn p.val = true ∧
      px.length ≠ s.csi p.val 45 32 * codesPerPixel (s.csi p.val 51 46)) ∧
    (∃ (s : State) (q : Fin 2) (p : CamId) (rest : List CamId) (f : Frame) (l : List (BitVec 16)) (more : List (List (BitVec 16))) (n : Nat), s.pipes[q].order = p :: rest ∧
      s.cameras[p].frame = some f ∧
      f.stored = l :: more ∧
      (n = if (s.frameBase p f).1 < 2 ^ 37 then s.lineBytes p f.lines.length else 0)) ∧
    (∃ (s : State) (q : Fin 2) (p : CamId) (rest : List CamId) (f : Frame) (l : List (BitVec 16)) (more : List (List (BitVec 16))) (n : Nat), s.pipes[q].order = p :: rest ∧
      s.cameras[p].frame = some f ∧
      f.stored = l :: more ∧
      (n = if (s.frameBase p f).1 < 2 ^ 37 then s.lineBytes p f.lines.length else 0)) ∧
    (∃ (s : State) (q : Fin 2) (p : CamId) (rest : List CamId) (f : Frame) (l : List (BitVec 16)) (more : List (List (BitVec 16))) (n : Nat), s.pipes[q].order = p :: rest ∧
      s.cameras[p].frame = some f ∧
      f.stored = l :: more ∧
      (n = if (s.frameBase p f).1 < 2 ^ 37 then s.lineBytes p f.lines.length else 0)) ∧
    (∃ (s : State) (w : State) (p : CamId) (f : Frame) (b : BoughId) (q : HqPos), s.cameras[p].frame = some f ∧
      s.camOn p.val = true ∧
      f.stored = [] ∧
      f.lines.length = s.csi p.val 31 18 ∧
      s.pipes[(s.pipeOf p.val)].order.contains p = false ∧
      s.camQueue p.val = (b, q) ∧
      s.boughs[b].state.inReset = false ∧
      (s.writeCopy p f).mediaWrites (.media (s.frameBase p f).2) (s.frameBase p f).1 [(0, frameHeader f.fsTime s.now f.count p.val f.eccFixed (s.csi p.val 45 32) (s.csi p.val 31 18) (s.ipc p.val 17 15 + 1) (s.ipc p.val 20 18))] = (none, w)) ∧
    (∃ (s : State) (w : State) (p : CamId) (f : Frame) (b : BoughId) (q : HqPos), s.cameras[p].frame = some f ∧
      s.camOn p.val = true ∧
      f.stored = [] ∧
      f.lines.length = s.csi p.val 31 18 ∧
      s.pipes[(s.pipeOf p.val)].order.contains p = false ∧
      s.camQueue p.val = (b, q) ∧
      s.boughs[b].state.inReset = false ∧
      (s.writeCopy p f).mediaWrites (.media (s.frameBase p f).2) (s.frameBase p f).1 [(0, frameHeader f.fsTime s.now f.count p.val f.eccFixed (s.csi p.val 45 32) (s.csi p.val 31 18) (s.ipc p.val 17 15 + 1) (s.ipc p.val 20 18))] = (none, w)) ∧
    (∃ (s : State) (p : CamId) (f : Frame), s.cameras[p].frame = some f ∧
      s.camOn p.val = true ∧
      f.lines.length + f.stored.length ≠ s.csi p.val 31 18) :=
  ⟨⟨({ camOp 16 with cameras := upd op.cameras 1 fun c => { c with fixedPending := true } }), ({ camOp 16 with cameras := upd op.cameras 1 fun c => { c with fixedPending := true } }), 1, 0, 3, 0, ([1]), (List.replicate 640 0),
     by decide +kernel, by decide +kernel, by rfl, by decide +kernel, by decide +kernel, by decide +kernel, by decide +kernel, pair_of (ok_of (by decide +kernel))⟩,
   ⟨(regs (camOp 16) [(Ob.key .ipipePortConfig 1 0 0, 4 * 2 ^ 7)]), 1, 0, 4,
     by decide +kernel, by decide +kernel, by rfl, by decide +kernel⟩,
   ⟨(withJobs [{ aJob with post := some (0, 3) }, { aJob with seq := 10, post := some (0, 3) }] (camOp 16)), 1, 0, 3,
     by decide +kernel, by decide +kernel, by rfl, by decide +kernel⟩,
   ⟨(withFrame (frame [] []) (camOp 16)), 1,
     by decide +kernel, by decide +kernel⟩,
   ⟨(withFrame (frame [[]] [[7]]) (camOp 16)), 1,
     by decide +kernel, by decide +kernel⟩,
   ⟨(withFrame (frame [] []) (camOp 16)), 1, (frame [] []), (List.replicate 16 7),
     by decide +kernel, by decide +kernel, by decide +kernel, Nat.lt_of_lt_of_le (Nat.succ_pos _) (Nat.le_refl _)⟩,
   ⟨(withFrame (frame (List.replicate 100 []) []) (camOp 16)), 1, (frame (List.replicate 100 []) []), (List.replicate 16 7),
     by decide +kernel, by decide +kernel, by decide +kernel, Nat.le_trans (Nat.succ_le_of_lt (Fin.isLt _)) (by decide)⟩,
   ⟨(withFrame (frame [] []) (camOp 16)), 1, (frame [] []), (List.replicate 15 7),
     by decide +kernel, by decide +kernel, by decide +kernel⟩,
   ⟨({ withFrame (frame [List.replicate 16 7, []] []) (camOp 16) with pipes := #v[{ fill := 131072, order := [1] }, {}] }), 0, 1, ([]), (frame [List.replicate 16 7, []] []), (List.replicate 16 7), ([[]]), 0,
     by decide +kernel, by decide +kernel, by decide +kernel, by decide +kernel⟩,
   ⟨({ withFrame (frame [List.replicate 16 7] []) (camOp 16) with pipes := #v[{ fill := 5, order := [1, 4] }, {}], boughs := upd (withFrame (frame [] []) (camOp 16)).boughs 0 fun x => { x with hqs := upd x.hqs 3 fun q => { q with base := 0x200000 } } }), 0, 1, ([4]), (frame [List.replicate 16 7] []), (List.replicate 16 7), ([]), 16,
     by decide +kernel, by decide +kernel, by decide +kernel, by decide +kernel⟩,
   ⟨({ withFrame (frame [List.replicate 16 7] []) (camOp 16) with pipes := #v[{ fill := 131057, order := [1, 4] }, {}], boughs := upd (withFrame (frame [] []) (camOp 16)).boughs 0 fun x => { x with hqs := upd x.hqs 3 fun q => { q with base := 0x200000 } } }), 0, 1, ([4]), (frame [List.replicate 16 7] []), (List.replicate 16 7), ([]), 16,
     by decide +kernel, by decide +kernel, by decide +kernel, by decide +kernel⟩,
   ⟨(withFrame (frame [] [List.replicate 16 7]) (camOp 1)), ((let s : State := withFrame (frame [] [List.replicate 16 7]) (camOp 1); let f : Frame := frame [] [List.replicate 16 7]; ((s.writeCopy 1 f).mediaWrites (.media (s.frameBase 1 f).2) (s.frameBase 1 f).1 [(0, frameHeader f.fsTime s.now f.count 1 f.eccFixed (s.csi 1 45 32) (s.csi 1 31 18) (s.ipc 1 17 15 + 1) (s.ipc 1 20 18))]).2)), 1, (frame [] [List.replicate 16 7]), 0, 3,
     by decide +kernel, by decide +kernel, by decide +kernel, by decide +kernel, by decide +kernel, by rfl, by decide +kernel, pair_of (by decide +kernel)⟩,
   ⟨(withFrame ({ frame [] [List.replicate 16 7] with logSlot := some 1 }) { regs (camOp 1) [(Ob.key .encConfig 1 0 0, 1), (Ob.key .encPicRing 1 0 0, 0x4200090000)] with encoders := op.encoders.set 1 { slotSize := 0x1000 } }), ((let s : State := withFrame ({ frame [] [List.replicate 16 7] with logSlot := some 1 }) { regs (camOp 1) [(Ob.key .encConfig 1 0 0, 1), (Ob.key .encPicRing 1 0 0, 0x4200090000)] with encoders := op.encoders.set 1 { slotSize := 0x1000 } }; let f : Frame := { frame [] [List.replicate 16 7] with logSlot := some 1 }; ((s.writeCopy 1 f).mediaWrites (.media (s.frameBase 1 f).2) (s.frameBase 1 f).1 [(0, frameHeader f.fsTime s.now f.count 1 f.eccFixed (s.csi 1 45 32) (s.csi 1 31 18) (s.ipc 1 17 15 + 1) (s.ipc 1 20 18))]).2)), 1, ({ frame [] [List.replicate 16 7] with logSlot := some 1 }), 0, 3,
     by decide +kernel, by decide +kernel, by decide +kernel, by decide +kernel, by decide +kernel, by rfl, by decide +kernel, pair_of (by decide +kernel)⟩,
   ⟨(withFrame (frame [[]] [List.replicate 16 7]) (camOp 1)), 1, (frame [[]] [List.replicate 16 7]),
     by decide +kernel, by decide +kernel, by decide +kernel⟩⟩


theorem witness_CameraControlAndFrameSync :
    (∃ (s : State) (r : Requester) (i : Fin 8) (data : List Byte), s.serves r = true ∧
      data.length = 36 ∧
      Safety.Commits (s.updBlk r fun b => b.put 0 data) r ⟨BitVec.ofNat 16 (Ob.i2cXfer.index i.val 0), BitVec.ofNat 8 (Ob.i2cXfer.subindex 0), 0, 0, 36, none⟩ ⟨⟨.i2cXfer, i.val, 0, 0⟩, none⟩ true) ∧
    (∃ (s : State) (r : Requester) (i : Fin 8) (data : List Byte), s.serves r = true ∧
      data.length = 36 ∧
      Safety.Commits (s.updBlk r fun b => b.put 0 data) r ⟨BitVec.ofNat 16 (Ob.i2cXfer.index i.val 0), BitVec.ofNat 8 (Ob.i2cXfer.subindex 0), 0, 0, 36, none⟩ ⟨⟨.i2cXfer, i.val, 0, 0⟩, none⟩ true) ∧
    (∃ (s : State) (i : Fin 8) (code : I2cCode) (count : Byte) (data : List Byte), s.i2c[i].state = .busy ∧
      (s.i2c[i]).endsAt code count.toNat = true) ∧
    (∃ (s : State) (i : Fin 8) (code : I2cCode) (count : Byte) (data : List Byte), s.i2c[i].state = .busy ∧
      (s.i2c[i]).endsAt code count.toNat = true) ∧
    (∃ (s : State) (i : Fin 8) (count : Byte), s.i2c[i].state = .busy ∧
      25000000 ≤ (s.now - s.i2c[i].began).toNat ∧
      count.toNat ≤ (s.i2c[i].xfer.getD 1 0).toNat + (s.i2c[i].xfer.getD 2 0).toNat) ∧
    (∃ (s : State) (f : Fin 16), s.fsync[f].boundary s.now = true ∧
      s.fsync[f].writes = [] ∧
      s.fsync[f].since ≠ s.now) ∧
    (∃ (s : State) (f : Fin 16) (w : FsWrite), s.fsync[f].boundary s.now = true ∧
      (s.fsync[f].writes.filter fun w => w.time ≠ s.now).getLast? = some w ∧
      (w.period ≠ 0 ∨ (s.fsync[f].writes.filter fun w => w.time = s.now) = [])) ∧
    (∃ (s : State) (f : Fin 16) (w : FsWrite), s.fsync[f].boundary s.now = true ∧
      (s.fsync[f].writes.filter fun w => w.time ≠ s.now).getLast? = some w ∧
      (w.period ≠ 0 ∨ (s.fsync[f].writes.filter fun w => w.time = s.now) = [])) ∧
    (∃ (s : State) (f : Fin 16) (w : FsWrite) (v : FsWrite), s.fsync[f].boundary s.now = true ∧
      (s.fsync[f].writes.filter fun w => w.time ≠ s.now).getLast? = some w ∧
      w.period = 0 ∧
      (s.fsync[f].writes.filter fun w => w.time = s.now).getLast? = some v) ∧
    (∃ (s : State) (f : Fin 16), s.fsync[f].boundary s.now = false) ∧
    (∃ (s : State) (f : Fin 16), s.fsync[f].boundary s.now = false) ∧
    (∃ (s : State) (f : Fin 16) (e : BitVec 64), s.fsync[f].pulseEnd = some e ∧
      e.toNat ≤ s.now.toNat) :=
  ⟨⟨op, .burlyn, 7, ([0x10, 1, 0] ++ List.replicate 33 0),
     by decide +kernel, by decide +kernel, by decide +kernel⟩,
   ⟨op, .host, 7, ([0x10, 0, 1] ++ List.replicate 33 0),
     by decide +kernel, by decide +kernel, by decide +kernel⟩,
   ⟨({ op with i2c := op.i2c.set 7 { state := .busy, xfer := [0x10, 2, 3] ++ List.replicate 33 0 } }), 7, .ok, 5, ([1, 2, 3, 4]),
     by decide +kernel, by decide +kernel⟩,
   ⟨({ op with i2c := op.i2c.set 7 { state := .busy, xfer := [0x10, 2, 3] ++ List.replicate 33 0 } }), 7, .busStuck, 0, ([1, 2, 3, 4]),
     by decide +kernel, by decide +kernel⟩,
   ⟨({ op with i2c := op.i2c.set 7 { state := .busy, xfer := [0x10, 0, 3] ++ List.replicate 33 0, began := 1000000 - 25000000 } }), 7, 2,
     by decide +kernel, by decide +kernel, by decide +kernel⟩,
   ⟨({ op with fsync := op.fsync.set 4 { period := 1000, phase := 0, width := 10, epoch := 0, level := false } }), 4,
     by decide +kernel, by decide +kernel, by decide +kernel⟩,
   ⟨({ op with fsync := op.fsync.set 4 { period := 1000, phase := 0, width := 10, epoch := 0, writes := [{ time := 999000, period := 500, phase := 1, width := 2, epoch := 3 }] } }), 4, ({ time := 999000, period := 500, phase := 1, width := 2, epoch := 3 }),
     by decide +kernel, by decide +kernel, by decide +kernel⟩,
   ⟨({ op with fsync := op.fsync.set 4 { period := 1000, phase := 0, width := 10, epoch := 0, writes := [{ time := 999000, period := 500, phase := 1, width := 2, epoch := 3 }, { time := 999000, period := 0, phase := 1, width := 2, epoch := 3 }] } }), 4, ({ time := 999000, period := 0, phase := 1, width := 2, epoch := 3 }),
     by decide +kernel, by decide +kernel, by decide +kernel⟩,
   ⟨({ op with fsync := op.fsync.set 4 { period := 1000, phase := 0, width := 10, epoch := 0, writes := [{ time := 999000, period := 0, phase := 1, width := 2, epoch := 3 }, { time := 1000000, period := 700, phase := 3, width := 4, epoch := 5 }] } }), 4, ({ time := 999000, period := 0, phase := 1, width := 2, epoch := 3 }), ({ time := 1000000, period := 700, phase := 3, width := 4, epoch := 5 }),
     by decide +kernel, by decide +kernel, by decide +kernel, by decide +kernel⟩,
   ⟨({ op with fsync := op.fsync.set 4 { period := 7, phase := 0, width := 10, epoch := 0, level := false } }), 4,
     by decide +kernel⟩,
   ⟨op, 0,
     by decide +kernel⟩,
   ⟨({ op with fsync := op.fsync.set 4 { period := 1000, phase := 0, width := 10, epoch := 0, level := true, pulseEnd := some 1000000 } }), 4, 1000000,
     by decide +kernel, by decide +kernel⟩⟩

def ex_EncoderStreamsCodePictures_1_0_s : State := { regs encOp [(Ob.key .encConfig 1 0 0, 1)] with encoders := op.encoders.set 1 { slotSize := 2048, waiting := [⟨0, 5, 9, 6⟩, ⟨1, 6, 10, 7⟩] } }

def ex_EncoderStreamsCodePictures_2_0_s : State := { regs encOp [(Ob.key .encConfig 1 0 0, 1), (Ob.key .encBsSize 1 0 0, 2048)] with encoders := op.encoders.set 1 { slotSize := 2048, waiting := [⟨0, 5, 9, 6⟩, ⟨1, 6, 10, 7⟩] } }

def ex_EncoderStreamsCodePictures_2_0_u : State := ((ex_EncoderStreamsCodePictures_2_0_s).readMem (.codec 0) 0x200000 2048).2

def ex_EncoderStreamsCodePictures_2_0_v : State := (({ ex_EncoderStreamsCodePictures_2_0_u with free := ex_EncoderStreamsCodePictures_2_0_u.free + 1 } : State).auRecord ⟨0, 5, 9, 6⟩ (ex_EncoderStreamsCodePictures_2_0_s.encoders[(1 : Fin 16)].forceIdr || bits (ex_EncoderStreamsCodePictures_2_0_s.reg .encConfig 1) 47 38 + 1 ≤ ex_EncoderStreamsCodePictures_2_0_s.encoders[(1 : Fin 16)].sinceIdr) (Config.accessUnit ex_EncoderStreamsCodePictures_2_0_u.free (ex_EncoderStreamsCodePictures_2_0_s.encoders[(1 : Fin 16)].forceIdr || bits (ex_EncoderStreamsCodePictures_2_0_s.reg .encConfig 1) 47 38 + 1 ≤ ex_EncoderStreamsCodePictures_2_0_s.encoders[(1 : Fin 16)].sinceIdr))).2

def ex_EncoderStreamsCodePictures_2_0_w : State := (ex_EncoderStreamsCodePictures_2_0_v.drawBytes ex_EncoderStreamsCodePictures_2_0_s.encoders[(1 : Fin 16)].slotSize).2

def ex_EncoderStreamsCodePictures_2_0_x : State := (ex_EncoderStreamsCodePictures_2_0_w.mediaWrites (.codec 0) (0x200000 + 4 * 2048) [(0, (ex_EncoderStreamsCodePictures_2_0_v.drawBytes ex_EncoderStreamsCodePictures_2_0_s.encoders[(1 : Fin 16)].slotSize).1)]).2

def ex_EncoderStreamsCodePictures_2_0_rest : List LogCopy := [⟨1, 6, 10, 7⟩]

def ex_EncoderStreamsCodePictures_2_0_bs : List Byte := okOr [] ((ex_EncoderStreamsCodePictures_2_0_s).readMem (.codec 0) 0x200000 2048).1

def ex_EncoderStreamsCodePictures_2_0_bytes : List Byte := (({ ex_EncoderStreamsCodePictures_2_0_u with free := ex_EncoderStreamsCodePictures_2_0_u.free + 1 } : State).auRecord ⟨0, 5, 9, 6⟩ (ex_EncoderStreamsCodePictures_2_0_s.encoders[(1 : Fin 16)].forceIdr || bits (ex_EncoderStreamsCodePictures_2_0_s.reg .encConfig 1) 47 38 + 1 ≤ ex_EncoderStreamsCodePictures_2_0_s.encoders[(1 : Fin 16)].sinceIdr) (Config.accessUnit ex_EncoderStreamsCodePictures_2_0_u.free (ex_EncoderStreamsCodePictures_2_0_s.encoders[(1 : Fin 16)].forceIdr || bits (ex_EncoderStreamsCodePictures_2_0_s.reg .encConfig 1) 47 38 + 1 ≤ ex_EncoderStreamsCodePictures_2_0_s.encoders[(1 : Fin 16)].sinceIdr))).1

def ex_EncoderStreamsCodePictures_2_0_recon : List Byte := (ex_EncoderStreamsCodePictures_2_0_v.drawBytes ex_EncoderStreamsCodePictures_2_0_s.encoders[(1 : Fin 16)].slotSize).1

def ex_EncoderStreamsCodePictures_3_0_s : State := { regs encOp [(Ob.key .encConfig 1 0 0, 1), (Ob.key .encBsSize 1 0 0, 0)] with encoders := op.encoders.set 1 { slotSize := 2048, waiting := [⟨0, 5, 9, 6⟩, ⟨1, 6, 10, 7⟩] } }

def ex_EncoderStreamsCodePictures_3_0_u : State := ((ex_EncoderStreamsCodePictures_3_0_s).readMem (.codec 0) 0x200000 2048).2

def ex_EncoderStreamsCodePictures_3_0_v : State := (({ ex_EncoderStreamsCodePictures_3_0_u with free := ex_EncoderStreamsCodePictures_3_0_u.free + 1 } : State).auRecord ⟨0, 5, 9, 6⟩ (ex_EncoderStreamsCodePictures_3_0_s.encoders[(1 : Fin 16)].forceIdr || bits (ex_EncoderStreamsCodePictures_3_0_s.reg .encConfig 1) 47 38 + 1 ≤ ex_EncoderStreamsCodePictures_3_0_s.encoders[(1 : Fin 16)].sinceIdr) (Config.accessUnit ex_EncoderStreamsCodePictures_3_0_u.free (ex_EncoderStreamsCodePictures_3_0_s.encoders[(1 : Fin 16)].forceIdr || bits (ex_EncoderStreamsCodePictures_3_0_s.reg .encConfig 1) 47 38 + 1 ≤ ex_EncoderStreamsCodePictures_3_0_s.encoders[(1 : Fin 16)].sinceIdr))).2

def ex_EncoderStreamsCodePictures_3_0_rest : List LogCopy := [⟨1, 6, 10, 7⟩]

def ex_EncoderStreamsCodePictures_3_0_bs : List Byte := okOr [] ((ex_EncoderStreamsCodePictures_3_0_s).readMem (.codec 0) 0x200000 2048).1

def ex_EncoderStreamsCodePictures_3_0_bytes : List Byte := (({ ex_EncoderStreamsCodePictures_3_0_u with free := ex_EncoderStreamsCodePictures_3_0_u.free + 1 } : State).auRecord ⟨0, 5, 9, 6⟩ (ex_EncoderStreamsCodePictures_3_0_s.encoders[(1 : Fin 16)].forceIdr || bits (ex_EncoderStreamsCodePictures_3_0_s.reg .encConfig 1) 47 38 + 1 ≤ ex_EncoderStreamsCodePictures_3_0_s.encoders[(1 : Fin 16)].sinceIdr) (Config.accessUnit ex_EncoderStreamsCodePictures_3_0_u.free (ex_EncoderStreamsCodePictures_3_0_s.encoders[(1 : Fin 16)].forceIdr || bits (ex_EncoderStreamsCodePictures_3_0_s.reg .encConfig 1) 47 38 + 1 ≤ ex_EncoderStreamsCodePictures_3_0_s.encoders[(1 : Fin 16)].sinceIdr))).1

def ex_EncoderStreamsCodePictures_4_0_s : State := { regs encOp [(Ob.key .encConfig 1 0 0, 1), (Ob.key .encBsWrite 1 0 0, 2048)] with encoders := op.encoders.set 1 { slotSize := 2048, forceIdr := false, waiting := [⟨0, 5, 9, 6⟩] } }

def ex_EncoderStreamsCodePictures_4_1_s : State := { regs encOp [(Ob.key .encConfig 1 0 0, 1), (Ob.key .encBsWrite 1 0 0, 2048)] with encoders := op.encoders.set 1 { slotSize := 2048, forceIdr := false, waiting := [⟨0, 5, 9, 6⟩] } }

theorem witness_EncoderStreamsCodePictures_0 : (∃ (s : State) (r : Requester) (i : Fin 16) (v : Word), Safety.Writes s r .encConfig i.val 0 0 v ∧
      encConfigCodes i.val v.toNat s = [] ∧
      (s.reg .encConfig i.val).getLsbD 0 = false ∧
      v.getLsbD 0 = true) :=
  ⟨encOp, .burlyn, 1, 1,
     by decide +kernel, by decide +kernel, by decide +kernel, by decide +kernel⟩

theorem witness_EncoderStreamsCodePictures_1 : (∃ (s : State) (r : Requester) (i : Fin 16) (v : Word), Safety.Writes s r .encConfig i.val 0 0 v ∧
      encConfigCodes i.val v.toNat s = [] ∧
      (s.reg .encConfig i.val).getLsbD 0 = false ∧
      v.getLsbD 0 = true) :=
  ⟨encOp, .burlyn, 1, 0x2000000001,
     by decide +kernel, by decide +kernel, by decide +kernel, by decide +kernel⟩

theorem witness_EncoderStreamsCodePictures_2 : (∃ (s : State) (r : Requester) (i : Fin 16) (v : Word), Safety.Writes s r .encConfig i.val 0 0 v ∧
      encConfigCodes i.val v.toNat s = [] ∧
      (s.reg .encConfig i.val).getLsbD 0 = true ∧
      v.getLsbD 0 = false) :=
  ⟨ex_EncoderStreamsCodePictures_1_0_s, .host, 1, 0,
     by decide +kernel, by decide +kernel, by decide +kernel, by decide +kernel⟩

theorem witness_EncoderStreamsCodePictures_3 : (
      let oldest := fun (s : State) (i : Fin 16) (c : LogCopy) (rest : List LogCopy) =>
        s.encoders[i].waiting = c :: rest ∧ (s.reg .encConfig i.val).getLsbD 0 = true ∧ s.ready rEncoder = true ∧
        ∀ j : Fin 16, ∀ d ∈ s.encoders[j].waiting, c.arrived.toNat ≤ d.arrived.toNat
      let claim := fun (s : State) (i : Fin 16) => (Fin.ofNat 16 (bits (s.reg .encConfig i.val) 27 24) : ClaimId)
      let pic := fun (s : State) (i : Fin 16) (n : Nat) => bits (s.reg .encPicRing i.val) 47 0 + n * s.encoders[i].slotSize
      let idr := fun (s : State) (i : Fin 16) => s.encoders[i].forceIdr || bits (s.reg .encConfig i.val) 47 38 + 1 ≤ s.encoders[i].sinceIdr
      ∃ (s : State) (u : State) (v : State) (w : State) (x : State) (i : Fin 16) (c : LogCopy) (rest : List LogCopy) (bs : List Byte) (bytes : List Byte) (recon : List Byte), ∀ (y : State), s.regN .encBsWrite i.val - s.regN .encBsRead i.val + bytes.length ≤ s.regN .encBsSize i.val →
      x.ringWrite (claim s i) (s.regN .encBsBase i.val) (s.regN .encBsSize i.val) (s.regN .encBsWrite i.val) bytes = (none, y) →
      oldest s i c rest ∧
      s.readMem (.codec (claim s i)) (pic s i c.slot) s.encoders[i].slotSize = (.ok bs, u) ∧
      ({ u with free := u.free + 1 } : State).auRecord c (idr s i) (Config.accessUnit u.free (idr s i)) = (bytes, v) ∧
      v.drawBytes s.encoders[i].slotSize = (recon, w) ∧
      w.mediaWrites (.codec (claim s i)) (pic s i (4 + s.encoders[i].coded % 2)) [(0, recon)] = (none, x)) :=
  by
      dsimp only
      exact ⟨ex_EncoderStreamsCodePictures_2_0_s, ex_EncoderStreamsCodePictures_2_0_u, ex_EncoderStreamsCodePictures_2_0_v, ex_EncoderStreamsCodePictures_2_0_w, ex_EncoderStreamsCodePictures_2_0_x, 1, (⟨0, 5, 9, 6⟩), ex_EncoderStreamsCodePictures_2_0_rest, ex_EncoderStreamsCodePictures_2_0_bs, ex_EncoderStreamsCodePictures_2_0_bytes, ex_EncoderStreamsCodePictures_2_0_recon,
     fun _ _ _ => ⟨by decide +kernel, pair_of (ok_okOr (by decide +kernel)), pair_of rfl, pair_of rfl, pair_of (by decide +kernel)⟩⟩

theorem witness_EncoderStreamsCodePictures_4 : (
      let oldest := fun (s : State) (i : Fin 16) (c : LogCopy) (rest : List LogCopy) =>
        s.encoders[i].waiting = c :: rest ∧ (s.reg .encConfig i.val).getLsbD 0 = true ∧ s.ready rEncoder = true ∧
        ∀ j : Fin 16, ∀ d ∈ s.encoders[j].waiting, c.arrived.toNat ≤ d.arrived.toNat
      let claim := fun (s : State) (i : Fin 16) => (Fin.ofNat 16 (bits (s.reg .encConfig i.val) 27 24) : ClaimId)
      let pic := fun (s : State) (i : Fin 16) (n : Nat) => bits (s.reg .encPicRing i.val) 47 0 + n * s.encoders[i].slotSize
      let idr := fun (s : State) (i : Fin 16) => s.encoders[i].forceIdr || bits (s.reg .encConfig i.val) 47 38 + 1 ≤ s.encoders[i].sinceIdr
      ∃ (s : State) (u : State) (v : State) (i : Fin 16) (c : LogCopy) (rest : List LogCopy) (bs : List Byte) (bytes : List Byte), oldest s i c rest ∧
      s.readMem (.codec (claim s i)) (pic s i c.slot) s.encoders[i].slotSize = (.ok bs, u) ∧
      ({ u with free := u.free + 1 } : State).auRecord c (idr s i) (Config.accessUnit u.free (idr s i)) = (bytes, v) ∧
      s.regN .encBsSize i.val < s.regN .encBsWrite i.val - s.regN .encBsRead i.val + bytes.length) :=
  by
      dsimp only
      exact ⟨ex_EncoderStreamsCodePictures_3_0_s, ex_EncoderStreamsCodePictures_3_0_u, ex_EncoderStreamsCodePictures_3_0_v, 1, (⟨0, 5, 9, 6⟩), ex_EncoderStreamsCodePictures_3_0_rest, ex_EncoderStreamsCodePictures_3_0_bs, ex_EncoderStreamsCodePictures_3_0_bytes,
     by decide +kernel, pair_of (ok_okOr (by decide +kernel)), pair_of rfl, Nat.lt_of_le_of_lt (by decide +kernel : _ ≤ 0) (Nat.lt_of_lt_of_le (auRecord_pos _ _ _ _) (Nat.le_add_left _ _))⟩

theorem witness_EncoderStreamsCodePictures_5 : (∃ (s : State) (r : Requester) (i : Fin 16) (v : Word), Safety.Writes s r .encBsRead i.val 0 0 v ∧
      s.regN .encBsRead i.val ≤ v.toNat ∧
      v.toNat ≤ s.regN .encBsWrite i.val) :=
  ⟨ex_EncoderStreamsCodePictures_4_0_s, .burlyn, 1, 2048,
     by decide +kernel, by decide +kernel, by decide +kernel⟩

theorem witness_EncoderStreamsCodePictures_6 : (∃ (s : State) (r : Requester) (i : Fin 16) (v : Word), Safety.Writes s r .encBsRead i.val 0 0 v ∧
      s.regN .encBsRead i.val ≤ v.toNat ∧
      v.toNat ≤ s.regN .encBsWrite i.val) :=
  ⟨ex_EncoderStreamsCodePictures_4_1_s, .burlyn, 1, 0,
     by decide +kernel, by decide +kernel, by decide +kernel⟩

def ex_DecoderCommandsPostPictures_0_0_s : State := regs decOp [(Ob.key .decTail 0 0 0, 14)]

def ex_DecoderCommandsPostPictures_0_1_s : State := regs decOp [(Ob.key .decTail 0 0 0, 14)]

def ex_DecoderCommandsPostPictures_1_0_s : State := regs decOp [(Ob.key .decTail 0 0 0, 1)]

def ex_DecoderCommandsPostPictures_1_1_s : State := wr (regs decOp [(Ob.key .decTail 0 0 0, 1)]) 0x330380 (leBytes 16 (3 * 2 ^ 96))

def ex_DecoderCommandsPostPictures_2_0_s : State := wr (regs decOp [(Ob.key .decTail 0 0 0, 1)]) 0x330380 (leBytes 64 (0x200000 + 16 * 2 ^ 64 + 2 * 2 ^ 96 + 3 * 2 ^ 104 + 3 * 2 ^ 112))

def ex_DecoderCommandsPostPictures_2_0_u : State := ((ex_DecoderCommandsPostPictures_2_0_s).readMem (.codec 0) 0x330380 64).2

def ex_DecoderCommandsPostPictures_2_0_v : State := ((ex_DecoderCommandsPostPictures_2_0_u).readMem (.codec 0) 0x200000 16).2

def ex_DecoderCommandsPostPictures_2_0_w : State := ex_DecoderCommandsPostPictures_2_0_v

def ex_DecoderCommandsPostPictures_2_0_x : State := ex_DecoderCommandsPostPictures_2_0_w

def ex_DecoderCommandsPostPictures_2_0_bs : List Byte := okOr [] ((ex_DecoderCommandsPostPictures_2_0_s).readMem (.codec 0) 0x330380 64).1

def ex_DecoderCommandsPostPictures_2_0_bits : List Byte := okOr [] ((ex_DecoderCommandsPostPictures_2_0_u).readMem (.codec 0) 0x200000 16).1

def ex_DecoderCommandsPostPictures_2_0_found : List (Nat × Nat × Nat × Nat × List Byte) := (Config.decoded 2 0 false false (ex_DecoderCommandsPostPictures_2_0_bits)).1

def ex_DecoderCommandsPostPictures_2_0_err : Option Nat := (Config.decoded 2 0 false false (ex_DecoderCommandsPostPictures_2_0_bits)).2

def ex_DecoderCommandsPostPictures_2_0_big : Option Nat := ((ex_DecoderCommandsPostPictures_2_0_s).acceptPics 2 0x10000 0 0 ex_DecoderCommandsPostPictures_2_0_found).2

def ex_DecoderCommandsPostPictures_2_0_pics : List Picture := ((ex_DecoderCommandsPostPictures_2_0_s).acceptPics 2 0x10000 0 0 ex_DecoderCommandsPostPictures_2_0_found).1

def ex_DecoderCommandsPostPictures_3_0_s : State := wr ((let s := regs decOp [(Ob.key .decTail 0 0 0, 1)]; { s with boughs := upd s.boughs 0 fun x => { x with hqs := upd x.hqs 3 fun q => { q with stride := 1 } } })) 0x330380 (leBytes 64 (0x200000 + 16 * 2 ^ 64 + 2 * 2 ^ 96 + 3 * 2 ^ 104 + 3 * 2 ^ 112))

def ex_DecoderCommandsPostPictures_3_0_u : State := ((ex_DecoderCommandsPostPictures_3_0_s).readMem (.codec 0) 0x330380 64).2

def ex_DecoderCommandsPostPictures_3_0_v : State := ((ex_DecoderCommandsPostPictures_3_0_u).readMem (.codec 0) 0x200000 16).2

def ex_DecoderCommandsPostPictures_3_0_bs : List Byte := okOr [] ((ex_DecoderCommandsPostPictures_3_0_s).readMem (.codec 0) 0x330380 64).1

def ex_DecoderCommandsPostPictures_3_0_bits : List Byte := okOr [] ((ex_DecoderCommandsPostPictures_3_0_u).readMem (.codec 0) 0x200000 16).1

def ex_DecoderCommandsPostPictures_3_0_found : List (Nat × Nat × Nat × Nat × List Byte) := (Config.decoded 2 0 false false (ex_DecoderCommandsPostPictures_3_0_bits)).1

def ex_DecoderCommandsPostPictures_3_0_err : Option Nat := (Config.decoded 2 0 false false (ex_DecoderCommandsPostPictures_3_0_bits)).2

def ex_DecoderCommandsPostPictures_3_0_big : Option Nat := (ex_DecoderCommandsPostPictures_3_0_s.acceptPics (nbits (leNat ex_DecoderCommandsPostPictures_3_0_bs) 97 96) (ex_DecoderCommandsPostPictures_3_0_s.hq (Fin.ofNat 4 (nbits (leNat ex_DecoderCommandsPostPictures_3_0_bs) 121 120)) (Fin.ofNat 32 (nbits (leNat ex_DecoderCommandsPostPictures_3_0_bs) 116 112))).stride (ex_DecoderCommandsPostPictures_3_0_s.regN .decWorkSize (Fin.ofNat 16 (nbits (leNat ex_DecoderCommandsPostPictures_3_0_bs) 107 104)).val) 0 ex_DecoderCommandsPostPictures_3_0_found).2

def ex_DecoderCommandsPostPictures_4_0_s : State := { decOp with decoder := { run := some (decRun [⟨16, 2, 0, []⟩] (some 1)) } }

def ex_DecoderCommandsPostPictures_4_0_w : State := (let s : State := ex_DecoderCommandsPostPictures_4_0_s; let p : Picture := ⟨16, 2, 0, []⟩; (s.mediaWrites (.codec s.decClaim) ((s.hq 0 3).base + 1 * (s.hq 0 3).stride) (p.rows ++ [(0, frameHeader 0 0 ((s.decoder.pictures[(Fin.ofNat 16 3)]).setWidth 32) 0 false p.width p.height 1 p.fmt)])).2)

def ex_DecoderCommandsPostPictures_4_0_r : DecRun := decRun [⟨16, 2, 0, []⟩] (some 1)

def ex_DecoderCommandsPostPictures_4_1_s : State := { decOp with decoder := { run := some (decRun [⟨16, 2, 0, []⟩, ⟨16, 2, 0, []⟩] (some 1)) } }

def ex_DecoderCommandsPostPictures_4_1_w : State := (let s : State := ex_DecoderCommandsPostPictures_4_1_s; let p : Picture := ⟨16, 2, 0, []⟩; (s.mediaWrites (.codec s.decClaim) ((s.hq 0 3).base + 1 * (s.hq 0 3).stride) (p.rows ++ [(0, frameHeader 0 0 ((s.decoder.pictures[(Fin.ofNat 16 3)]).setWidth 32) 0 false p.width p.height 1 p.fmt)])).2)

def ex_DecoderCommandsPostPictures_4_1_r : DecRun := decRun [⟨16, 2, 0, []⟩, ⟨16, 2, 0, []⟩] (some 1)

def ex_DecoderCommandsPostPictures_4_1_rest : List Picture := [⟨16, 2, 0, []⟩]

theorem witness_DecoderCommandsPostPictures_0 : (∃ (s : State) (r : Requester) (v : Word), Safety.Writes s r .decTail 0 0 0 v ∧
      decCodes .decTail v.toNat s = []) :=
  ⟨ex_DecoderCommandsPostPictures_0_0_s, .host, 13,
     by decide +kernel, by decide +kernel⟩

theorem witness_DecoderCommandsPostPictures_1 : (∃ (s : State) (r : Requester) (v : Word), Safety.Writes s r .decTail 0 0 0 v ∧
      decCodes .decTail v.toNat s = []) :=
  ⟨ex_DecoderCommandsPostPictures_0_1_s, .host, 14,
     by decide +kernel, by decide +kernel⟩

theorem witness_DecoderCommandsPostPictures_2 : (∃ (s : State), s.decoder.run = none ∧
      s.reg .decHead ≠ s.reg .decTail ∧
      s.ready rDecoder = true) :=
  ⟨ex_DecoderCommandsPostPictures_1_0_s,
     by decide +kernel, by decide +kernel, by decide +kernel⟩

theorem witness_DecoderCommandsPostPictures_3 : (∃ (s : State), s.decoder.run = none ∧
      s.reg .decHead ≠ s.reg .decTail ∧
      s.ready rDecoder = true) :=
  ⟨ex_DecoderCommandsPostPictures_1_1_s,
     by decide +kernel, by decide +kernel, by decide +kernel⟩

theorem witness_DecoderCommandsPostPictures_4 : (
      let commands := fun (s : State) (bs : List Byte) (u : State) => s.decoder.run = none ∧ s.reg .decHead ≠ s.reg .decTail ∧
        s.ready rDecoder = true ∧ s.readMem (.codec s.decClaim) (s.regN .decRingBase + s.regN .decHead * 64) 64 = (.ok bs, u) ∧
        nbits (leNat bs) 97 96 ≠ 3
      let op := fun (bs : List Byte) => nbits (leNat bs) 97 96
      let st := fun (bs : List Byte) => (Fin.ofNat 16 (nbits (leNat bs) 107 104) : Fin 16)
      let b := fun (bs : List Byte) => (Fin.ofNat 4 (nbits (leNat bs) 121 120) : BoughId)
      let q := fun (bs : List Byte) => (Fin.ofNat 32 (nbits (leNat bs) 116 112) : HqPos)
      ∃ (s : State) (u : State) (v : State) (w : State) (x : State) (bs : List Byte) (bits : List Byte) (area : List Byte) (found : List (Nat × Nat × Nat × Nat × List Byte)) (err : Option Nat) (big : Option Nat) (pics : List Picture), pics ≠ [] →
      commands s bs u ∧
      u.readMem (.codec s.decClaim) (nbits (leNat bs) 47 0) (nbits (leNat bs) 95 64) = (.ok bits, v) ∧
      Config.decoded (op bs) (if op bs = 2 || (leNat bs).testBit 128 then 0 else s.decoder.history[(st bs)]) (op bs ≠ 2 && s.decoder.skipping[(st bs)]) ((leNat bs).testBit 129) bits = (found, err) ∧
      s.acceptPics (op bs) (s.hq (b bs) (q bs)).stride (s.regN .decWorkSize (st bs).val) 0 found = (pics, big) ∧
      (if op bs ≠ 2 then v.drawBytes (s.regN .decWorkSize (st bs).val) else ([], v)) = (area, w) ∧
      (if area = [] then (none, w) else w.mediaWrites (.codec s.decClaim) (s.regN .decWorkBase (st bs).val) [(0, area)]) = (none, x)) :=
  by
      dsimp only
      exact ⟨ex_DecoderCommandsPostPictures_2_0_s, ex_DecoderCommandsPostPictures_2_0_u, ex_DecoderCommandsPostPictures_2_0_v, ex_DecoderCommandsPostPictures_2_0_w, ex_DecoderCommandsPostPictures_2_0_x, ex_DecoderCommandsPostPictures_2_0_bs, ex_DecoderCommandsPostPictures_2_0_bits, ([]), ex_DecoderCommandsPostPictures_2_0_found, ex_DecoderCommandsPostPictures_2_0_err, ex_DecoderCommandsPostPictures_2_0_big, ex_DecoderCommandsPostPictures_2_0_pics,
     fun _ => ⟨⟨(by decide +kernel), (by decide +kernel), (by decide +kernel), (pair_of (ok_okOr (by decide +kernel))), (by decide +kernel)⟩, pair_of (ok_okOr (by decide +kernel)), by rfl, by rfl, by rfl, pair_of (by decide +kernel)⟩⟩

theorem witness_DecoderCommandsPostPictures_5 : (
      let commands := fun (s : State) (bs : List Byte) (u : State) => s.decoder.run = none ∧ s.reg .decHead ≠ s.reg .decTail ∧
        s.ready rDecoder = true ∧ s.readMem (.codec s.decClaim) (s.regN .decRingBase + s.regN .decHead * 64) 64 = (.ok bs, u) ∧
        nbits (leNat bs) 97 96 ≠ 3
      let op := fun (bs : List Byte) => nbits (leNat bs) 97 96
      let st := fun (bs : List Byte) => (Fin.ofNat 16 (nbits (leNat bs) 107 104) : Fin 16)
      let b := fun (bs : List Byte) => (Fin.ofNat 4 (nbits (leNat bs) 121 120) : BoughId)
      let q := fun (bs : List Byte) => (Fin.ofNat 32 (nbits (leNat bs) 116 112) : HqPos)
      ∃ (s : State) (u : State) (v : State) (bs : List Byte) (bits : List Byte) (found : List (Nat × Nat × Nat × Nat × List Byte)) (err : Option Nat) (big : Option Nat), commands s bs u ∧
      u.readMem (.codec s.decClaim) (nbits (leNat bs) 47 0) (nbits (leNat bs) 95 64) = (.ok bits, v) ∧
      Config.decoded (op bs) (if op bs = 2 || (leNat bs).testBit 128 then 0 else s.decoder.history[(st bs)]) (op bs ≠ 2 && s.decoder.skipping[(st bs)]) ((leNat bs).testBit 129) bits = (found, err) ∧
      s.acceptPics (op bs) (s.hq (b bs) (q bs)).stride (s.regN .decWorkSize (st bs).val) 0 found = ([], big)) :=
  by
      dsimp only
      exact ⟨ex_DecoderCommandsPostPictures_3_0_s, ex_DecoderCommandsPostPictures_3_0_u, ex_DecoderCommandsPostPictures_3_0_v, ex_DecoderCommandsPostPictures_3_0_bs, ex_DecoderCommandsPostPictures_3_0_bits, ex_DecoderCommandsPostPictures_3_0_found, ex_DecoderCommandsPostPictures_3_0_err, ex_DecoderCommandsPostPictures_3_0_big,
     ⟨(by decide +kernel), (by decide +kernel), (by decide +kernel), (pair_of (ok_okOr (by decide +kernel))), (by decide +kernel)⟩, pair_of (ok_okOr (by decide +kernel)), by rfl, pair_of (acceptPics_small (by decide +kernel))⟩

theorem witness_DecoderCommandsPostPictures_6 : (∃ (s : State) (w : State) (r : DecRun) (p : Picture) (rest : List Picture) (i : Nat), s.decoder.run = some r ∧
      r.pictures = p :: rest ∧
      r.buffer = some i ∧
      s.boughs[r.bough].state.inReset = false ∧
      s.mediaWrites (.codec s.decClaim) ((s.hq r.bough r.queue).base + i * (s.hq r.bough r.queue).stride) (p.rows ++ [(0, frameHeader 0 0 ((s.decoder.pictures[(Fin.ofNat 16 r.stream)]).setWidth 32) 0 false p.width p.height 1 p.fmt)]) = (none, w)) :=
  ⟨ex_DecoderCommandsPostPictures_4_0_s, ex_DecoderCommandsPostPictures_4_0_w, ex_DecoderCommandsPostPictures_4_0_r, (⟨16, 2, 0, []⟩), ([]), 1,
     by decide +kernel, by decide +kernel, by decide +kernel, by decide +kernel, pair_of (by decide +kernel)⟩

theorem witness_DecoderCommandsPostPictures_7 : (∃ (s : State) (w : State) (r : DecRun) (p : Picture) (rest : List Picture) (i : Nat), s.decoder.run = some r ∧
      r.pictures = p :: rest ∧
      r.buffer = some i ∧
      s.boughs[r.bough].state.inReset = false ∧
      s.mediaWrites (.codec s.decClaim) ((s.hq r.bough r.queue).base + i * (s.hq r.bough r.queue).stride) (p.rows ++ [(0, frameHeader 0 0 ((s.decoder.pictures[(Fin.ofNat 16 r.stream)]).setWidth 32) 0 false p.width p.height 1 p.fmt)]) = (none, w)) :=
  ⟨ex_DecoderCommandsPostPictures_4_1_s, ex_DecoderCommandsPostPictures_4_1_w, ex_DecoderCommandsPostPictures_4_1_r, (⟨16, 2, 0, []⟩), ex_DecoderCommandsPostPictures_4_1_rest, 1,
     by decide +kernel, by decide +kernel, by decide +kernel, by decide +kernel, pair_of (by decide +kernel)⟩


theorem witness_SeamsServeRequests :
    (∃ (s : State) (sm : SeamId) (m : MemRequest) (f : MemFail), fitsSeam sm m = true ∧
      s.checkDram m.who (kindAct m.kind) m.addr = some f) ∧
    (∃ (s : State) (sm : SeamId) (m : MemRequest) (f : MemFail), fitsSeam sm m = true ∧
      s.checkDram m.who (kindAct m.kind) m.addr = some f) ∧
    (
      let bank := fun (s : State) (sm : SeamId) (m : MemRequest) => (s.seam sm).banks[(bankOfBurst (burstOf m.addr))]
      let idle := fun (s : State) (sm : SeamId) (m : MemRequest) => fitsSeam sm m = true ∧ s.checkDram m.who (kindAct m.kind) m.addr = none ∧
        (s.seam sm).front = [] ∧ (s.seam sm).backs = []
      let arrives := fun (s : State) (sm : SeamId) (r : SeamReq) (rest : List SeamReq) =>
        (s.seam sm).inflight = r :: rest ∧ r.merge = false ∧ r.scrub = false ∧ r.poisoned = false
      let ready := fun (s : State) (sm : SeamId) =>
        (((s.enterBacks sm).updSeam sm fun q => { q with banks := q.banks.map fun b => b.compare s.cycle (s.regN .sweepDebtLimit) }).updSeam sm
          fun q => { q with busWrites := q.steer }).scrubWrap sm
      ∃ (s : State) (sm : SeamId) (m : MemRequest) (bs : List Byte), idle s sm m ∧
      m.kind = .write bs ∧
      (bank s sm m).queue.length < 32) ∧
    (
      let bank := fun (s : State) (sm : SeamId) (m : MemRequest) => (s.seam sm).banks[(bankOfBurst (burstOf m.addr))]
      let idle := fun (s : State) (sm : SeamId) (m : MemRequest) => fitsSeam sm m = true ∧ s.checkDram m.who (kindAct m.kind) m.addr = none ∧
        (s.seam sm).front = [] ∧ (s.seam sm).backs = []
      let arrives := fun (s : State) (sm : SeamId) (r : SeamReq) (rest : List SeamReq) =>
        (s.seam sm).inflight = r :: rest ∧ r.merge = false ∧ r.scrub = false ∧ r.poisoned = false
      let ready := fun (s : State) (sm : SeamId) =>
        (((s.enterBacks sm).updSeam sm fun q => { q with banks := q.banks.map fun b => b.compare s.cycle (s.regN .sweepDebtLimit) }).updSeam sm
          fun q => { q with busWrites := q.steer }).scrubWrap sm
      ∃ (s : State) (sm : SeamId) (m : MemRequest) (bs : List Byte), idle s sm m ∧
      m.kind = .write bs ∧
      (bank s sm m).queue.length < 32) ∧
    (
      let bank := fun (s : State) (sm : SeamId) (m : MemRequest) => (s.seam sm).banks[(bankOfBurst (burstOf m.addr))]
      let idle := fun (s : State) (sm : SeamId) (m : MemRequest) => fitsSeam sm m = true ∧ s.checkDram m.who (kindAct m.kind) m.addr = none ∧
        (s.seam sm).front = [] ∧ (s.seam sm).backs = []
      let arrives := fun (s : State) (sm : SeamId) (r : SeamReq) (rest : List SeamReq) =>
        (s.seam sm).inflight = r :: rest ∧ r.merge = false ∧ r.scrub = false ∧ r.poisoned = false
      let ready := fun (s : State) (sm : SeamId) =>
        (((s.enterBacks sm).updSeam sm fun q => { q with banks := q.banks.map fun b => b.compare s.cycle (s.regN .sweepDebtLimit) }).updSeam sm
          fun q => { q with busWrites := q.steer }).scrubWrap sm
      ∃ (s : State) (sm : SeamId) (m : MemRequest), idle s sm m ∧
      (m.kind = .read ∨ m.kind = .fetch) ∧
      s.rawBurst m.addr = false ∧
      (bank s sm m).queue.length < 32) ∧
    (
      let bank := fun (s : State) (sm : SeamId) (m : MemRequest) => (s.seam sm).banks[(bankOfBurst (burstOf m.addr))]
      let idle := fun (s : State) (sm : SeamId) (m : MemRequest) => fitsSeam sm m = true ∧ s.checkDram m.who (kindAct m.kind) m.addr = none ∧
        (s.seam sm).front = [] ∧ (s.seam sm).backs = []
      let arrives := fun (s : State) (sm : SeamId) (r : SeamReq) (rest : List SeamReq) =>
        (s.seam sm).inflight = r :: rest ∧ r.merge = false ∧ r.scrub = false ∧ r.poisoned = false
      let ready := fun (s : State) (sm : SeamId) =>
        (((s.enterBacks sm).updSeam sm fun q => { q with banks := q.banks.map fun b => b.compare s.cycle (s.regN .sweepDebtLimit) }).updSeam sm
          fun q => { q with busWrites := q.steer }).scrubWrap sm
      ∃ (s : State) (sm : SeamId) (m : MemRequest), idle s sm m ∧
      (m.kind = .read ∨ m.kind = .fetch) ∧
      s.rawBurst m.addr = false ∧
      (bank s sm m).queue.length < 32) ∧
    (
      let bank := fun (s : State) (sm : SeamId) (m : MemRequest) => (s.seam sm).banks[(bankOfBurst (burstOf m.addr))]
      let idle := fun (s : State) (sm : SeamId) (m : MemRequest) => fitsSeam sm m = true ∧ s.checkDram m.who (kindAct m.kind) m.addr = none ∧
        (s.seam sm).front = [] ∧ (s.seam sm).backs = []
      let arrives := fun (s : State) (sm : SeamId) (r : SeamReq) (rest : List SeamReq) =>
        (s.seam sm).inflight = r :: rest ∧ r.merge = false ∧ r.scrub = false ∧ r.poisoned = false
      let ready := fun (s : State) (sm : SeamId) =>
        (((s.enterBacks sm).updSeam sm fun q => { q with banks := q.banks.map fun b => b.compare s.cycle (s.regN .sweepDebtLimit) }).updSeam sm
          fun q => { q with busWrites := q.steer }).scrubWrap sm
      ∃ (s : State) (sm : SeamId) (m : MemRequest), idle s sm m ∧
      32 ≤ (bank s sm m).queue.length) ∧
    (
      let bank := fun (s : State) (sm : SeamId) (m : MemRequest) => (s.seam sm).banks[(bankOfBurst (burstOf m.addr))]
      let idle := fun (s : State) (sm : SeamId) (m : MemRequest) => fitsSeam sm m = true ∧ s.checkDram m.who (kindAct m.kind) m.addr = none ∧
        (s.seam sm).front = [] ∧ (s.seam sm).backs = []
      let arrives := fun (s : State) (sm : SeamId) (r : SeamReq) (rest : List SeamReq) =>
        (s.seam sm).inflight = r :: rest ∧ r.merge = false ∧ r.scrub = false ∧ r.poisoned = false
      let ready := fun (s : State) (sm : SeamId) =>
        (((s.enterBacks sm).updSeam sm fun q => { q with banks := q.banks.map fun b => b.compare s.cycle (s.regN .sweepDebtLimit) }).updSeam sm
          fun q => { q with busWrites := q.steer }).scrubWrap sm
      ∃ (s : State) (sm : SeamId) (m : MemRequest), idle s sm m ∧
      32 ≤ (bank s sm m).queue.length) ∧
    (∃ (s : State) (sm : SeamId), s.busFree sm = true) ∧
    (∃ (s : State) (sm : SeamId), s.busFree sm = true) ∧
    (
      let bank := fun (s : State) (sm : SeamId) (m : MemRequest) => (s.seam sm).banks[(bankOfBurst (burstOf m.addr))]
      let idle := fun (s : State) (sm : SeamId) (m : MemRequest) => fitsSeam sm m = true ∧ s.checkDram m.who (kindAct m.kind) m.addr = none ∧
        (s.seam sm).front = [] ∧ (s.seam sm).backs = []
      let arrives := fun (s : State) (sm : SeamId) (r : SeamReq) (rest : List SeamReq) =>
        (s.seam sm).inflight = r :: rest ∧ r.merge = false ∧ r.scrub = false ∧ r.poisoned = false
      let ready := fun (s : State) (sm : SeamId) =>
        (((s.enterBacks sm).updSeam sm fun q => { q with banks := q.banks.map fun b => b.compare s.cycle (s.regN .sweepDebtLimit) }).updSeam sm
          fun q => { q with busWrites := q.steer }).scrubWrap sm
      ∃ (s : State) (sm : SeamId) (p : Pick), s.busFree sm = true ∧
      (ready s sm).seamPick sm s.cycle = some p) ∧
    (
      let bank := fun (s : State) (sm : SeamId) (m : MemRequest) => (s.seam sm).banks[(bankOfBurst (burstOf m.addr))]
      let idle := fun (s : State) (sm : SeamId) (m : MemRequest) => fitsSeam sm m = true ∧ s.checkDram m.who (kindAct m.kind) m.addr = none ∧
        (s.seam sm).front = [] ∧ (s.seam sm).backs = []
      let arrives := fun (s : State) (sm : SeamId) (r : SeamReq) (rest : List SeamReq) =>
        (s.seam sm).inflight = r :: rest ∧ r.merge = false ∧ r.scrub = false ∧ r.poisoned = false
      let ready := fun (s : State) (sm : SeamId) =>
        (((s.enterBacks sm).updSeam sm fun q => { q with banks := q.banks.map fun b => b.compare s.cycle (s.regN .sweepDebtLimit) }).updSeam sm
          fun q => { q with busWrites := q.steer }).scrubWrap sm
      ∃ (s : State) (sm : SeamId) (p : Pick), s.busFree sm = true ∧
      (ready s sm).seamPick sm s.cycle = some p) ∧
    (∃ (s : State) (sm : SeamId) (c : Nat × DdrCmd), (s.seam sm).lastCmd = some c ∧
      c.1 = s.cycle) ∧
    (
      let bank := fun (s : State) (sm : SeamId) (m : MemRequest) => (s.seam sm).banks[(bankOfBurst (burstOf m.addr))]
      let idle := fun (s : State) (sm : SeamId) (m : MemRequest) => fitsSeam sm m = true ∧ s.checkDram m.who (kindAct m.kind) m.addr = none ∧
        (s.seam sm).front = [] ∧ (s.seam sm).backs = []
      let arrives := fun (s : State) (sm : SeamId) (r : SeamReq) (rest : List SeamReq) =>
        (s.seam sm).inflight = r :: rest ∧ r.merge = false ∧ r.scrub = false ∧ r.poisoned = false
      let ready := fun (s : State) (sm : SeamId) =>
        (((s.enterBacks sm).updSeam sm fun q => { q with banks := q.banks.map fun b => b.compare s.cycle (s.regN .sweepDebtLimit) }).updSeam sm
          fun q => { q with busWrites := q.steer }).scrubWrap sm
      ∃ (s : State) (sm : SeamId) (e : BurstErrors) (r : SeamReq) (rest : List SeamReq), arrives s sm r rest ∧
      (∀ i : Fin 4, e[i] = [])) ∧
    (
      let bank := fun (s : State) (sm : SeamId) (m : MemRequest) => (s.seam sm).banks[(bankOfBurst (burstOf m.addr))]
      let idle := fun (s : State) (sm : SeamId) (m : MemRequest) => fitsSeam sm m = true ∧ s.checkDram m.who (kindAct m.kind) m.addr = none ∧
        (s.seam sm).front = [] ∧ (s.seam sm).backs = []
      let arrives := fun (s : State) (sm : SeamId) (r : SeamReq) (rest : List SeamReq) =>
        (s.seam sm).inflight = r :: rest ∧ r.merge = false ∧ r.scrub = false ∧ r.poisoned = false
      let ready := fun (s : State) (sm : SeamId) =>
        (((s.enterBacks sm).updSeam sm fun q => { q with banks := q.banks.map fun b => b.compare s.cycle (s.regN .sweepDebtLimit) }).updSeam sm
          fun q => { q with busWrites := q.steer }).scrubWrap sm
      ∃ (s : State) (sm : SeamId) (e : BurstErrors) (r : SeamReq) (rest : List SeamReq), arrives s sm r rest ∧
      (∀ i : Fin 4, (e[i]).eraseDups.length ≤ 1)) ∧
    (
      let bank := fun (s : State) (sm : SeamId) (m : MemRequest) => (s.seam sm).banks[(bankOfBurst (burstOf m.addr))]
      let idle := fun (s : State) (sm : SeamId) (m : MemRequest) => fitsSeam sm m = true ∧ s.checkDram m.who (kindAct m.kind) m.addr = none ∧
        (s.seam sm).front = [] ∧ (s.seam sm).backs = []
      let arrives := fun (s : State) (sm : SeamId) (r : SeamReq) (rest : List SeamReq) =>
        (s.seam sm).inflight = r :: rest ∧ r.merge = false ∧ r.scrub = false ∧ r.poisoned = false
      let ready := fun (s : State) (sm : SeamId) =>
        (((s.enterBacks sm).updSeam sm fun q => { q with banks := q.banks.map fun b => b.compare s.cycle (s.regN .sweepDebtLimit) }).updSeam sm
          fun q => { q with busWrites := q.steer }).scrubWrap sm
      ∃ (s : State) (sm : SeamId) (e : BurstErrors) (r : SeamReq) (rest : List SeamReq), arrives s sm r rest ∧
      (∀ i : Fin 4, (e[i]).eraseDups.length ≤ 1)) ∧
    (
      let bank := fun (s : State) (sm : SeamId) (m : MemRequest) => (s.seam sm).banks[(bankOfBurst (burstOf m.addr))]
      let idle := fun (s : State) (sm : SeamId) (m : MemRequest) => fitsSeam sm m = true ∧ s.checkDram m.who (kindAct m.kind) m.addr = none ∧
        (s.seam sm).front = [] ∧ (s.seam sm).backs = []
      let arrives := fun (s : State) (sm : SeamId) (r : SeamReq) (rest : List SeamReq) =>
        (s.seam sm).inflight = r :: rest ∧ r.merge = false ∧ r.scrub = false ∧ r.poisoned = false
      let ready := fun (s : State) (sm : SeamId) =>
        (((s.enterBacks sm).updSeam sm fun q => { q with banks := q.banks.map fun b => b.compare s.cycle (s.regN .sweepDebtLimit) }).updSeam sm
          fun q => { q with busWrites := q.steer }).scrubWrap sm
      ∃ (s : State) (sm : SeamId) (e : BurstErrors) (r : SeamReq) (rest : List SeamReq), arrives s sm r rest) ∧
    (
      let bank := fun (s : State) (sm : SeamId) (m : MemRequest) => (s.seam sm).banks[(bankOfBurst (burstOf m.addr))]
      let idle := fun (s : State) (sm : SeamId) (m : MemRequest) => fitsSeam sm m = true ∧ s.checkDram m.who (kindAct m.kind) m.addr = none ∧
        (s.seam sm).front = [] ∧ (s.seam sm).backs = []
      let arrives := fun (s : State) (sm : SeamId) (r : SeamReq) (rest : List SeamReq) =>
        (s.seam sm).inflight = r :: rest ∧ r.merge = false ∧ r.scrub = false ∧ r.poisoned = false
      let ready := fun (s : State) (sm : SeamId) =>
        (((s.enterBacks sm).updSeam sm fun q => { q with banks := q.banks.map fun b => b.compare s.cycle (s.regN .sweepDebtLimit) }).updSeam sm
          fun q => { q with busWrites := q.steer }).scrubWrap sm
      ∃ (s : State) (sm : SeamId) (e : BurstErrors) (r : SeamReq) (rest : List SeamReq), arrives s sm r rest) ∧
    (
      let bank := fun (s : State) (sm : SeamId) (m : MemRequest) => (s.seam sm).banks[(bankOfBurst (burstOf m.addr))]
      let idle := fun (s : State) (sm : SeamId) (m : MemRequest) => fitsSeam sm m = true ∧ s.checkDram m.who (kindAct m.kind) m.addr = none ∧
        (s.seam sm).front = [] ∧ (s.seam sm).backs = []
      let arrives := fun (s : State) (sm : SeamId) (r : SeamReq) (rest : List SeamReq) =>
        (s.seam sm).inflight = r :: rest ∧ r.merge = false ∧ r.scrub = false ∧ r.poisoned = false
      let ready := fun (s : State) (sm : SeamId) =>
        (((s.enterBacks sm).updSeam sm fun q => { q with banks := q.banks.map fun b => b.compare s.cycle (s.regN .sweepDebtLimit) }).updSeam sm
          fun q => { q with busWrites := q.steer }).scrubWrap sm
      ∃ (s : State) (sm : SeamId) (e : BurstErrors) (r : SeamReq) (rest : List SeamReq), arrives s sm r rest) ∧
    (
      let bank := fun (s : State) (sm : SeamId) (m : MemRequest) => (s.seam sm).banks[(bankOfBurst (burstOf m.addr))]
      let idle := fun (s : State) (sm : SeamId) (m : MemRequest) => fitsSeam sm m = true ∧ s.checkDram m.who (kindAct m.kind) m.addr = none ∧
        (s.seam sm).front = [] ∧ (s.seam sm).backs = []
      let arrives := fun (s : State) (sm : SeamId) (r : SeamReq) (rest : List SeamReq) =>
        (s.seam sm).inflight = r :: rest ∧ r.merge = false ∧ r.scrub = false ∧ r.poisoned = false
      let ready := fun (s : State) (sm : SeamId) =>
        (((s.enterBacks sm).updSeam sm fun q => { q with banks := q.banks.map fun b => b.compare s.cycle (s.regN .sweepDebtLimit) }).updSeam sm
          fun q => { q with busWrites := q.steer }).scrubWrap sm
      ∃ (s : State) (sm : SeamId) (e : BurstErrors) (r : SeamReq) (rest : List SeamReq), arrives s sm r rest) ∧
    (∃ (s : State) (sm : SeamId) (e : BurstErrors) (r : SeamReq) (rest : List SeamReq), (s.seam sm).inflight = r :: rest ∧
      r.merge = true ∧
      r.poisoned = false ∧
      (∀ i : Fin 4, e[i] = [])) :=
  ⟨⟨op, 0, (want 0x400000 64), .lost,
     by decide +kernel, by decide +kernel⟩,
   ⟨(op.updSeam 0 fun q => { q with state := .failed }), 0, (store 0x20003F [1]), .fenced,
     by decide +kernel, by decide +kernel⟩,
   (by
      dsimp only
      exact ⟨op, 0, (store 0x200000 (List.replicate 64 3)), (List.replicate 64 3),
     by decide +kernel, by decide +kernel, by decide +kernel⟩),
   (by
      dsimp only
      exact ⟨op, 0, (store 0x400000 (List.replicate 10 4)), (List.replicate 10 4),
     by decide +kernel, by decide +kernel, by decide +kernel⟩),
   (by
      dsimp only
      exact ⟨(wr op 0x20003F [9]), 0, (want 0x20003F 1),
     by decide +kernel, by decide +kernel, by decide +kernel, by decide +kernel⟩),
   (by
      dsimp only
      exact ⟨op, 0, ({ want 0x200000 64 with kind := .fetch }),
     by decide +kernel, by decide +kernel, by decide +kernel, by decide +kernel⟩),
   (by
      dsimp only
      exact ⟨(op.updSeam 0 fun q => q.updBank (bankOfBurst (burstOf 0x200000)) fun b => { b with queue := List.replicate 32 issued }), 0, (want 0x200000 64),
     by decide +kernel, by decide +kernel⟩),
   (by
      dsimp only
      exact ⟨(op.updSeam 0 fun q => q.updBank (bankOfBurst (burstOf 0x200000)) fun b => { b with queue := List.replicate 32 issued }), 0, (store 0x200000 [1]),
     by decide +kernel, by decide +kernel⟩),
   ⟨op, 0,
     by decide +kernel⟩,
   ⟨((after (.seamRequest 0 [want 0x200000 64]) op).updSeam 0 fun q => q.updBank (bankOfBurst (burstOf 0x200000)) fun b => { b with openRow := some 77, actAt := some 15999 }), 0,
     by decide +kernel⟩,
   (by
      dsimp only
      exact ⟨(after (.seamRequest 0 [want 0x200000 64]) op), 0, (pickOf ((let s := after (.seamRequest 0 [want 0x200000 64]) op; ((((s.enterBacks 0).updSeam 0 fun q => { q with banks := q.banks.map fun b => b.compare s.cycle (s.regN .sweepDebtLimit) }).updSeam 0 fun q => { q with busWrites := q.steer }).scrubWrap 0)).seamPick 0 (after (.seamRequest 0 [want 0x200000 64]) op).cycle)),
     by decide +kernel, by decide +kernel⟩),
   (by
      dsimp only
      exact ⟨((after (.seamRequest 0 [want 0x200000 64]) op).updSeam 0 fun q => q.updBank (bankOfBurst (burstOf 0x200000)) fun b => { b with openRow := some 77, actAt := some 15999 }), 0, (pickOf ((let s := (after (.seamRequest 0 [want 0x200000 64]) op).updSeam 0 fun q => q.updBank (bankOfBurst (burstOf 0x200000)) fun b => { b with openRow := some 77, actAt := some 15999 }; ((((s.enterBacks 0).updSeam 0 fun q => { q with banks := q.banks.map fun b => b.compare s.cycle (s.regN .sweepDebtLimit) }).updSeam 0 fun q => { q with busWrites := q.steer }).scrubWrap 0)).seamPick 0 ((after (.seamRequest 0 [want 0x200000 64]) op).updSeam 0 fun q => q.updBank (bankOfBurst (burstOf 0x200000)) fun b => { b with openRow := some 77, actAt := some 15999 }).cycle)),
     by decide +kernel, by decide +kernel⟩),
   ⟨(op.updSeam 3 fun q => { q with lastCmd := some (1600000, .ref) }), 3, ((1600000, .ref)),
     by decide +kernel, by decide +kernel⟩,
   (by
      dsimp only
      exact ⟨(op.updSeam 2 fun q => { q with inflight := [issued] }), 2, (Vector.replicate 4 []), issued, ([]),
     by decide +kernel, by decide +kernel⟩),
   (by
      dsimp only
      exact ⟨(op.updSeam 2 fun q => { q with inflight := [issued] }), 2, (#v[[3], [], [], []]), issued, ([]),
     by decide +kernel, by decide +kernel⟩),
   (by
      dsimp only
      exact ⟨(op.updSeam 2 fun q => { q with inflight := [issued] }), 2, (#v[[], [19, 19], [0], [7]]), issued, ([]),
     by decide +kernel, by decide +kernel⟩),
   (by
      dsimp only
      exact ⟨(op.updSeam 2 fun q => { q with inflight := [issued] }), 2, (#v[[3, 4], [], [], []]), issued, ([]),
     by decide +kernel⟩),
   (by
      dsimp only
      exact ⟨(op.updSeam 2 fun q => { q with inflight := [issued] }), 2, (#v[[1], [19, 0], [], [5, 6]]), issued, ([]),
     by decide +kernel⟩),
   (by
      dsimp only
      exact ⟨(op.updSeam 2 fun q => { q with inflight := [issued] }), 2, (Vector.replicate 4 []), issued, ([]),
     by decide +kernel⟩),
   (by
      dsimp only
      exact ⟨(op.updSeam 2 fun q => { q with inflight := [issued] }), 2, (#v[[3, 4, 5], [], [], []]), issued, ([]),
     by decide +kernel⟩),
   ⟨(op.updSeam 2 fun q => { q.updBank 0 (fun b => { b with queue := [{ issued with merge := true, reading := true, write := true }] }) with inflight := [{ issued with merge := true, reading := true, write := true }] }), 2, (Vector.replicate 4 []), ({ issued with merge := true, reading := true, write := true }), ([]),
     by decide +kernel, by decide +kernel, by decide +kernel, by decide +kernel⟩⟩


theorem witness_SeamsKeepTheirRowsAlive :
    (∃ (s : State) (sm : SeamId) (k : BankId), (s.seam sm).state.inService = true ∧
      ((s.seam sm).banks[k]).nextRise ≤ s.now.toNat * 2 ^ 17) ∧
    (∃ (s : State) (sm : SeamId) (k : BankId), (s.seam sm).state.inService = true ∧
      ((s.seam sm).banks[k]).nextRise ≤ s.now.toNat * 2 ^ 17) ∧
    (∃ (s : State) (sm : SeamId) (k : BankId), s.now.toNat * 2 ^ 17 < ((s.seam sm).banks[k]).nextRise) ∧
    (∃ (s : State) (sm : SeamId), (s.seam sm).state.inService = true ∧
      s.due (s.seam sm).polledAt 1000000 = true) ∧
    (∃ (s : State) (sm : SeamId), (s.seam sm).state.inService = true ∧
      s.due (s.seam sm).polledAt 1000000 = true) ∧
    (∃ (s : State) (sm : SeamId) (b : Bool), s.due (s.seam sm).polledAt 1000000 = false) ∧
    (∃ (s : State) (sm : SeamId) (b : Bool), s.due (s.seam sm).polledAt 1000000 = false) ∧
    (∃ (s : State) (sm : SeamId) (k : BankId) (row : Nat), s.busFree sm = true ∧
      ((s.seam sm).banks[k]).openRow = some row ∧
      ((s.seam sm).banks[k]).openedAt + 60000 ≤ s.now.toNat ∧
      (s.seam sm).preOk k s.cycle = true) ∧
    (∃ (s : State) (sm : SeamId) (k : BankId) (row : Nat), s.busFree sm = true ∧
      ((s.seam sm).banks[k]).openRow = some row ∧
      ((s.seam sm).banks[k]).openedAt + 60000 ≤ s.now.toNat ∧
      (s.seam sm).preOk k s.cycle = true) ∧
    (∃ (s : State) (sm : SeamId), (s.seam sm).state.inService = true ∧
      s.scrubDue sm 100000 = true) ∧
    (∃ (s : State) (sm : SeamId), s.busFree sm = true ∧
      (s.seam sm).refDue s.now.toNat = true ∧
      (s.seam sm).blockedUntil ≤ s.cycle ∧
      (∀ k : BankId, ((s.seam sm).banks[k]).openRow.isSome = true → (s.seam sm).preOk k s.cycle = true)) ∧
    (∃ (s : State) (sm : SeamId), (s.seam sm).refDue s.now.toNat = false) ∧
    (∃ (s : State) (sm : SeamId), (s.seam sm).state = .refWindow ∧
      (∀ k : BankId, (s.seam sm).passDone[k] = true) ∧
      (if (s.seam sm).hot then 32000000 else 64000000) ≤ (s.now - (s.seam sm).refStart).toNat) ∧
    (∃ (s : State) (sm : SeamId), (s.seam sm).state = .refWindow ∧
      (∀ k : BankId, (s.seam sm).passDone[k] = true) ∧
      (if (s.seam sm).hot then 32000000 else 64000000) ≤ (s.now - (s.seam sm).refStart).toNat) :=
  ⟨⟨op, 15, 7,
     by decide +kernel, by decide +kernel⟩,
   ⟨(op.updSeam 15 fun q => { q with hot := true }), 15, 7,
     by decide +kernel, by decide +kernel⟩,
   ⟨(op.updSeam 15 fun q => q.updBank 7 fun b => { b with nextRise := 2 ^ 50 }), 15, 7,
     by decide +kernel⟩,
   ⟨op, 15,
     by decide +kernel, by decide +kernel⟩,
   ⟨(op.updSeam 15 fun q => { q with polledAt := some 0 }), 15,
     by decide +kernel, by decide +kernel⟩,
   ⟨(op.updSeam 15 fun q => { q with polledAt := some 1 }), 15, true,
     by decide +kernel⟩,
   ⟨(op.updSeam 15 fun q => { q with polledAt := some 1 }), 15, false,
     by decide +kernel⟩,
   ⟨(op.updSeam 15 fun q => q.updBank 7 fun b => { b with openRow := some 9, openedAt := 940000, sweeping := true }), 15, 7, 9,
     by decide +kernel, by decide +kernel, by decide +kernel, by decide +kernel⟩,
   ⟨(op.updSeam 15 fun q => q.updBank 7 fun b => { b with openRow := some 9, openedAt := 940000 }), 15, 7, 9,
     by decide +kernel, by decide +kernel, by decide +kernel, by decide +kernel⟩,
   ⟨(({ op with now := 2 ^ 48 }).setReg .scrubPeriod 1), 15,
     by decide +kernel, by decide +kernel⟩,
   ⟨(op.updSeam 15 fun q => { q.updBank 7 (fun b => { b with openRow := some 9 }) with state := .refWindow }), 15,
     by decide +kernel, by decide +kernel, by decide +kernel, by decide +kernel⟩,
   ⟨op, 15,
     by decide +kernel⟩,
   ⟨(({ op with now := 64000000 }).updSeam 1 fun q => { q with state := .refWindow, passDone := Vector.replicate 8 true }), 1,
     by decide +kernel, by decide +kernel, by decide +kernel⟩,
   ⟨(({ op with now := 32000000 }).updSeam 1 fun q => { q with state := .refWindow, hot := true, passDone := Vector.replicate 8 true }), 1,
     by decide +kernel, by decide +kernel, by decide +kernel⟩⟩


theorem witness_SeamsTrainAndGroupsChange :
    (∃ (s : State) (sm : SeamId), (s.seam sm).state = .training ∧
      s.foremanRuns 1 = true) ∧
    (∃ (s : State) (sm : SeamId), (s.seam sm).state = .training ∧
      s.foremanRuns 1 = true) ∧
    (∃ (s : State) (sm : SeamId), (s.seam sm).state = .training ∧
      s.foremanRuns 1 = true ∧
      (s.seam sm).tries + 1 < 3) ∧
    (∃ (s : State) (sm : SeamId), (s.seam sm).state = .training ∧
      s.foremanRuns 1 = true ∧
      3 ≤ (s.seam sm).tries + 1) ∧
    (∃ (s : State) (sm : SeamId) (c : SeamOutCause), (s.seam sm).state.inService = true ∧
      s.foremanRuns 1 = true ∧
      (c = .rowErrors → s.rowsFail sm = true)) ∧
    (∃ (s : State) (sm : SeamId) (c : SeamOutCause), (s.seam sm).state.inService = true ∧
      s.foremanRuns 1 = true ∧
      (c = .rowErrors → s.rowsFail sm = true)) ∧
    (∃ (s : State) (r : Requester) (b : BoughId), Safety.Writes s r .dramGroupMode b.val 0 0 1 ∧
      groupCodes b s = [] ∧
      s.groups[b].mode ≠ .keep) ∧
    (∃ (s : State) (r : Requester) (b : BoughId), Safety.Writes s r .dramGroupMode b.val 0 0 1 ∧
      groupCodes b s = [] ∧
      s.groups[b].mode ≠ .keep) ∧
    (∃ (s : State) (r : Requester) (b : BoughId), Safety.Writes s r .dramGroupMode b.val 0 0 2 ∧
      groupCodes b s = [] ∧
      s.groups[b].mode ≠ .drop) ∧
    (∃ (s : State) (r : Requester) (b : BoughId), Safety.Writes s r .dramGroupMode b.val 0 0 2 ∧
      groupCodes b s = [] ∧
      s.groups[b].mode ≠ .drop) ∧
    (∃ (s : State) (r : Requester) (b : BoughId), Safety.Writes s r .dramGroupMode b.val 0 0 0 ∧
      groupCodes b s = [] ∧
      s.groups[b].mode ≠ .on) ∧
    (∃ (s : State) (r : Requester) (b : BoughId), Safety.Writes s r .dramGroupMode b.val 0 0 0 ∧
      groupCodes b s = [] ∧
      s.groups[b].mode ≠ .on) ∧
    (∃ (s : State) (b : BoughId) (m : GroupMode), s.groups[b].changing = some m ∧
      (s.groups[b].mode = .on → ∀ q ∈ seamsOf b, (s.seam q).state ≠ .training)) ∧
    (∃ (s : State) (b : BoughId) (m : GroupMode), s.groups[b].changing = some m ∧
      (s.groups[b].mode = .on → ∀ q ∈ seamsOf b, (s.seam q).state ≠ .training)) ∧
    (∃ (s : State) (b : BoughId), s.groups[b].enHold = true ∧
      50000000 ≤ (s.now - s.groups[b].enFell).toNat) ∧
    (∃ (s : State) (b : BoughId), s.groups[b].enHold = true ∧
      50000000 ≤ (s.now - s.groups[b].enFell).toNat) ∧
    (∃ (s : State) (b : BoughId), s.boughs[b].state = .training) ∧
    (∃ (s : State) (b : BoughId), s.boughs[b].state = .training) :=
  ⟨⟨(op.updSeam 5 fun q => { q with state := .training, trainFull := true, tries := 0 }), 5,
     by decide +kernel, by decide +kernel⟩,
   ⟨(boughIs 1 .training (op.updSeam 5 fun q => { q with state := .training, trainFull := false, tries := 0 })), 5,
     by decide +kernel, by decide +kernel⟩,
   ⟨(op.updSeam 5 fun q => { q with state := .training, trainFull := true, tries := 1 }), 5,
     by decide +kernel, by decide +kernel, by decide +kernel⟩,
   ⟨(op.updSeam 5 fun q => { q with state := .training, trainFull := true, tries := 2 }), 5,
     by decide +kernel, by decide +kernel, by decide +kernel⟩,
   ⟨op, 15, .phyLock,
     by decide +kernel, by decide +kernel, by decide +kernel⟩,
   ⟨((op.updSeam 15 fun q => { q with ueRows := (List.range 16).map fun i => (i, op.now) })), 15, .rowErrors,
     by decide +kernel, by decide +kernel, by decide +kernel⟩,
   ⟨(groupIs 2 { mode := .on, enable := true } (boughIs 2 .down op)), .host, 2,
     by decide +kernel, by decide +kernel, by decide +kernel⟩,
   ⟨(groupIs 2 { mode := .drop, enable := true } (boughIs 2 .down op)), .host, 2,
     by decide +kernel, by decide +kernel, by decide +kernel⟩,
   ⟨(groupIs 2 { mode := .on, enable := true } (boughIs 2 .down op)), .host, 2,
     by decide +kernel, by decide +kernel, by decide +kernel⟩,
   ⟨(groupIs 2 { mode := .keep, enable := true } (boughIs 2 .down op)), .host, 2,
     by decide +kernel, by decide +kernel, by decide +kernel⟩,
   ⟨(groupIs 2 { mode := .keep, enable := true } (boughIs 2 .down op)), .host, 2,
     by decide +kernel, by decide +kernel, by decide +kernel⟩,
   ⟨(groupIs 2 { mode := .drop, enable := true } (boughIs 2 .down op)), .host, 2,
     by decide +kernel, by decide +kernel, by decide +kernel⟩,
   ⟨(groupIs 2 { mode := .on, changing := some .drop } op), 2, .drop,
     by decide +kernel, by decide +kernel⟩,
   ⟨(groupIs 2 { mode := .drop, changing := some .on } op), 2, .on,
     by decide +kernel, by decide +kernel⟩,
   ⟨(groupIs 2 { mode := .drop, enHold := true, enFell := 1000000 - 50000000 } op), 2,
     by decide +kernel, by decide +kernel⟩,
   ⟨(groupIs 2 { mode := .on, enHold := true, enFell := 1000000 - 50000000 } op), 2,
     by decide +kernel, by decide +kernel⟩,
   ⟨(boughIs 3 .training (wr op (localBase 3 5) [1])), 3,
     by decide +kernel⟩,
   ⟨(boughIs 3 .training (op.updSeam 14 fun q => { q with state := .training })), 3,
     by decide +kernel⟩⟩


theorem witness_SystemCacheServesRequests :
    (
      let comes := fun (s : State) (m : MemRequest) (k : Fin 8) => s.trunk = [] ∧ s.sliceFor m = some (k, m)
      let passes := fun (s : State) (m : MemRequest) => m.addr < 2 ^ 37 ∧ comes s m (sliceOf m.addr) ∧
        s.checkSeg m.who (kindAct m.kind) (m.addr / 2 ^ 21) = none ∧ s.boughs[(boughOf m.addr)].state.inReset = false
      let line := fun (s : State) (m : MemRequest) =>
        (s.slices[(sliceOf m.addr)]).find (setOf (m.addr / 128 * 128)) (m.addr / 128 * 128) s.ways
      let lineAt := fun (s : State) (m : MemRequest) (w : Nat) => (s.slices[(sliceOf m.addr)]).at (setOf (m.addr / 128 * 128)) w
      let answered := fun (s t : State) (k : Fin 8) (a : MemAnswer) =>
        (t.slices[k]).answers = [(s.trunkStamp, a)] ∧ (∀ j, j ≠ k → t.slices[j] = { s.slices[j] with answers := [] }) ∧ t.trunk = [] ∧ t.trunkStamp = s.trunkStamp + 1
      let stats := fun (s : State) (m : MemRequest) (o : List Ob) => Ob.key .forcedWins 0 0 0 :: o.map fun x => Ob.key x (sliceOf m.addr).val 0 0
      ∃ (s : State) (m : MemRequest) (e : Vector SliceError 8) (f : MemFail), m.addr < 2 ^ 37 ∧
      comes s m (sliceOf m.addr) ∧
      (s.checkSeg m.who (kindAct m.kind) (m.addr / 2 ^ 21) = some f ∨ s.checkSeg m.who (kindAct m.kind) (m.addr / 2 ^ 21) = none ∧ s.boughs[(boughOf m.addr)].state.inReset = true ∧ f = .fenced)) ∧
    (
      let comes := fun (s : State) (m : MemRequest) (k : Fin 8) => s.trunk = [] ∧ s.sliceFor m = some (k, m)
      let passes := fun (s : State) (m : MemRequest) => m.addr < 2 ^ 37 ∧ comes s m (sliceOf m.addr) ∧
        s.checkSeg m.who (kindAct m.kind) (m.addr / 2 ^ 21) = none ∧ s.boughs[(boughOf m.addr)].state.inReset = false
      let line := fun (s : State) (m : MemRequest) =>
        (s.slices[(sliceOf m.addr)]).find (setOf (m.addr / 128 * 128)) (m.addr / 128 * 128) s.ways
      let lineAt := fun (s : State) (m : MemRequest) (w : Nat) => (s.slices[(sliceOf m.addr)]).at (setOf (m.addr / 128 * 128)) w
      let answered := fun (s t : State) (k : Fin 8) (a : MemAnswer) =>
        (t.slices[k]).answers = [(s.trunkStamp, a)] ∧ (∀ j, j ≠ k → t.slices[j] = { s.slices[j] with answers := [] }) ∧ t.trunk = [] ∧ t.trunkStamp = s.trunkStamp + 1
      let stats := fun (s : State) (m : MemRequest) (o : List Ob) => Ob.key .forcedWins 0 0 0 :: o.map fun x => Ob.key x (sliceOf m.addr).val 0 0
      ∃ (s : State) (m : MemRequest) (e : Vector SliceError 8) (f : MemFail), m.addr < 2 ^ 37 ∧
      comes s m (sliceOf m.addr) ∧
      (s.checkSeg m.who (kindAct m.kind) (m.addr / 2 ^ 21) = some f ∨ s.checkSeg m.who (kindAct m.kind) (m.addr / 2 ^ 21) = none ∧ s.boughs[(boughOf m.addr)].state.inReset = true ∧ f = .fenced)) ∧
    (
      let comes := fun (s : State) (m : MemRequest) (k : Fin 8) => s.trunk = [] ∧ s.sliceFor m = some (k, m)
      let passes := fun (s : State) (m : MemRequest) => m.addr < 2 ^ 37 ∧ comes s m (sliceOf m.addr) ∧
        s.checkSeg m.who (kindAct m.kind) (m.addr / 2 ^ 21) = none ∧ s.boughs[(boughOf m.addr)].state.inReset = false
      let line := fun (s : State) (m : MemRequest) =>
        (s.slices[(sliceOf m.addr)]).find (setOf (m.addr / 128 * 128)) (m.addr / 128 * 128) s.ways
      let lineAt := fun (s : State) (m : MemRequest) (w : Nat) => (s.slices[(sliceOf m.addr)]).at (setOf (m.addr / 128 * 128)) w
      let answered := fun (s t : State) (k : Fin 8) (a : MemAnswer) =>
        (t.slices[k]).answers = [(s.trunkStamp, a)] ∧ (∀ j, j ≠ k → t.slices[j] = { s.slices[j] with answers := [] }) ∧ t.trunk = [] ∧ t.trunkStamp = s.trunkStamp + 1
      let stats := fun (s : State) (m : MemRequest) (o : List Ob) => Ob.key .forcedWins 0 0 0 :: o.map fun x => Ob.key x (sliceOf m.addr).val 0 0
      ∃ (s : State) (m : MemRequest) (e : Vector SliceError 8) (w : Nat), passes s m ∧
      (m.kind = .read ∨ m.kind = .fetch) ∧
      s.sliceOn (sliceOf m.addr) = true ∧
      line s m = some w ∧
      ((pieces m.addr m.len).all fun p => !s.rawBurst p.1) = true ∧
      e[(sliceOf m.addr)] ≠ .uncorrectable) ∧
    (
      let comes := fun (s : State) (m : MemRequest) (k : Fin 8) => s.trunk = [] ∧ s.sliceFor m = some (k, m)
      let passes := fun (s : State) (m : MemRequest) => m.addr < 2 ^ 37 ∧ comes s m (sliceOf m.addr) ∧
        s.checkSeg m.who (kindAct m.kind) (m.addr / 2 ^ 21) = none ∧ s.boughs[(boughOf m.addr)].state.inReset = false
      let line := fun (s : State) (m : MemRequest) =>
        (s.slices[(sliceOf m.addr)]).find (setOf (m.addr / 128 * 128)) (m.addr / 128 * 128) s.ways
      let lineAt := fun (s : State) (m : MemRequest) (w : Nat) => (s.slices[(sliceOf m.addr)]).at (setOf (m.addr / 128 * 128)) w
      let answered := fun (s t : State) (k : Fin 8) (a : MemAnswer) =>
        (t.slices[k]).answers = [(s.trunkStamp, a)] ∧ (∀ j, j ≠ k → t.slices[j] = { s.slices[j] with answers := [] }) ∧ t.trunk = [] ∧ t.trunkStamp = s.trunkStamp + 1
      let stats := fun (s : State) (m : MemRequest) (o : List Ob) => Ob.key .forcedWins 0 0 0 :: o.map fun x => Ob.key x (sliceOf m.addr).val 0 0
      ∃ (s : State) (m : MemRequest) (e : Vector SliceError 8) (w : Nat), passes s m ∧
      (m.kind = .read ∨ m.kind = .fetch) ∧
      s.sliceOn (sliceOf m.addr) = true ∧
      line s m = some w ∧
      ((pieces m.addr m.len).all fun p => !s.rawBurst p.1) = true ∧
      e[(sliceOf m.addr)] ≠ .uncorrectable) ∧
    (
      let comes := fun (s : State) (m : MemRequest) (k : Fin 8) => s.trunk = [] ∧ s.sliceFor m = some (k, m)
      let passes := fun (s : State) (m : MemRequest) => m.addr < 2 ^ 37 ∧ comes s m (sliceOf m.addr) ∧
        s.checkSeg m.who (kindAct m.kind) (m.addr / 2 ^ 21) = none ∧ s.boughs[(boughOf m.addr)].state.inReset = false
      let line := fun (s : State) (m : MemRequest) =>
        (s.slices[(sliceOf m.addr)]).find (setOf (m.addr / 128 * 128)) (m.addr / 128 * 128) s.ways
      let lineAt := fun (s : State) (m : MemRequest) (w : Nat) => (s.slices[(sliceOf m.addr)]).at (setOf (m.addr / 128 * 128)) w
      let answered := fun (s t : State) (k : Fin 8) (a : MemAnswer) =>
        (t.slices[k]).answers = [(s.trunkStamp, a)] ∧ (∀ j, j ≠ k → t.slices[j] = { s.slices[j] with answers := [] }) ∧ t.trunk = [] ∧ t.trunkStamp = s.trunkStamp + 1
      let stats := fun (s : State) (m : MemRequest) (o : List Ob) => Ob.key .forcedWins 0 0 0 :: o.map fun x => Ob.key x (sliceOf m.addr).val 0 0
      ∃ (s : State) (u : State) (m : MemRequest) (e : Vector SliceError 8) (bs : List Byte), passes s m ∧
      (m.kind = .read ∨ m.kind = .fetch) ∧
      s.sliceOn (sliceOf m.addr) = true ∧
      s.regN .cacheEarlyWays ≤ 8 ∧
      s.readDram m.who (kindAct m.kind) (pieces m.addr m.len) = (.ok bs, u) ∧
      (line s m = none ∨ ∃ w l, line s m = some w ∧ lineAt s m w = some l ∧ l.dirty = false ∧ e[(sliceOf m.addr)] = .uncorrectable)) ∧
    (
      let comes := fun (s : State) (m : MemRequest) (k : Fin 8) => s.trunk = [] ∧ s.sliceFor m = some (k, m)
      let passes := fun (s : State) (m : MemRequest) => m.addr < 2 ^ 37 ∧ comes s m (sliceOf m.addr) ∧
        s.checkSeg m.who (kindAct m.kind) (m.addr / 2 ^ 21) = none ∧ s.boughs[(boughOf m.addr)].state.inReset = false
      let line := fun (s : State) (m : MemRequest) =>
        (s.slices[(sliceOf m.addr)]).find (setOf (m.addr / 128 * 128)) (m.addr / 128 * 128) s.ways
      let lineAt := fun (s : State) (m : MemRequest) (w : Nat) => (s.slices[(sliceOf m.addr)]).at (setOf (m.addr / 128 * 128)) w
      let answered := fun (s t : State) (k : Fin 8) (a : MemAnswer) =>
        (t.slices[k]).answers = [(s.trunkStamp, a)] ∧ (∀ j, j ≠ k → t.slices[j] = { s.slices[j] with answers := [] }) ∧ t.trunk = [] ∧ t.trunkStamp = s.trunkStamp + 1
      let stats := fun (s : State) (m : MemRequest) (o : List Ob) => Ob.key .forcedWins 0 0 0 :: o.map fun x => Ob.key x (sliceOf m.addr).val 0 0
      ∃ (s : State) (u : State) (m : MemRequest) (e : Vector SliceError 8) (bs : List Byte), passes s m ∧
      (m.kind = .read ∨ m.kind = .fetch) ∧
      s.sliceOn (sliceOf m.addr) = true ∧
      s.regN .cacheEarlyWays ≤ 8 ∧
      s.readDram m.who (kindAct m.kind) (pieces m.addr m.len) = (.ok bs, u) ∧
      (line s m = none ∨ ∃ w l, line s m = some w ∧ lineAt s m w = some l ∧ l.dirty = false ∧ e[(sliceOf m.addr)] = .uncorrectable)) ∧
    (
      let comes := fun (s : State) (m : MemRequest) (k : Fin 8) => s.trunk = [] ∧ s.sliceFor m = some (k, m)
      let passes := fun (s : State) (m : MemRequest) => m.addr < 2 ^ 37 ∧ comes s m (sliceOf m.addr) ∧
        s.checkSeg m.who (kindAct m.kind) (m.addr / 2 ^ 21) = none ∧ s.boughs[(boughOf m.addr)].state.inReset = false
      let line := fun (s : State) (m : MemRequest) =>
        (s.slices[(sliceOf m.addr)]).find (setOf (m.addr / 128 * 128)) (m.addr / 128 * 128) s.ways
      let lineAt := fun (s : State) (m : MemRequest) (w : Nat) => (s.slices[(sliceOf m.addr)]).at (setOf (m.addr / 128 * 128)) w
      let answered := fun (s t : State) (k : Fin 8) (a : MemAnswer) =>
        (t.slices[k]).answers = [(s.trunkStamp, a)] ∧ (∀ j, j ≠ k → t.slices[j] = { s.slices[j] with answers := [] }) ∧ t.trunk = [] ∧ t.trunkStamp = s.trunkStamp + 1
      let stats := fun (s : State) (m : MemRequest) (o : List Ob) => Ob.key .forcedWins 0 0 0 :: o.map fun x => Ob.key x (sliceOf m.addr).val 0 0
      ∃ (s : State) (m : MemRequest) (e : Vector SliceError 8) (w : Nat) (l : Line), passes s m ∧
      (m.kind = .read ∨ m.kind = .fetch) ∧
      s.sliceOn (sliceOf m.addr) = true ∧
      line s m = some w ∧
      lineAt s m w = some l ∧
      l.dirty = true ∧
      e[(sliceOf m.addr)] = .uncorrectable ∧
      l.addr = m.addr / 128 * 128) ∧
    (
      let comes := fun (s : State) (m : MemRequest) (k : Fin 8) => s.trunk = [] ∧ s.sliceFor m = some (k, m)
      let passes := fun (s : State) (m : MemRequest) => m.addr < 2 ^ 37 ∧ comes s m (sliceOf m.addr) ∧
        s.checkSeg m.who (kindAct m.kind) (m.addr / 2 ^ 21) = none ∧ s.boughs[(boughOf m.addr)].state.inReset = false
      let line := fun (s : State) (m : MemRequest) =>
        (s.slices[(sliceOf m.addr)]).find (setOf (m.addr / 128 * 128)) (m.addr / 128 * 128) s.ways
      let lineAt := fun (s : State) (m : MemRequest) (w : Nat) => (s.slices[(sliceOf m.addr)]).at (setOf (m.addr / 128 * 128)) w
      let answered := fun (s t : State) (k : Fin 8) (a : MemAnswer) =>
        (t.slices[k]).answers = [(s.trunkStamp, a)] ∧ (∀ j, j ≠ k → t.slices[j] = { s.slices[j] with answers := [] }) ∧ t.trunk = [] ∧ t.trunkStamp = s.trunkStamp + 1
      let stats := fun (s : State) (m : MemRequest) (o : List Ob) => Ob.key .forcedWins 0 0 0 :: o.map fun x => Ob.key x (sliceOf m.addr).val 0 0
      ∃ (s : State) (m : MemRequest) (e : Vector SliceError 8) (bs : List Byte), passes s m ∧
      m.kind = .write bs ∧
      s.dramServed m.addr = true) ∧
    (
      let comes := fun (s : State) (m : MemRequest) (k : Fin 8) => s.trunk = [] ∧ s.sliceFor m = some (k, m)
      let passes := fun (s : State) (m : MemRequest) => m.addr < 2 ^ 37 ∧ comes s m (sliceOf m.addr) ∧
        s.checkSeg m.who (kindAct m.kind) (m.addr / 2 ^ 21) = none ∧ s.boughs[(boughOf m.addr)].state.inReset = false
      let line := fun (s : State) (m : MemRequest) =>
        (s.slices[(sliceOf m.addr)]).find (setOf (m.addr / 128 * 128)) (m.addr / 128 * 128) s.ways
      let lineAt := fun (s : State) (m : MemRequest) (w : Nat) => (s.slices[(sliceOf m.addr)]).at (setOf (m.addr / 128 * 128)) w
      let answered := fun (s t : State) (k : Fin 8) (a : MemAnswer) =>
        (t.slices[k]).answers = [(s.trunkStamp, a)] ∧ (∀ j, j ≠ k → t.slices[j] = { s.slices[j] with answers := [] }) ∧ t.trunk = [] ∧ t.trunkStamp = s.trunkStamp + 1
      let stats := fun (s : State) (m : MemRequest) (o : List Ob) => Ob.key .forcedWins 0 0 0 :: o.map fun x => Ob.key x (sliceOf m.addr).val 0 0
      ∃ (s : State) (m : MemRequest) (e : Vector SliceError 8) (bs : List Byte), passes s m ∧
      m.kind = .write bs ∧
      s.dramServed m.addr = true) ∧
    (
      let comes := fun (s : State) (m : MemRequest) (k : Fin 8) => s.trunk = [] ∧ s.sliceFor m = some (k, m)
      let passes := fun (s : State) (m : MemRequest) => m.addr < 2 ^ 37 ∧ comes s m (sliceOf m.addr) ∧
        s.checkSeg m.who (kindAct m.kind) (m.addr / 2 ^ 21) = none ∧ s.boughs[(boughOf m.addr)].state.inReset = false
      let line := fun (s : State) (m : MemRequest) =>
        (s.slices[(sliceOf m.addr)]).find (setOf (m.addr / 128 * 128)) (m.addr / 128 * 128) s.ways
      let lineAt := fun (s : State) (m : MemRequest) (w : Nat) => (s.slices[(sliceOf m.addr)]).at (setOf (m.addr / 128 * 128)) w
      let answered := fun (s t : State) (k : Fin 8) (a : MemAnswer) =>
        (t.slices[k]).answers = [(s.trunkStamp, a)] ∧ (∀ j, j ≠ k → t.slices[j] = { s.slices[j] with answers := [] }) ∧ t.trunk = [] ∧ t.trunkStamp = s.trunkStamp + 1
      let stats := fun (s : State) (m : MemRequest) (o : List Ob) => Ob.key .forcedWins 0 0 0 :: o.map fun x => Ob.key x (sliceOf m.addr).val 0 0
      ∃ (s : State) (m : MemRequest) (e : Vector SliceError 8) (o : Nat), s.region m.addr = .early o ∧
      comes s m (earlySlice o) ∧
      (whoClaim m.who = 0 → (m.kind = .read ∨ m.kind = .fetch) → e[(earlySlice o)] ≠ .uncorrectable)) ∧
    (
      let comes := fun (s : State) (m : MemRequest) (k : Fin 8) => s.trunk = [] ∧ s.sliceFor m = some (k, m)
      let passes := fun (s : State) (m : MemRequest) => m.addr < 2 ^ 37 ∧ comes s m (sliceOf m.addr) ∧
        s.checkSeg m.who (kindAct m.kind) (m.addr / 2 ^ 21) = none ∧ s.boughs[(boughOf m.addr)].state.inReset = false
      let line := fun (s : State) (m : MemRequest) =>
        (s.slices[(sliceOf m.addr)]).find (setOf (m.addr / 128 * 128)) (m.addr / 128 * 128) s.ways
      let lineAt := fun (s : State) (m : MemRequest) (w : Nat) => (s.slices[(sliceOf m.addr)]).at (setOf (m.addr / 128 * 128)) w
      let answered := fun (s t : State) (k : Fin 8) (a : MemAnswer) =>
        (t.slices[k]).answers = [(s.trunkStamp, a)] ∧ (∀ j, j ≠ k → t.slices[j] = { s.slices[j] with answers := [] }) ∧ t.trunk = [] ∧ t.trunkStamp = s.trunkStamp + 1
      let stats := fun (s : State) (m : MemRequest) (o : List Ob) => Ob.key .forcedWins 0 0 0 :: o.map fun x => Ob.key x (sliceOf m.addr).val 0 0
      ∃ (s : State) (m : MemRequest) (e : Vector SliceError 8) (o : Nat), s.region m.addr = .early o ∧
      comes s m (earlySlice o) ∧
      (whoClaim m.who = 0 → (m.kind = .read ∨ m.kind = .fetch) → e[(earlySlice o)] ≠ .uncorrectable)) ∧
    (
      let comes := fun (s : State) (m : MemRequest) (k : Fin 8) => s.trunk = [] ∧ s.sliceFor m = some (k, m)
      let passes := fun (s : State) (m : MemRequest) => m.addr < 2 ^ 37 ∧ comes s m (sliceOf m.addr) ∧
        s.checkSeg m.who (kindAct m.kind) (m.addr / 2 ^ 21) = none ∧ s.boughs[(boughOf m.addr)].state.inReset = false
      let line := fun (s : State) (m : MemRequest) =>
        (s.slices[(sliceOf m.addr)]).find (setOf (m.addr / 128 * 128)) (m.addr / 128 * 128) s.ways
      let lineAt := fun (s : State) (m : MemRequest) (w : Nat) => (s.slices[(sliceOf m.addr)]).at (setOf (m.addr / 128 * 128)) w
      let answered := fun (s t : State) (k : Fin 8) (a : MemAnswer) =>
        (t.slices[k]).answers = [(s.trunkStamp, a)] ∧ (∀ j, j ≠ k → t.slices[j] = { s.slices[j] with answers := [] }) ∧ t.trunk = [] ∧ t.trunkStamp = s.trunkStamp + 1
      let stats := fun (s : State) (m : MemRequest) (o : List Ob) => Ob.key .forcedWins 0 0 0 :: o.map fun x => Ob.key x (sliceOf m.addr).val 0 0
      ∃ (s : State) (m : MemRequest) (e : Vector SliceError 8) (o : Nat), s.region m.addr = .early o ∧
      comes s m (earlySlice o) ∧
      whoClaim m.who = 0 ∧
      (m.kind = .read ∨ m.kind = .fetch) ∧
      e[(earlySlice o)] = .uncorrectable) ∧
    (∃ (s : State) (r : Requester) (v : Word), Safety.Writes s r .starveFlags 0 0 0 v ∧
      v.toNat < 2 ^ 35) ∧
    (∃ (s : State) (r : Requester) (v : Word), Safety.Writes s r .starveFlags 0 0 0 v ∧
      v.toNat < 2 ^ 35) ∧
    (∃ (s : State) (r : Requester) (v : Word), Safety.Writes s r .cacheEarlyWays 0 0 0 v ∧
      earlyWaysCodes v.toNat s = []) ∧
    (∃ (s : State) (r : Requester) (v : Word), Safety.Writes s r .cacheEarlyWays 0 0 0 v ∧
      earlyWaysCodes v.toNat s = []) :=
  ⟨(by
      dsimp only
      exact ⟨op, (want 0x400000 128), (Vector.replicate 8 .clean), .lost,
     by decide +kernel, by decide +kernel, by decide +kernel⟩),
   (by
      dsimp only
      exact ⟨(boughIs 0 .fencing op), (want 0x200040 64), (Vector.replicate 8 .clean), .fenced,
     by decide +kernel, by decide +kernel, by decide +kernel⟩),
   (by
      dsimp only
      exact ⟨(op.updSlice 0 fun q => q.put (setOf 0x200000) 7 (some { addr := 0x200000, dirty := false, under := [], host := false })), (want 0x200040 64), (Vector.replicate 8 .clean), 7,
     by decide +kernel, by decide +kernel, by decide +kernel, by decide +kernel, by decide +kernel, by decide +kernel⟩),
   (by
      dsimp only
      exact ⟨(op.updSlice 0 fun q => q.put (setOf 0x200000) 7 (some { addr := 0x200000, dirty := true, under := List.replicate 128 9, host := false })), (want 0x200000 128), (Vector.replicate 8 .corrected), 7,
     by decide +kernel, by decide +kernel, by decide +kernel, by decide +kernel, by decide +kernel, by decide +kernel⟩),
   (by
      dsimp only
      exact ⟨(wr op 0x200000 [4]), (((wr op 0x200000 [4]).readDram .host .read (pieces 0x200000 128)).2), (want 0x200000 128), (Vector.replicate 8 .clean), (4 :: List.replicate 127 0),
     by decide +kernel, by decide +kernel, by decide +kernel, by decide +kernel, pair_of (ok_of (by decide +kernel)), .inl (by decide +kernel)⟩),
   (by
      dsimp only
      exact ⟨(wr (op.updSlice 0 fun q => q.put (setOf 0x200000) 7 (some { addr := 0x200000, dirty := false, under := [], host := false })) 0x200000 [4]), (((wr (op.updSlice 0 fun q => q.put (setOf 0x200000) 7 (some { addr := 0x200000, dirty := false, under := [], host := false })) 0x200000 [4]).readDram .host .read (pieces 0x200000 64)).2), (want 0x200000 64), (Vector.replicate 8 .uncorrectable), (4 :: List.replicate 63 0),
     by decide +kernel, by decide +kernel, by decide +kernel, by decide +kernel, pair_of (ok_of (by decide +kernel)), .inr ⟨7, { addr := 0x200000, dirty := false, under := [], host := false }, by decide +kernel, by decide +kernel, by decide +kernel, by decide +kernel⟩⟩),
   (by
      dsimp only
      exact ⟨(op.updSlice 0 fun q => q.put (setOf 0x200000) 7 (some { addr := 0x200000, dirty := true, under := List.replicate 128 9, host := false })), (want 0x200040 64), (Vector.replicate 8 .uncorrectable), 7, ({ addr := 0x200000, dirty := true, under := List.replicate 128 9, host := false }),
     by decide +kernel, by decide +kernel, by decide +kernel, by decide +kernel, by decide +kernel, by decide +kernel, by decide +kernel, by decide +kernel⟩),
   (by
      dsimp only
      exact ⟨op, (store 0x200000 (List.replicate 128 6)), (Vector.replicate 8 .clean), (List.replicate 128 6),
     by decide +kernel, by decide +kernel, by decide +kernel⟩),
   (by
      dsimp only
      exact ⟨(op.updSlice 0 fun q => q.put (setOf 0x200000) 7 (some { addr := 0x200000, dirty := true, under := List.replicate 128 9, host := false })), (store 0x200010 [6, 7]), (Vector.replicate 8 .uncorrectable), ([6, 7]),
     by decide +kernel, by decide +kernel, by decide +kernel⟩),
   (by
      dsimp only
      exact ⟨(wr op 0x4200000080 [3]), (want 0x4200000080 128), (Vector.replicate 8 .clean), 128,
     by decide +kernel, by decide +kernel, by decide +kernel⟩),
   (by
      dsimp only
      exact ⟨(wr op 0x4200000080 [3]), (store 0x4200000080 [5, 6]), (Vector.replicate 8 .uncorrectable), 128,
     by decide +kernel, by decide +kernel, by decide +kernel⟩),
   (by
      dsimp only
      exact ⟨(wr op 0x4200000080 [3]), (want 0x4200000080 128), (Vector.replicate 8 .uncorrectable), 128,
     by decide +kernel, by decide +kernel, by decide +kernel, by decide +kernel, by decide +kernel⟩),
   ⟨(regs op [(Ob.key .starveFlags 0 0 0, 7)]), .burlyn, (2 ^ 35 - 1),
     by decide +kernel, by decide +kernel⟩,
   ⟨(regs op [(Ob.key .starveFlags 0 0 0, 7)]), .burlyn, 2,
     by decide +kernel, by decide +kernel⟩,
   ⟨((wr op 0x4200000000 [1]).setReg .cacheEarlyWays 8), .host, 4,
     by decide +kernel, by decide +kernel⟩,
   ⟨((wr op 0x4200000000 [1]).setReg .cacheEarlyWays 3), .host, 3,
     by decide +kernel, by decide +kernel⟩⟩


theorem witness_PowerFollowsItsRules :
    (∃ (s : State) (r : Requester) (hi : Bool) (v : Word), Safety.Writes s r (if hi then .domainOffHi else .domainOffLo) 0 0 0 v ∧
      (domainOffCodes hi v s).1 = []) ∧
    (∃ (s : State) (r : Requester) (hi : Bool) (v : Word), Safety.Writes s r (if hi then .domainOffHi else .domainOffLo) 0 0 0 v ∧
      (domainOffCodes hi v s).1 = []) ∧
    (∃ (s : State) (m : Vector RailReading 17), s.foremanRuns 2 = true ∧
      s.due s.power.lastPeriod 100000 = true ∧
      (∀ i : Fin 17, m[i] ≠ .failed)) ∧
    (∃ (s : State) (m : Vector RailReading 17), s.foremanRuns 2 = true ∧
      s.due s.power.lastPeriod 100000 = true ∧
      (∀ i : Fin 17, m[i] ≠ .failed)) ∧
    (∃ (s : State) (m : Vector (BitVec 32) 96) (host : BitVec 32), s.due s.power.paceAt 100000 = true) ∧
    (∃ (s : State) (m : Vector (BitVec 32) 96) (host : BitVec 32), s.due s.power.paceAt 100000 = true) ∧
    (∃ (s : State) (v : Nat), s.power.stepTo = some v) ∧
    (∃ (s : State) (rail : Fin 17), s.porstLow = false ∧
      s.power.vrAlert.getLsbD rail.val = false) ∧
    (∃ (s : State), s.power.alertFloor = true ∧
      s.foremanRuns 2 = true ∧
      1000000 ≤ (s.now - s.power.alertAt).toNat) ∧
    (∃ (s : State) (x : Vector (BitVec 16) 64), s.porstLow = false ∧
      s.due s.power.sensorsAt 10000 = true ∧
      (∀ i : Fin 64, (x[i]).toInt < 1100) ∧
      s.power.thermalFloor = false) ∧
    (∃ (s : State) (x : Vector (BitVec 16) 64) (i : Fin 64), s.porstLow = false ∧
      s.due s.power.sensorsAt 10000 = true ∧
      1100 ≤ (x[i]).toInt ∧
      s.power.thermalFloor = false ∧
      (∀ j : Fin 64, (x[j]).toInt < 1200)) ∧
    (∃ (s : State) (x : Vector (BitVec 16) 64) (i : Fin 64), s.porstLow = false ∧
      s.due s.power.sensorsAt 10000 = true ∧
      1200 ≤ (x[i]).toInt ∧
      s.power.thermtrip = false ∧
      s.crown ≠ .powerOn) :=
  ⟨⟨op, .host, true, (2 ^ 23 + 2 ^ 19),
     by decide +kernel, by decide +kernel⟩,
   ⟨op, .burlyn, false, 0,
     by decide +kernel, by decide +kernel⟩,
   ⟨op, (Vector.replicate 17 (.read 800 1000)),
     by decide +kernel, by decide +kernel, by decide +kernel⟩,
   ⟨({ op with power := { op.power with coreNow := 900 } }), ((Vector.replicate 17 (.read 800 20000)).set 3 .off),
     by decide +kernel, by decide +kernel, by decide +kernel⟩,
   ⟨op, ((Vector.replicate 96 100).set 3 901 |>.set 2 900 |>.set 68 5), 7,
     by decide +kernel⟩,
   ⟨({ withLeaf 3 { active := true } op with boughs := upd (withLeaf 2 { active := true } (withLeaf 3 { active := true } op)).boughs 2 fun y => { y with branches := upd y.branches 5 fun z => { z with leaves := upd z.leaves 0 fun _ => { active := true } } } }), ((Vector.replicate 96 100).set 3 901 |>.set 2 900 |>.set 68 5), 7,
     by decide +kernel⟩,
   ⟨({ op with power := { op.power with stepTo := some 725 } }), 725,
     by decide +kernel⟩,
   ⟨op, 16,
     by decide +kernel, by decide +kernel⟩,
   ⟨({ op with power := { op.power with alertFloor := true } }),
     by decide +kernel, by decide +kernel, by decide +kernel⟩,
   ⟨op, (Vector.replicate 64 1099),
     by decide +kernel, by decide +kernel, by decide +kernel, by decide +kernel⟩,
   ⟨op, ((Vector.replicate 64 0).set 63 1100), 63,
     by decide +kernel, by decide +kernel, by decide +kernel, by decide +kernel, by decide +kernel⟩,
   ⟨op, ((Vector.replicate 64 0).set 63 1200), 63,
     by decide +kernel, by decide +kernel, by decide +kernel, by decide +kernel, by decide +kernel⟩⟩


theorem witness_ClaimsAndSegmentsChange :
    (∃ (s : State) (r : Requester) (c : ClaimId), Safety.Writes s r .claimCommand c.val 0 0 1 ∧
      claimOpenCodes s c = []) ∧
    (∃ (s : State) (r : Requester) (c : ClaimId), Safety.Writes s r .claimCommand c.val 0 0 2 ∧
      openConfidentialCodes s c = []) ∧
    (∃ (s : State) (c : ClaimId), (s.claim c).wait = .makeKeys) ∧
    (∃ (s : State) (r : Requester) (c : ClaimId), Safety.Writes s r .claimCommand c.val 0 0 3 ∧
      releaseCodes s c = [] ∧
      s.finishAssign c = s ∧
      s.claimState c = .opened) ∧
    (∃ (s : State) (r : Requester) (c : ClaimId), Safety.Writes s r .claimCommand c.val 0 0 3 ∧
      releaseCodes s c = [] ∧
      s.finishAssign c = s ∧
      (s.claimState c).confidential = true) ∧
    (∃ (s : State) (r : Requester) (c : ClaimId), Safety.Writes s r .claimCommand c.val 0 0 3 ∧
      releaseCodes s c = [] ∧
      s.finishAssign c = s ∧
      (s.claimState c).confidential = true) ∧
    (
      let mine := fun (s : State) (c : ClaimId) => (s.sec.segs.filter fun p => p.2.claim = c).map (·.1)
      let unpair := fun (s : State) (c : ClaimId) =>
        ({ s.grove with pairs := s.grove.pairs.map fun w => { w with value := setBit w.value c.val false } } : Grove)
      ∃ (s : State) (c : ClaimId), s.claimState c = .releasing ∧
      c ≠ 0 ∧
      (∀ n ∈ mine s c, s.segServed n = true) ∧
      (∀ n ∈ mine s c, (s.groups[(Fin.ofNat 4 (n / 16384) : BoughId)]).mode ≠ .drop)) ∧
    (∃ (s : State) (r : Requester) (first : BitVec 16) (n : BitVec 16) (c : ClaimId) (perm : BitVec 3), Safety.Writes s r .segCommand 0 0 0 (segWord n first 1 c.val perm.toNat) ∧
      segCodes (.assign c perm) first.toNat n.toNat s = []) ∧
    (∃ (s : State) (r : Requester) (first : BitVec 16) (n : BitVec 16) (c : ClaimId) (perm : BitVec 3), Safety.Writes s r .segCommand 0 0 0 (segWord n first 1 c.val perm.toNat) ∧
      segCodes (.assign c perm) first.toNat n.toNat s = []) ∧
    (∃ (s : State) (r : Requester) (first : BitVec 16) (n : BitVec 16), Safety.Writes s r .segCommand 0 0 0 (segWord n first 2 0 0) ∧
      segCodes .clear first.toNat n.toNat s = []) ∧
    (∃ (s : State) (r : Requester) (first : BitVec 16) (n : BitVec 16), Safety.Writes s r .segCommand 0 0 0 (segWord n first 2 0 0) ∧
      segCodes .clear first.toNat n.toNat s = []) ∧
    (∃ (s : State) (r : Requester) (first : BitVec 16) (n : BitVec 16), Safety.Writes s r .segCommand 0 0 0 (segWord n first 3 0 0) ∧
      segCodes .revive first.toNat n.toNat s = []) ∧
    (∃ (s : State) (r : SegRun), s.sec.segRun = some r ∧
      (r.op = .clear → s.segServed r.next = true)) ∧
    (∃ (s : State) (r : SegRun), s.sec.segRun = some r ∧
      (r.op = .clear → s.segServed r.next = true)) :=
  ⟨⟨op, .host, 15,
     by decide +kernel, by decide +kernel⟩,
   ⟨op, .host, 15,
     by decide +kernel, by decide +kernel⟩,
   ⟨(claimIs 15 { wait := .makeKeys } op), 15,
     by decide +kernel⟩,
   ⟨(claimIs 15 { state := .opened } op), .host, 15,
     by decide +kernel, by decide +kernel, by decide +kernel, by decide +kernel⟩,
   ⟨(claimIs 15 { state := .sealed, modelKey := some [1] } op), .host, 15,
     by decide +kernel, by decide +kernel, by decide +kernel, by decide +kernel⟩,
   ⟨(claimIs 15 { state := .session, sessionSecret := some [1] } op), .host, 15,
     by decide +kernel, by decide +kernel, by decide +kernel, by decide +kernel⟩,
   (by
      dsimp only
      exact ⟨(claimIs 15 { state := .releasing } (wr op 0x400000 [7])), 15,
     by decide +kernel, by decide +kernel, by decide +kernel, by decide +kernel⟩),
   ⟨(claimIs 15 { state := .opened } op), .host, 1, 1, 15, 5,
     by decide +kernel, by decide +kernel⟩,
   ⟨(claimIs 15 { state := .opened } op), .host, 65535, 0, 15, 7,
     by decide +kernel, by decide +kernel⟩,
   ⟨op, .host, 0, 1,
     by decide +kernel, by decide +kernel⟩,
   ⟨op, .host, 65535, 0,
     by decide +kernel, by decide +kernel⟩,
   ⟨(claimIs 15 { state := .opened } op), .host, 2, 0,
     by decide +kernel, by decide +kernel⟩,
   ⟨((wr op 0x400000 [7]).updSec fun x => { x with segRun := some ⟨.clear, 2, 2⟩ }), (⟨.clear, 2, 2⟩),
     by decide +kernel, by decide +kernel⟩,
   ⟨((wr op 0x400000 [7]).updSec fun x => { x with segRun := some ⟨.assign 3 1, 65535, 65535⟩ }), (⟨.assign 3 1, 65535, 65535⟩),
     by decide +kernel, by decide +kernel⟩⟩

def ex_SessionsKeysAndStreams_0_0_s : State := claimIs 15 { state := .session } op

def ex_SessionsKeysAndStreams_0_1_s : State := claimIs 15 { state := .sealed } op

def ex_SessionsKeysAndStreams_1_0_s : State := (claimIs 15 { state := .session, wait := .report } op).updSec fun x => { x with treeReady := true, reports := 32767 }

def ex_SessionsKeysAndStreams_2_0_s : State := claimIs 15 { wait := .report, sessCode := 1 } op

def ex_SessionsKeysAndStreams_3_0_s : State := claimIs 15 { state := .session, stale := false } op

def ex_SessionsKeysAndStreams_4_0_s : State := claimIs 15 { state := .session, wait := .unwrap, stale := true } op

def ex_SessionsKeysAndStreams_4_1_s : State := claimIs 15 { state := .session, wait := .unwrap, stale := false } op

def ex_SessionsKeysAndStreams_5_0_s : State := regs (claimIs 15 { state := .sealed } op) [(Ob.key .cryptClaim 0 0 0, 15), (Ob.key .cryptSrc 0 0 0, 0x200000), (Ob.key .cryptDst 0 0 0, 0x5FFFC0), (Ob.key .cryptLen 0 0 0, 64)]

def ex_SessionsKeysAndStreams_5_1_s : State := regs (claimIs 15 { state := .sealed } op) [(Ob.key .cryptClaim 0 0 0, 15), (Ob.key .cryptSrc 0 0 0, 0x400000), (Ob.key .cryptDst 0 0 0, 0x200000), (Ob.key .cryptLen 0 0 0, 128)]

def ex_SessionsKeysAndStreams_6_0_s : State := (claimIs 15 { state := .sealed, exportKey := some [1] } op).updSec fun y => { y with crypt := some ⟨true, 15, 0x400000, 0x200000, 64, [1], true⟩ }

def ex_SessionsKeysAndStreams_6_0_x : CryptRun := ⟨true, 15, 0x400000, 0x200000, 64, [1], true⟩

def ex_SessionsKeysAndStreams_6_1_s : State := (claimIs 15 { state := .sealed, exportKey := some [1] } op).updSec fun y => { y with crypt := some ⟨false, 15, 0x200000, 0x400000, 64, [2], false⟩ }

def ex_SessionsKeysAndStreams_6_1_x : CryptRun := ⟨false, 15, 0x200000, 0x400000, 64, [2], false⟩

def ex_SessionsKeysAndStreams_7_0_s : State := (claimIs 15 { state := .sealed, exportKey := some [1], modelKey := some [3] } (wr op 0x200000 (streamHead 0 64 (List.replicate 8 0)))).updSec fun y => { y with crypt := some ⟨false, 15, 0x200000, 0x400000, 64, [2], false⟩ }

def ex_SessionsKeysAndStreams_7_0_u : State := ((ex_SessionsKeysAndStreams_7_0_s).updSegs [2] fun e => { e with busy := false })

def ex_SessionsKeysAndStreams_7_0_v : State := ((ex_SessionsKeysAndStreams_7_0_u).readMem .host 0x200000 (streamLen 64)).2

def ex_SessionsKeysAndStreams_7_0_x : CryptRun := ⟨false, 15, 0x200000, 0x400000, 64, [2], false⟩

def ex_SessionsKeysAndStreams_7_0_bs : List Byte := okOr [] ((ex_SessionsKeysAndStreams_7_0_u).readMem .host 0x200000 (streamLen 64)).1

def ex_SessionsKeysAndStreams_8_0_s : State := (claimIs 15 { state := .sealed, exportKey := some [1] } (wr op 0x400000 [7])).updSec fun y => { y with crypt := some ⟨true, 15, 0x400000, 0x200000, 64, [1], false⟩ }

def ex_SessionsKeysAndStreams_8_0_u : State := ((ex_SessionsKeysAndStreams_8_0_s).updSegs [1] fun e => { e with busy := false })

def ex_SessionsKeysAndStreams_8_0_v : State := ((ex_SessionsKeysAndStreams_8_0_u).readMem (.job 15) 0x400000 64).2

def ex_SessionsKeysAndStreams_8_0_w : State := ((ex_SessionsKeysAndStreams_8_0_v).drbgTake 8).2

def ex_SessionsKeysAndStreams_8_0_x : CryptRun := ⟨true, 15, 0x400000, 0x200000, 64, [1], false⟩

def ex_SessionsKeysAndStreams_8_0_p : List Byte := okOr [] ((ex_SessionsKeysAndStreams_8_0_u).readMem (.job 15) 0x400000 64).1

def ex_SessionsKeysAndStreams_8_0_pre : List Byte := ((ex_SessionsKeysAndStreams_8_0_v).drbgTake 8).1

def ex_SessionsKeysAndStreams_9_0_data : List Byte := 15 :: List.replicate 48 7

def ex_SessionsKeysAndStreams_9_1_data : List Byte := 12 :: List.replicate 48 7

def ex_SessionsKeysAndStreams_10_0_s : State := { op with nv := { op.nv with ownerDigest := op.nv.ownerDigest.set 3 (some [1]) } }

def ex_SessionsKeysAndStreams_10_0_data : List Byte := 15 :: List.replicate 48 7

def ex_SessionsKeysAndStreams_11_0_s : State := op.updSec fun x => { x with drbgRequests := 2 ^ 20 }

theorem witness_SessionsKeysAndStreams_0 : (∃ (s : State) (r : Requester) (c : ClaimId), Safety.Writes s r .sessionCommand c.val 0 0 1 ∧
      reportCodes s c = []) :=
  ⟨ex_SessionsKeysAndStreams_0_0_s, .host, 15,
     by decide +kernel, by decide +kernel⟩

theorem witness_SessionsKeysAndStreams_1 : (∃ (s : State) (r : Requester) (c : ClaimId), Safety.Writes s r .sessionCommand c.val 0 0 1 ∧
      reportCodes s c = []) :=
  ⟨ex_SessionsKeysAndStreams_0_1_s, .host, 15,
     by decide +kernel, by decide +kernel⟩

theorem witness_SessionsKeysAndStreams_2 : (∃ (s : State) (c : ClaimId), (s.claim c).wait = .report ∧
      s.sec.treeReady = true ∧
      s.loadingInto c = false ∧
      s.nv.lmsUsed < 65536 ∧
      s.sec.reports < 32768) :=
  ⟨ex_SessionsKeysAndStreams_1_0_s, 15,
     by decide +kernel, by decide +kernel, by decide +kernel, by decide +kernel, by decide +kernel⟩

theorem witness_SessionsKeysAndStreams_3 : (∃ (s : State), s.ready rCrypto = true) :=
  ⟨ex_SessionsKeysAndStreams_2_0_s,
     by decide +kernel⟩

theorem witness_SessionsKeysAndStreams_4 : (∃ (s : State) (r : Requester) (c : ClaimId), Safety.Writes s r .sessionCommand c.val 0 0 2 ∧
      unwrapCodes s c = []) :=
  ⟨ex_SessionsKeysAndStreams_3_0_s, .host, 15,
     by decide +kernel, by decide +kernel⟩

theorem witness_SessionsKeysAndStreams_5 : (∃ (s : State) (c : ClaimId), (s.claim c).wait = .unwrap ∧
      s.loadingInto c = false) :=
  ⟨ex_SessionsKeysAndStreams_4_0_s, 15,
     by decide +kernel, by decide +kernel⟩

theorem witness_SessionsKeysAndStreams_6 : (∃ (s : State) (c : ClaimId), (s.claim c).wait = .unwrap ∧
      s.loadingInto c = false) :=
  ⟨ex_SessionsKeysAndStreams_4_1_s, 15,
     by decide +kernel, by decide +kernel⟩

theorem witness_SessionsKeysAndStreams_7 : (∃ (s : State) (r : Requester) (exporting : Bool), Safety.Writes s r .cryptStart 0 0 0 (if exporting then 2 else 1) ∧
      cryptCodes exporting s = []) :=
  ⟨ex_SessionsKeysAndStreams_5_0_s, .host, false,
     by decide +kernel, by decide +kernel⟩

theorem witness_SessionsKeysAndStreams_8 : (∃ (s : State) (r : Requester) (exporting : Bool), Safety.Writes s r .cryptStart 0 0 0 (if exporting then 2 else 1) ∧
      cryptCodes exporting s = []) :=
  ⟨ex_SessionsKeysAndStreams_5_1_s, .host, true,
     by decide +kernel, by decide +kernel⟩

theorem witness_SessionsKeysAndStreams_9 : (∃ (s : State) (x : CryptRun), s.sec.crypt = some x) :=
  ⟨ex_SessionsKeysAndStreams_6_0_s, ex_SessionsKeysAndStreams_6_0_x,
     by decide +kernel⟩

theorem witness_SessionsKeysAndStreams_10 : (∃ (s : State) (x : CryptRun), s.sec.crypt = some x) :=
  ⟨ex_SessionsKeysAndStreams_6_1_s, ex_SessionsKeysAndStreams_6_1_x,
     by decide +kernel⟩

theorem witness_SessionsKeysAndStreams_11 : (∃ (s : State) (u : State) (v : State) (x : CryptRun) (bs : List Byte), ∀ (w : State) (p : List Byte), importPlain (s.claim x.claim) x.len bs = .ok p →
      v.writeMem (.job x.claim) x.dst p = (none, w) →
      s.sec.crypt = some x ∧
      x.exporting = false ∧
      x.lost = false ∧
      u = s.updSegs x.segs (fun e => { e with busy := false }) ∧
      u.readMem .host x.src (streamLen x.len) = (.ok bs, v)) :=
  ⟨ex_SessionsKeysAndStreams_7_0_s, ex_SessionsKeysAndStreams_7_0_u, ex_SessionsKeysAndStreams_7_0_v, ex_SessionsKeysAndStreams_7_0_x, ex_SessionsKeysAndStreams_7_0_bs,
     fun _ _ _ _ => ⟨by decide +kernel, by decide +kernel, by decide +kernel, by decide +kernel, pair_of (ok_okOr (by decide +kernel))⟩⟩

theorem witness_SessionsKeysAndStreams_12 : (∃ (s : State) (u : State) (v : State) (w : State) (x : CryptRun) (p : List Byte) (pre : List Byte), ∀ (y : State), (w.updClaim x.claim fun c => { c with exports := c.exports + 1 }).writeMem .host x.dst (streamHead 1 x.len pre ++ sealChunks ((s.claim x.claim).exportKey.getD []) (streamHead 1 x.len pre) (x.len + 1) 0 p) = (none, y) →
      s.sec.crypt = some x ∧
      x.exporting = true ∧
      x.lost = false ∧
      u = s.updSegs x.segs (fun e => { e with busy := false }) ∧
      u.readMem (.job x.claim) x.src x.len = (.ok p, v) ∧
      v.drbgTake 8 = (pre, w)) :=
  ⟨ex_SessionsKeysAndStreams_8_0_s, ex_SessionsKeysAndStreams_8_0_u, ex_SessionsKeysAndStreams_8_0_v, ex_SessionsKeysAndStreams_8_0_w, ex_SessionsKeysAndStreams_8_0_x, ex_SessionsKeysAndStreams_8_0_p, ex_SessionsKeysAndStreams_8_0_pre,
     fun _ _ => ⟨by decide +kernel, by decide +kernel, by decide +kernel, by decide +kernel, pair_of (ok_okOr (by decide +kernel)), by rfl⟩⟩

theorem witness_SessionsKeysAndStreams_13 : (∃ (s : State) (r : Requester) (data : List Byte), s.serves r = true ∧
      data.length = 49 ∧
      Safety.Commits (s.updBlk r fun b => b.put 0 data) r ⟨BitVec.ofNat 16 (Ob.ownerKeyProgram.index 0 0), BitVec.ofNat 8 (Ob.ownerKeyProgram.subindex 0), 0, 0, 49, none⟩ ⟨⟨.ownerKeyProgram, 0, 0, 0⟩, none⟩ true ∧
      s.nv.ownerDigest[(Fin.ofNat 4 (leAt data 0 1 - 12))] = none) :=
  ⟨op, .host, ex_SessionsKeysAndStreams_9_0_data,
     by decide +kernel, by decide +kernel, by decide +kernel, by decide +kernel⟩

theorem witness_SessionsKeysAndStreams_14 : (∃ (s : State) (r : Requester) (data : List Byte), s.serves r = true ∧
      data.length = 49 ∧
      Safety.Commits (s.updBlk r fun b => b.put 0 data) r ⟨BitVec.ofNat 16 (Ob.ownerKeyProgram.index 0 0), BitVec.ofNat 8 (Ob.ownerKeyProgram.subindex 0), 0, 0, 49, none⟩ ⟨⟨.ownerKeyProgram, 0, 0, 0⟩, none⟩ true ∧
      s.nv.ownerDigest[(Fin.ofNat 4 (leAt data 0 1 - 12))] = none) :=
  ⟨op, .burlyn, ex_SessionsKeysAndStreams_9_1_data,
     by decide +kernel, by decide +kernel, by decide +kernel, by decide +kernel⟩

theorem witness_SessionsKeysAndStreams_15 : (∃ (s : State) (data : List Byte), 12 ≤ leAt data 0 1 ∧
      leAt data 0 1 ≤ 15 ∧
      s.nv.ownerDigest[(Fin.ofNat 4 (leAt data 0 1 - 12))].isSome = true) :=
  ⟨ex_SessionsKeysAndStreams_10_0_s, ex_SessionsKeysAndStreams_10_0_data,
     by decide +kernel, by decide +kernel, by decide +kernel⟩

theorem witness_SessionsKeysAndStreams_16 : (∃ (s : State), 2 ^ 20 ≤ s.sec.drbgRequests) :=
  ⟨ex_SessionsKeysAndStreams_11_0_s,
     by decide +kernel⟩

theorem witness_SessionsKeysAndStreams_17 : (∃ (s : State), s.porstLow = false) :=
  ⟨op,
     by decide +kernel⟩


theorem witness_LinksTrainCarryAndFence :
    (∃ (s : State) (r : Requester) (k : LinkId) (d : Bool), Safety.Writes s r .linkControl k.val 0 0 (BitVec.ofNat 64 (1 + bitN d 2)) ∧
      linkControlCodes k (1 + bitN d 2) s = [] ∧
      s.linkUnits[k].enable = false) ∧
    (∃ (s : State) (r : Requester) (k : LinkId) (d : Bool), Safety.Writes s r .linkControl k.val 0 0 (BitVec.ofNat 64 (1 + bitN d 2)) ∧
      linkControlCodes k (1 + bitN d 2) s = [] ∧
      s.linkUnits[k].enable = false) ∧
    (∃ (s : State) (k : LinkId) (m : Fin 16) (p : Nat) (serial : Word), s.linkUnits[k].state = .training ∧
      s.foremanRuns 3 = true ∧
      m.val ≠ s.member ∧
      k.val < linksOf s.grade) ∧
    (∃ (s : State) (k : LinkId), s.linkUnits[k].state = .training ∧
      s.foremanRuns 3 = true ∧
      k.val < linksOf s.grade) ∧
    (∃ (s : State) (k : LinkId) (o : LinkOutcome), s.linkUnits[k].state = .training ∧
      s.foremanRuns 3 = true ∧
      k.val < linksOf s.grade ∧
      (o = .authFails ∨ ∃ m p serial, o = .up m p serial ∧ m.val = s.member)) ∧
    (∃ (s : State) (k : LinkId) (o : LinkOutcome), s.linkUnits[k].state = .training ∧
      s.foremanRuns 3 = true ∧
      k.val < linksOf s.grade ∧
      (o = .authFails ∨ ∃ m p serial, o = .up m p serial ∧ m.val = s.member)) ∧
    (∃ (s : State) (r : Requester) (k : LinkId) (d : Bool), Safety.Writes s r .linkControl k.val 0 0 (BitVec.ofNat 64 (bitN d 2)) ∧
      linkControlCodes k (bitN d 2) s = [] ∧
      s.linkUnits[k].enable = true) ∧
    (∃ (s : State) (r : Requester) (k : LinkId), Safety.Writes s r .linkControl k.val 0 0 (BitVec.ofNat 64 (s.linkUnits[k].control ||| 2)) ∧
      linkControlCodes k (s.linkUnits[k].control ||| 2) s = [] ∧
      s.linkUnits[k].enable = true ∧
      s.linkUnits[k].fence = false ∧
      s.linkUnits[k].state ≠ .down) ∧
    (∃ (s : State) (r : Requester) (v : Word), Safety.Writes s r .groveMemberFence 0 0 0 v ∧
      memberFenceCodes v.toNat s = []) ∧
    (∃ (s : State) (k : LinkId) (f : Flit), s.linkUnits[k].state = .up ∧
      s.linkUnits[k].retraining = false ∧
      f.crcOk = true ∧
      f.tagOk = true ∧
      f.kind ≠ 2 ∧
      f.seq = s.linkUnits[k].rxSeq) ∧
    (∃ (s : State) (k : LinkId) (f : Flit), s.linkUnits[k].state = .up ∧
      s.linkUnits[k].retraining = false ∧
      f.crcOk = true ∧
      f.tagOk = true ∧
      f.kind ≠ 2 ∧
      f.seq ≠ s.linkUnits[k].rxSeq) ∧
    (∃ (s : State) (k : LinkId) (f : Flit), s.linkUnits[k].state = .up ∧
      s.linkUnits[k].retraining = false ∧
      f.crcOk = true ∧
      f.tagOk = true ∧
      f.kind = 2) ∧
    (∃ (s : State) (k : LinkId) (f : Flit), s.linkUnits[k].state = .up ∧
      s.linkUnits[k].retraining = false ∧
      f.crcOk = true ∧
      f.tagOk = true ∧
      f.kind = 2) ∧
    (∃ (s : State) (k : LinkId) (f : Flit), s.linkUnits[k].state = .up ∧
      s.linkUnits[k].retraining = false ∧
      f.crcOk = false ∧
      16 ≤ s.linkUnits[k].naks + 1) ∧
    (∃ (s : State) (k : LinkId) (f : Flit), s.linkUnits[k].state = .up ∧
      s.linkUnits[k].retraining = false ∧
      f.crcOk = false ∧
      s.linkUnits[k].naks + 1 < 16) ∧
    (∃ (s : State) (k : LinkId) (f : Flit), s.linkUnits[k].state = .up ∧
      s.linkUnits[k].retraining = false ∧
      f.crcOk = true ∧
      f.tagOk = false) ∧
    (∃ (s : State) (k : LinkId), s.linkUnits[k].retraining = true) ∧
    (∃ (s : State) (k : LinkId), s.linkUnits[k].retraining = true ∧
      s.linkUnits[k].retrainsInRow + 1 < 3) ∧
    (∃ (s : State) (k : LinkId), s.linkUnits[k].retraining = true ∧
      s.linkUnits[k].retrainsInRow + 1 < 3) ∧
    (∃ (s : State) (k : LinkId), s.linkUnits[k].retraining = true ∧
      3 ≤ s.linkUnits[k].retrainsInRow + 1) ∧
    (∃ (s : State) (k : LinkId) (lane : Fin 8), s.linkUnits[k].state = .up ∧
      s.linkUnits[k].retraining = false ∧
      s.foremanRuns 3 = true ∧
      64 ≤ (s.linkUnits[k].laneErrors[lane].filter fun t => (s.now - t).toNat < 1000000000).length ∧
      s.linkUnits[k].spareFor = 15) ∧
    (∃ (s : State) (k : LinkId), s.linkUnits[k].state = .up ∧
      2 ^ 35 ≤ (s.now - s.linkUnits[k].keyAt).toNat) ∧
    (∃ (s : State) (k : LinkId), s.linkUnits[k].state = .up ∧
      2 ^ 35 ≤ (s.now - s.linkUnits[k].keyAt).toNat) :=
  ⟨⟨op, .host, 3, true,
     by decide +kernel, by decide +kernel, by decide +kernel⟩,
   ⟨op, .host, 0, false,
     by decide +kernel, by decide +kernel, by decide +kernel⟩,
   ⟨(linkIs 3 { state := .training, enable := true } op), 3, 15, 1, 77,
     by decide +kernel, by decide +kernel, by decide +kernel, by decide +kernel⟩,
   ⟨(linkIs 3 { state := .training, enable := true } op), 3,
     by decide +kernel, by decide +kernel, by decide +kernel⟩,
   ⟨(linkIs 3 { state := .training, enable := true } op), 3, .authFails,
     by decide +kernel, by decide +kernel, by decide +kernel, .inl rfl⟩,
   ⟨(linkIs 3 { state := .training, enable := true } op), 3, (.up 0 1 77),
     by decide +kernel, by decide +kernel, by decide +kernel, .inr ⟨0, 1, 77, rfl, by decide +kernel⟩⟩,
   ⟨(withWaits [waits (some 3)] (linkIs 3 upLink op)), .host, 3, false,
     by decide +kernel, by decide +kernel, by decide +kernel⟩,
   ⟨(withWaits [waits (some 3)] (linkIs 3 upLink op)), .host, 3,
     by decide +kernel, by decide +kernel, by decide +kernel, by decide +kernel, by decide +kernel⟩,
   ⟨(withWaits [waits (some 3)] (linkIs 3 upLink op)), .host, (2 ^ 3 + 2 ^ 15),
     by decide +kernel, by decide +kernel⟩,
   ⟨(linkIs 3 { upLink with rxSeq := 0xFFFF } op), 3, (flit 0xFFFF),
     by decide +kernel, by decide +kernel, by decide +kernel, by decide +kernel, by decide +kernel, by decide +kernel⟩,
   ⟨(linkIs 3 { upLink with rxSeq := 0xFFFF } op), 3, (flit 0),
     by decide +kernel, by decide +kernel, by decide +kernel, by decide +kernel, by decide +kernel, by decide +kernel⟩,
   ⟨(linkIs 3 { upLink with naksIn := 14, nakFor := 0 } op), 3, ({ flit 9 with kind := 2 }),
     by decide +kernel, by decide +kernel, by decide +kernel, by decide +kernel, by decide +kernel⟩,
   ⟨(linkIs 3 { upLink with naksIn := 15, nakFor := 1 } op), 3, ({ flit 9 with kind := 2 }),
     by decide +kernel, by decide +kernel, by decide +kernel, by decide +kernel, by decide +kernel⟩,
   ⟨(linkIs 3 { upLink with naks := 15 } op), 3, ({ flit 0 with crcOk := false }),
     by decide +kernel, by decide +kernel, by decide +kernel, by decide +kernel⟩,
   ⟨(linkIs 3 { upLink with naks := 14 } op), 3, ({ flit 0 with crcOk := false }),
     by decide +kernel, by decide +kernel, by decide +kernel, by decide +kernel⟩,
   ⟨(withWaits [waits (some 3)] (linkIs 3 upLink op)), 3, ({ flit 0 with tagOk := false }),
     by decide +kernel, by decide +kernel, by decide +kernel, by decide +kernel⟩,
   ⟨(linkIs 3 { upLink with retraining := true } op), 3,
     by decide +kernel⟩,
   ⟨(linkIs 3 { upLink with retraining := true, retrainsInRow := 0 } op), 3,
     by decide +kernel, by decide +kernel⟩,
   ⟨(linkIs 3 { upLink with retraining := true, retrainsInRow := 1 } op), 3,
     by decide +kernel, by decide +kernel⟩,
   ⟨(withWaits [waits (some 3)] (linkIs 3 { upLink with retraining := true, retrainsInRow := 2 } op)), 3,
     by decide +kernel, by decide +kernel⟩,
   ⟨(linkIs 3 { upLink with laneErrors := (Vector.replicate 8 []).set 7 (List.replicate 64 999999) } op), 3, 7,
     by decide +kernel, by decide +kernel, by decide +kernel, by decide +kernel, by decide +kernel⟩,
   ⟨(linkIs 3 upLink { op with now := 2 ^ 35 }), 3,
     by decide +kernel, by decide +kernel⟩,
   ⟨(withWaits [waits (some 3)] (linkIs 3 upLink { op with now := 2 ^ 35 })), 3,
     by decide +kernel, by decide +kernel⟩⟩


theorem witness_GroveRequestsAreAnswered :
    (
      let here := fun (s : State) (k : LinkId) (x : LinkTxn) =>
        s.txnTaken k x = true ∧ x.dest.val = s.member
      let admitted := fun (s : State) (x : LinkTxn) => (s.reg .peerClaims x.source.val).getLsbD x.claim.val
      ∃ (s : State) (u : State) (k : LinkId) (x : LinkTxn) (bs : List Byte), here s k x ∧
      admitted s x = true ∧
      s.readMem (.peer x.claim) x.addr x.len = (.ok bs, u)) ∧
    (
      let here := fun (s : State) (k : LinkId) (x : LinkTxn) =>
        s.txnTaken k x = true ∧ x.dest.val = s.member
      let admitted := fun (s : State) (x : LinkTxn) => (s.reg .peerClaims x.source.val).getLsbD x.claim.val
      ∃ (s : State) (k : LinkId) (x : LinkTxn), here s k x ∧
      admitted s x = false) ∧
    (
      let here := fun (s : State) (k : LinkId) (x : LinkTxn) =>
        s.txnTaken k x = true ∧ x.dest.val = s.member
      let admitted := fun (s : State) (x : LinkTxn) => (s.reg .peerClaims x.source.val).getLsbD x.claim.val
      ∃ (s : State) (u : State) (k : LinkId) (x : LinkTxn) (f : MemFail), here s k x ∧
      admitted s x = true ∧
      s.readMem (.peer x.claim) x.addr x.len = (.error f, u)) ∧
    (
      let here := fun (s : State) (k : LinkId) (x : LinkTxn) =>
        s.txnTaken k x = true ∧ x.dest.val = s.member
      let admitted := fun (s : State) (x : LinkTxn) => (s.reg .peerClaims x.source.val).getLsbD x.claim.val
      ∃ (s : State) (u : State) (k : LinkId) (x : LinkTxn), here s k x ∧
      admitted s x = true ∧
      s.inSignalPage x.addr = false ∧
      s.peerWrite x.claim x.addr x.data = (none, u)) ∧
    (
      let here := fun (s : State) (k : LinkId) (x : LinkTxn) =>
        s.txnTaken k x = true ∧ x.dest.val = s.member
      let admitted := fun (s : State) (x : LinkTxn) => (s.reg .peerClaims x.source.val).getLsbD x.claim.val
      ∃ (s : State) (u : State) (k : LinkId) (x : LinkTxn) (f : MemFail), here s k x ∧
      admitted s x = true ∧
      s.inSignalPage x.addr = false ∧
      s.peerWrite x.claim x.addr x.data = (some f, u)) ∧
    (
      let here := fun (s : State) (k : LinkId) (x : LinkTxn) =>
        s.txnTaken k x = true ∧ x.dest.val = s.member
      let admitted := fun (s : State) (x : LinkTxn) => (s.reg .peerClaims x.source.val).getLsbD x.claim.val
      ∃ (s : State) (k : LinkId) (x : LinkTxn), here s k x ∧
      admitted s x = true ∧
      s.inSignalPage x.addr = false ∧
      x.addr % 64 = 0 ∧
      x.addr < 2 ^ 37 ∧
      x.data.length = 64 ∧
      s.checkDram (.peer x.claim) .write x.addr = none) ∧
    (
      let here := fun (s : State) (k : LinkId) (x : LinkTxn) =>
        s.txnTaken k x = true ∧ x.dest.val = s.member
      let admitted := fun (s : State) (x : LinkTxn) => (s.reg .peerClaims x.source.val).getLsbD x.claim.val
      ∃ (s : State) (k : LinkId) (x : LinkTxn) (i : Nat) (b : BoughId), here s k x ∧
      admitted s x = true ∧
      s.inSignalPage x.addr = true ∧
      x.addr = s.regN .groveSignalBase + 4 * i ∧
      x.data.length = 4 ∧
      i < 4096 ∧
      leNat x.data ≠ 0 ∧
      b = Fin.ofNat 4 (i / 1024)) ∧
    (
      let here := fun (s : State) (k : LinkId) (x : LinkTxn) =>
        s.txnTaken k x = true ∧ x.dest.val = s.member
      let admitted := fun (s : State) (x : LinkTxn) => (s.reg .peerClaims x.source.val).getLsbD x.claim.val
      ∃ (s : State) (k : LinkId) (x : LinkTxn) (i : Nat) (b : BoughId), here s k x ∧
      admitted s x = true ∧
      s.inSignalPage x.addr = true ∧
      x.addr = s.regN .groveSignalBase + 4 * i ∧
      x.data.length = 4 ∧
      i < 4096 ∧
      leNat x.data ≠ 0 ∧
      b = Fin.ofNat 4 (i / 1024)) ∧
    (∃ (s : State) (k : LinkId) (x : LinkTxn), s.txnTaken k x = true ∧
      x.dest.val ≠ s.member ∧
      (s.linkTo x.dest.val).isSome = true) ∧
    (∃ (s : State) (k : LinkId) (x : LinkTxn), s.txnTaken k x = true ∧
      x.dest.val ≠ s.member ∧
      (s.linkTo x.dest.val).isSome = false) ∧
    (
      let here := fun (s : State) (k : LinkId) (x : LinkTxn) =>
        s.txnTaken k x = true ∧ x.dest.val = s.member
      let admitted := fun (s : State) (x : LinkTxn) => (s.reg .peerClaims x.source.val).getLsbD x.claim.val
      ∃ (s : State) (k : LinkId) (x : LinkTxn) (a : PeerAnswer) (w : Bool), here s k x) ∧
    (
      let here := fun (s : State) (k : LinkId) (x : LinkTxn) =>
        s.txnTaken k x = true ∧ x.dest.val = s.member
      let admitted := fun (s : State) (x : LinkTxn) => (s.reg .peerClaims x.source.val).getLsbD x.claim.val
      ∃ (s : State) (k : LinkId) (x : LinkTxn) (a : PeerAnswer) (w : Bool), here s k x) ∧
    (∃ (s : State) (r : Requester) (m : Fin 16) (v : Word), Safety.Writes s r .peerClaims m.val 0 0 v ∧
      peerClaimsCodes m v.toNat s = [] ∧
      s.toPair m v.toNat = []) ∧
    (∃ (s : State) (r : Requester) (m : Fin 16) (v : Word), Safety.Writes s r .peerClaims m.val 0 0 v ∧
      peerClaimsCodes m v.toNat s = [] ∧
      s.toPair m v.toNat = []) ∧
    (∃ (s : State) (r : Requester) (m : Fin 16) (v : Word), Safety.Writes s r .peerClaims m.val 0 0 v ∧
      peerClaimsCodes m v.toNat s = [] ∧
      s.toPair m v.toNat ≠ []) ∧
    (∃ (s : State) (m : Fin 16) (c : ClaimId) (w : PairWait) (ok : Bool) (tag : List Byte) (key : List Byte), s.grove.pairs = [w] ∧
      w.member = m ∧
      w.left = [c] ∧
      (s.claim c).modelKey = some key) ∧
    (∃ (s : State) (m : Fin 16) (c : ClaimId) (w : PairWait) (ok : Bool) (tag : List Byte) (key : List Byte), s.grove.pairs = [w] ∧
      w.member = m ∧
      w.left = [c] ∧
      (s.claim c).modelKey = some key) ∧
    (∃ (s : State) (offset : Int), s.timeLink.isSome = true ∧
      s.due s.grove.timeAt 1000000 = true) ∧
    (∃ (s : State) (offset : Int), s.timeLink.isSome = true ∧
      s.due s.grove.timeAt 1000000 = true) :=
  ⟨(by
      dsimp only
      exact ⟨(linkIs 3 upLink (wr op 0x200000 [5])), (((linkIs 3 upLink (wr op 0x200000 [5])).readMem (.peer 0) 0x200000 2).2), 3, ({ txn 0x200000 [] with len := 2 }), ([5, 0]),
     by decide +kernel, by decide +kernel, pair_of (ok_of (by decide +kernel))⟩),
   (by
      dsimp only
      exact ⟨(linkIs 3 upLink op), 3, ({ txn 0x200000 [1] with claim := 1 }),
     by decide +kernel, by decide +kernel⟩),
   (by
      dsimp only
      exact ⟨(linkIs 3 upLink op), (((linkIs 3 upLink op).readMem (.peer 0) 0x400000 2).2), 3, ({ txn 0x400000 [] with len := 2 }), .lost,
     by decide +kernel, by decide +kernel, pair_of (err_of (by decide +kernel))⟩),
   (by
      dsimp only
      exact ⟨(linkIs 3 upLink op), (((linkIs 3 upLink op).peerWrite 0 0x200003 [7, 8]).2), 3, (txn 0x200003 [7, 8]),
     by decide +kernel, by decide +kernel, by decide +kernel, pair_of (by decide +kernel)⟩),
   (by
      dsimp only
      exact ⟨(linkIs 3 upLink op), (((linkIs 3 upLink op).peerWrite 0 0x5000000000 [7, 8]).2), 3, (txn 0x5000000000 [7, 8]), .unmapped,
     by decide +kernel, by decide +kernel, by decide +kernel, pair_of (by decide +kernel)⟩),
   (by
      dsimp only
      exact ⟨(linkIs 3 upLink op), 3, (txn 0x3FFFC0 (List.replicate 64 8)),
     by decide +kernel, by decide +kernel, by decide +kernel, by decide +kernel, by decide +kernel, by decide +kernel, by decide +kernel⟩),
   (by
      dsimp only
      exact ⟨((regs (linkIs 3 upLink op) [(Ob.key .groveSignalBase 0 0 0, 0x400000)])), 3, (txn (0x400000 + 4 * 1) [2, 0, 0, 0]), 1, (Fin.ofNat 4 (1 / 1024)),
     by decide +kernel, by decide +kernel, by decide +kernel, by decide +kernel, by decide +kernel, by decide +kernel, by decide +kernel, by decide +kernel⟩),
   (by
      dsimp only
      exact ⟨((regs (linkIs 3 upLink op) [(Ob.key .groveSignalBase 0 0 0, 0x400000)])), 3, (txn (0x400000 + 4 * 4095) [2, 0, 0, 0]), 4095, (Fin.ofNat 4 (4095 / 1024)),
     by decide +kernel, by decide +kernel, by decide +kernel, by decide +kernel, by decide +kernel, by decide +kernel, by decide +kernel, by decide +kernel⟩),
   ⟨(linkIs 0 { upLink with peerMember := 5 } (linkIs 3 upLink op)), 3, ({ txn 0x400000 [1] with dest := 5 }),
     by decide +kernel, by decide +kernel, by decide +kernel⟩,
   ⟨(regs (linkIs 3 upLink op) [(Ob.key .groveMemberFence 0 0 0, 32)]), 3, ({ txn 0x400000 [1] with dest := 5 }),
     by decide +kernel, by decide +kernel, by decide +kernel⟩,
   (by
      dsimp only
      exact ⟨(withWaits [waits (some 3), { waits (some 3) with isWrite := true }] (linkIs 3 upLink op)), 3, (txn 0 [4]), .lost, true,
     by decide +kernel⟩),
   (by
      dsimp only
      exact ⟨(withWaits [waits (some 3), { waits (some 3) with isWrite := true }] (linkIs 3 upLink op)), 3, (txn 0 [4]), .lost, false,
     by decide +kernel⟩),
   ⟨(linkIs 3 upLink op), .host, 3, 0xFFFF,
     by decide +kernel, by decide +kernel, by decide +kernel⟩,
   ⟨(linkIs 3 upLink op), .host, 15, 0,
     by decide +kernel, by decide +kernel, by decide +kernel⟩,
   ⟨(claimIs 2 { state := .sealed, modelKey := some [1] } (linkIs 3 upLink op)), .host, 3, 5,
     by decide +kernel, by decide +kernel, by decide +kernel⟩,
   ⟨((claimIs 2 { state := .sealed, modelKey := some [1] } (linkIs 3 upLink op)).updGrove fun g => { g with pairs := [⟨3, .host, 5, [2]⟩] }), 3, 2, (⟨3, .host, 5, [2]⟩), true, ([]), ([1]),
     by decide +kernel, by decide +kernel, by decide +kernel, by decide +kernel⟩,
   ⟨((claimIs 2 { state := .sealed, modelKey := some [1] } (linkIs 3 upLink op)).updGrove fun g => { g with pairs := [⟨3, .host, 5, [2]⟩] }), 3, 2, (⟨3, .host, 5, [2]⟩), true, ((linkIs 3 upLink op).pairTag [1] 3), ([1]),
     by decide +kernel, by decide +kernel, by decide +kernel, by decide +kernel⟩,
   ⟨((regs (linkIs 3 upLink op) [(Ob.key .groveTimeSource 0 0 0, 3)]).updGrove fun g => { g with stepped := false }), 5,
     by decide +kernel, by decide +kernel⟩,
   ⟨((regs (linkIs 3 upLink op) [(Ob.key .groveTimeSource 0 0 0, 3)]).updGrove fun g => { g with stepped := true }), 0,
     by decide +kernel, by decide +kernel⟩⟩


theorem witness_PciePortServesRequests :
    (∃ (s : State) (off : Nat) (v : BitVec 32), s.porstLow = false ∧
      s.pcie.up[(0 : Fin 2)] = true ∧
      s.pcie.strap = 0 ∧
      off < 1040 ∧
      off % 16 = 8 ∧
      s.pcie.pendingBits = 0) ∧
    (∃ (s : State) (off : Nat) (v : BitVec 32), s.porstLow = false ∧
      s.pcie.up[(0 : Fin 2)] = true ∧
      s.pcie.strap = 0 ∧
      off < 1040 ∧
      off % 16 = 8 ∧
      s.pcie.pendingBits = 0) ∧
    (∃ (s : State) (off : Nat) (width : Nat) (v : Word), s.porstLow = false ∧
      s.pcie.up[(0 : Fin 2)] = true ∧
      s.pcie.strap = 0 ∧
      s.serves .pcie = true ∧
      0 < width ∧
      off + width ≤ 0x10000000) ∧
    (∃ (s : State) (off : Nat) (width : Nat) (v : Word), s.porstLow = false ∧
      s.pcie.up[(0 : Fin 2)] = true ∧
      s.pcie.strap = 0 ∧
      s.serves .pcie = true ∧
      0 < width ∧
      off + width ≤ 0x10000000) ∧
    (∃ (s : State) (off : Nat) (width : Nat) (v : Word), s.porstLow = false ∧
      s.pcie.up[(0 : Fin 2)] = true ∧
      s.pcie.strap = 0 ∧
      s.serves .pcie = true ∧
      0 < width ∧
      off + width ≤ 0x400000) ∧
    (∃ (s : State) (off : Nat) (width : Nat) (v : Word), s.porstLow = false ∧
      s.pcie.up[(0 : Fin 2)] = true ∧
      s.pcie.strap = 0 ∧
      s.serves .pcie = true ∧
      0 < width ∧
      off + width ≤ 0x400000) ∧
    (∃ (s : State) (q : PcieTlp), s.porstLow = false ∧
      s.pcie.up[(0 : Fin 2)] = true ∧
      s.pcie.strap = 0 ∧
      ((∃ bar off width w, q = .barAccess bar off width w ∧ bar ≠ 0 ∧ bar ≠ 2 ∧ bar ≠ 4) ∨ (∃ a n, q = .memRead 0 a n) ∨ ∃ a bs, q = .memWrite 0 a bs)) ∧
    (∃ (s : State) (q : PcieTlp), s.porstLow = false ∧
      s.pcie.up[(0 : Fin 2)] = true ∧
      s.pcie.strap = 0 ∧
      ((∃ bar off width w, q = .barAccess bar off width w ∧ bar ≠ 0 ∧ bar ≠ 2 ∧ bar ≠ 4) ∨ (∃ a n, q = .memRead 0 a n) ∨ ∃ a bs, q = .memWrite 0 a bs)) ∧
    (∃ (s : State) (q : PcieTlp), s.porstLow = false ∧
      s.pcie.up[(0 : Fin 2)] = true ∧
      s.pcie.strap = 0 ∧
      ((∃ bar off width w, q = .barAccess bar off width w ∧ bar ≠ 0 ∧ bar ≠ 2 ∧ bar ≠ 4) ∨ (∃ a n, q = .memRead 0 a n) ∨ ∃ a bs, q = .memWrite 0 a bs)) ∧
    (∃ (s : State) (q : PcieTlp), s.porstLow = false ∧
      s.pcie.up[(0 : Fin 2)] = true ∧
      s.pcie.strap = 0 ∧
      ((∃ bar off width w, q = .barAccess bar off width w ∧ bar ≠ 0 ∧ bar ≠ 2 ∧ bar ≠ 4) ∨ (∃ a n, q = .memRead 0 a n) ∨ ∃ a bs, q = .memWrite 0 a bs)) ∧
    (∃ (s : State) (u : State) (port : Fin 2) (a : Nat) (n : Nat) (bs : List Byte), s.porstLow = false ∧
      s.pcie.up[port] = true ∧
      s.pcie.strap ≠ 0 ∧
      a + n ≤ 2 ^ 37 ∧
      s.readMem .pcieDevice a n = (.ok bs, u)) ∧
    (∃ (s : State) (u : State) (port : Fin 2) (a : Nat) (bs : List Byte), s.porstLow = false ∧
      s.pcie.up[port] = true ∧
      s.pcie.strap ≠ 0 ∧
      a + bs.length ≤ 2 ^ 37 ∧
      s.writeMem .pcieDevice a bs = (none, u)) ∧
    (∃ (s : State) (port : Fin 2) (a : Nat) (n : Nat) (f : MemFail), s.porstLow = false ∧
      s.pcie.up[port] = true ∧
      s.pcie.strap ≠ 0 ∧
      a % 64 = 0 ∧
      0 < n ∧
      n ≤ 64 ∧
      a + 64 ≤ 2 ^ 37 ∧
      s.checkDram .pcieDevice .read a = some f) ∧
    (∃ (s : State), s.porstLow = false ∧
      (s.pcie.up[(0 : Fin 2)] = true ∨ s.pcie.up[(1 : Fin 2)] = true)) ∧
    (∃ (s : State), s.porstLow = false ∧
      (s.pcie.up[(0 : Fin 2)] = true ∨ s.pcie.up[(1 : Fin 2)] = true)) ∧
    (∃ (s : State) (k : PcieResetKind), s.pcie.strap = 0) ∧
    (∃ (s : State) (k : PcieResetKind), s.pcie.strap = 0) ∧
    (∃ (s : State) (port : Fin 2) (width : BitVec 4) (speed : BitVec 4), s.porstLow = false ∧
      s.crown ≠ .powerOn ∧
      s.pcie.strap ≠ 3 ∧
      (port = 1 → s.pcie.strap = 2) ∧
      s.power.domainOff.getLsbD 98 = false) ∧
    (∃ (s : State) (port : Fin 2) (width : BitVec 4) (speed : BitVec 4), s.porstLow = false ∧
      s.crown ≠ .powerOn ∧
      s.pcie.strap ≠ 3 ∧
      (port = 1 → s.pcie.strap = 2) ∧
      s.power.domainOff.getLsbD 98 = false) :=
  ⟨⟨(pcieIs 0), 1032, 5,
     by decide +kernel, by decide +kernel, by decide +kernel, by decide +kernel, by decide +kernel, by decide +kernel⟩,
   ⟨(pcieIs 0), 8, 5,
     by decide +kernel, by decide +kernel, by decide +kernel, by decide +kernel, by decide +kernel, by decide +kernel⟩,
   ⟨(pcieIs 0), 0, 4, 5,
     by decide +kernel, by decide +kernel, by decide +kernel, by decide +kernel, by decide +kernel, by decide +kernel⟩,
   ⟨(pcieIs 0), 0xFFFFFF8, 8, 5,
     by decide +kernel, by decide +kernel, by decide +kernel, by decide +kernel, by decide +kernel, by decide +kernel⟩,
   ⟨(pcieIs 0), 0, 8, 5,
     by decide +kernel, by decide +kernel, by decide +kernel, by decide +kernel, by decide +kernel, by decide +kernel⟩,
   ⟨(pcieIs 0), 0x3FFFFC, 4, 7,
     by decide +kernel, by decide +kernel, by decide +kernel, by decide +kernel, by decide +kernel, by decide +kernel⟩,
   ⟨(pcieIs 0), (.barAccess 1 0 4 none),
     by decide +kernel, by decide +kernel, by decide +kernel, .inl ⟨1, 0, 4, none, rfl, by decide, by decide, by decide⟩⟩,
   ⟨(pcieIs 0), (.barAccess 5 0 8 (some 1)),
     by decide +kernel, by decide +kernel, by decide +kernel, .inl ⟨5, 0, 8, some 1, rfl, by decide, by decide, by decide⟩⟩,
   ⟨(pcieIs 0), (.memRead 0 0x200000 4),
     by decide +kernel, by decide +kernel, by decide +kernel, .inr (.inl ⟨0x200000, 4, rfl⟩)⟩,
   ⟨(pcieIs 0), (.memWrite 0 0x200000 [1]),
     by decide +kernel, by decide +kernel, by decide +kernel, .inr (.inr ⟨0x200000, [1], rfl⟩)⟩,
   ⟨(wr (pcieIs 1) 0x200000 [5]), (((wr (pcieIs 1) 0x200000 [5]).readMem .pcieDevice 0x200000 2).2), 1, 0x200000, 2, ([5, 0]),
     by decide +kernel, by decide +kernel, by decide +kernel, by decide +kernel, pair_of (ok_of (by decide +kernel))⟩,
   ⟨(pcieIs 2), (((pcieIs 2).writeMem .pcieDevice 0x20003F [1, 2]).2), 0, 0x20003F, ([1, 2]),
     by decide +kernel, by decide +kernel, by decide +kernel, by decide +kernel, pair_of (by decide +kernel)⟩,
   ⟨(pcieIs 1), 0, 0x400000, 64, .lost,
     by decide +kernel, by decide +kernel, by decide +kernel, by decide +kernel, by decide +kernel, by decide +kernel, by decide +kernel, by decide +kernel⟩,
   ⟨(pcieIs 0),
     by decide +kernel, by decide +kernel⟩,
   ⟨({ pcieIs 2 with pcie := { up := #v[false, true] } }),
     by decide +kernel, by decide +kernel⟩,
   ⟨(withWaits [waits none] (pcieIs 0)), .hotReset,
     by decide +kernel⟩,
   ⟨(withWaits [waits none] (pcieIs 0)), .linkLoss,
     by decide +kernel⟩,
   ⟨({ op with pcie := { strap := 2 } }), 1, 4, 3,
     by decide +kernel, by decide +kernel, by decide +kernel, by decide +kernel, by decide +kernel⟩,
   ⟨({ op with pcie := { strap := 0 } }), 0, 4, 3,
     by decide +kernel, by decide +kernel, by decide +kernel, by decide +kernel, by decide +kernel⟩⟩

end Sys2Proof.Tests
end

section
/-! ALERT_N (R427, R429): what an assertion reaches, and the alert frame's fields. -/
namespace Sys2Proof.Machine
open Sys2Proof

/- Fields of a byte list. -/

@[simp] theorem leBytes_length (n v : Nat) : (leBytes n v).length = n := by
  induction n generalizing v with
  | zero => rfl
  | succ n ih => rw [leBytes, List.length_cons, ih]

/-- The bytes of a number read back as the number, reduced to their width (R16). -/
theorem leNat_leBytes (n v : Nat) : leNat (leBytes n v) = v % 256 ^ n := by
  induction n generalizing v with
  | zero => exact (Nat.mod_one v).symm
  | succ n ih =>
    calc leNat (leBytes (n + 1) v) = v % 256 + 256 * (v / 256 % 256 ^ n) := by rw [leBytes, leNat, ih, BitVec.toNat_ofNat]
      _ = v % 256 ^ (n + 1) := by rw [Nat.pow_succ', Nat.mod_mul]

theorem leNat_leBytes_toNat (v : BitVec 64) : leNat (leBytes 8 v.toNat) = v.toNat := by
  rw [leNat_leBytes]
  exact Nat.mod_eq_of_lt v.isLt

/-- A field within a list is the slice at its place. -/
theorem slice_append_append (pre mid post : List Byte) : slice (pre ++ (mid ++ post)) pre.length mid.length = mid := by
  simp [slice]

/- The alert frame (R427). -/

theorem alertFrame_length (cause now : BitVec 64) : (alertFrame cause now).length = 64 := by
  simp [alertFrame]

/-- The fields of an alert frame, in their order. -/
theorem alertFrame_eq (cause now : BitVec 64) :
    alertFrame cause now =
      (0xA0 :: List.replicate 7 0) ++ (leBytes 8 cause.toNat ++ (leBytes 8 now.toNat ++ (List.replicate 40 0 ++ []))) := by
  simp only [alertFrame, List.append_assoc, List.append_nil, List.cons_append]

theorem alertFrame_head (cause now : BitVec 64) : slice (alertFrame cause now) 0 8 = [0xA0, 0, 0, 0, 0, 0, 0, 0] := by
  rw [alertFrame_eq]
  exact slice_append_append [] (0xA0 :: List.replicate 7 0) _

theorem alertFrame_cause (cause now : BitVec 64) : leAt (alertFrame cause now) 8 8 = cause.toNat := by
  have field : slice (alertFrame cause now) 8 8 = leBytes 8 cause.toNat := by
    have h := slice_append_append (0xA0 :: List.replicate 7 0) (leBytes 8 cause.toNat)
      (leBytes 8 now.toNat ++ (List.replicate 40 0 ++ []))
    rw [leBytes_length] at h
    rw [alertFrame_eq]; exact h
  rw [leAt, field, leNat_leBytes_toNat]

theorem alertFrame_now (cause now : BitVec 64) : leAt (alertFrame cause now) 16 8 = now.toNat := by
  have field : slice (alertFrame cause now) 16 8 = leBytes 8 now.toNat := by
    have h := slice_append_append (0xA0 :: List.replicate 7 0 ++ leBytes 8 cause.toNat) (leBytes 8 now.toNat) (List.replicate 40 0 ++ [])
    rw [List.length_append, leBytes_length, leBytes_length, List.append_assoc] at h
    rw [alertFrame_eq]; exact h
  rw [leAt, field, leNat_leBytes_toNat]

theorem alertFrame_rest (cause now : BitVec 64) : slice (alertFrame cause now) 24 40 = List.replicate 40 0 := by
  have h := slice_append_append (0xA0 :: List.replicate 7 0 ++ leBytes 8 cause.toNat ++ leBytes 8 now.toNat) (List.replicate 40 0) []
  rw [List.length_append, List.length_append, leBytes_length, leBytes_length, List.append_assoc, List.append_assoc] at h
  rw [alertFrame_eq]; exact h

/- ALERT_N (R427, R429). -/

/-- What the CAN controllers hold after an assertion: each that serves has sent one frame. -/
def State.alertCan (s : State) : Vector CanCtl 2 :=
  if s.ready rCan then
    s.can.map fun c => if c.busOff then c else { c with alertFrame := alertFrame s.alertCause s.now }
  else s.can

theorem State.alertCan_busOff {s : State} {k : Fin 2} (hb : s.can[k].busOff = true) : s.alertCan[k] = s.can[k] := by
  rw [Fin.getElem_fin] at hb ⊢
  simp only [State.alertCan]
  split
  · rw [Vector.getElem_map, if_pos hb]; rfl
  · rfl

theorem State.alertCan_serving {s : State} {k : Fin 2} (hr : s.ready rCan = true) (hb : s.can[k].busOff = false) :
    s.alertCan[k] = { s.can[k] with alertFrame := alertFrame s.alertCause s.now } := by
  rw [Fin.getElem_fin] at hb ⊢
  rw [State.alertCan, if_pos hr, Vector.getElem_map, if_neg (ne_true_of_eq_false hb)]; rfl

theorem State.msixSend_eq (s : State) (v : Fin 65) : s.msixSend v = { s with pcie := (s.msixSend v).pcie } := by
  simp only [State.msixSend]
  split
  · rfl
  · split <;> rfl

/-- An assertion reaches the CAN controllers and PCIe alone. -/
theorem State.alertAssert_eq (s : State) : s.alertAssert = { s with can := s.alertCan, pcie := s.alertAssert.pcie } := by
  simp only [State.alertAssert, State.alertCan]
  split <;> exact State.msixSend_eq _ 64

theorem State.alertAssert_can (s : State) : s.alertAssert.can = s.alertCan := by rw [State.alertAssert_eq]

/-- The state with a cause of `alert_cause` set and nothing sent. -/
def State.withCause (s : State) (i : Nat) : State := { s with alertCause := setBit s.alertCause i true }

theorem State.alert_eq_withCause (s : State) (i : Nat) :
    s.alert i = if !s.alertAsserted && (s.withCause i).alertAsserted then (s.withCause i).alertAssert else s.withCause i := rfl

/-- Setting a cause touches `alert_cause`, the CAN controllers and PCIe alone. -/
theorem State.alert_eq (s : State) (i : Nat) :
    s.alert i = { s.withCause i with can := (s.alert i).can, pcie := (s.alert i).pcie } := by
  rw [State.alert_eq_withCause]
  split
  · rw [State.alertAssert_eq]
  · rfl

theorem State.alertAsserted_alert (s : State) (i : Nat) : (s.alert i).alertAsserted = (s.withCause i).alertAsserted := by
  rw [State.alert_eq]; rfl

theorem State.alertCause_alert (s : State) (i : Nat) : (s.alert i).alertCause = (s.withCause i).alertCause := by
  rw [State.alert_eq]

theorem setBit_getLsbD_self {i w : Nat} (hi : i < w) (v : BitVec w) : (setBit v i true).getLsbD i = true := by
  simp only [setBit, if_true, BitVec.getLsbD_or, BitVec.getLsbD_ofNat, Nat.testBit_two_pow_self, hi, decide_true,
    Bool.and_self, Bool.or_true]

theorem State.withCause_asserted {s : State} {i : Nat} (hi : i < 64) (hc : s.crown ≠ .powerOn)
    (he : s.alertEnable.getLsbD i = true) : (s.withCause i).alertAsserted = true := by
  have overlap : setBit s.alertCause i true &&& s.alertEnable ≠ 0 := by
    intro none
    have bit := congrArg (·.getLsbD i) none
    simp only [BitVec.getLsbD_and, setBit_getLsbD_self hi, he, BitVec.ofNat_eq_ofNat, BitVec.getLsbD_zero] at bit
    exact absurd bit (by decide)
  simp only [State.alertAsserted, Bool.and_eq_true, decide_eq_true_eq]
  exact ⟨hc, overlap⟩

/-- An enabled cause that sets while ALERT_N is high asserts it (R429). -/
theorem State.alert_asserts {s : State} {i : Nat} (hi : i < 64) (hc : s.crown ≠ .powerOn) (ha : s.alertAsserted = false)
    (he : s.alertEnable.getLsbD i = true) : s.alert i = (s.withCause i).alertAssert := by
  rw [State.alert_eq_withCause, ha, State.withCause_asserted hi hc he]; rfl

/-- Settles O21: an enabled cause that sets asserts ALERT_N, and the assertion writes the frame of R427 into each controller that is on
its bus. -/
theorem alertAssertionSendsTheAlertFrame : Obligations.AlertAssertionSendsTheAlertFrame := by
  unfold Obligations.AlertAssertionSendsTheAlertFrame
  intro s i hi hc ha he hr
  have asserted := State.withCause_asserted hi hc he
  have sent : (s.alert i).can = (s.withCause i).alertCan := by
    rw [State.alert_asserts hi hc ha he, State.alertAssert_can]
  refine ⟨(s.alertAsserted_alert i).trans asserted, ?serving, ?busOff⟩
  case serving =>
    intro k hb
    rw [sent, State.alertCan_serving (s := s.withCause i) hr hb, State.alertCause_alert]
    exact ⟨alertFrame_length _ _, alertFrame_head _ _, alertFrame_cause _ _, alertFrame_now _ _, alertFrame_rest _ _⟩
  case busOff =>
    intro k hb
    rw [sent, State.alertCan_busOff (s := s.withCause i) hb]
    rfl

end Sys2Proof.Machine
end

section
/-! What leaves the ports of the dictionary as they are: the shared operations, the log and readiness. -/
namespace Sys2Proof.Machine
open Sys2Proof

/-- What every round of a loop keeps, the loop keeps. -/
theorem foldl_keeps {σ α β : Type} (g : σ → β) {f : σ → α → σ} (h : ∀ s a, g (f s a) = g s) (l : List α) (s : σ) :
    g (l.foldl f s) = g s := by
  induction l generalizing s with
  | nil => rfl
  | cons a l ih => rw [List.foldl_cons, ih, h]

theorem foldl_ports {α : Type} {f : State → α → State} (h : ∀ s a, (f s a).ports = s.ports) (l : List α) (s : State) :
    (l.foldl f s).ports = s.ports := foldl_keeps State.ports h l s

variable (s : State)

@[simp] theorem State.alert_ports (i : Nat) : (s.alert i).ports = s.ports := by
  rw [State.alert_eq]; rfl
@[simp] theorem State.alertAssert_ports : s.alertAssert.ports = s.ports := by
  rw [State.alertAssert_eq]
@[simp] theorem State.bump_ports (o : Ob) (a b k : Nat) : (s.bump o a b k).ports = s.ports := rfl
@[simp] theorem State.drawWord_ports : s.drawWord.2.ports = s.ports := rfl
@[simp] theorem State.drawChoice_ports : s.drawChoice.2.ports = s.ports := rfl
@[simp] theorem State.drawBytes_ports (n : Nat) : (s.drawBytes n).2.ports = s.ports := rfl

@[simp] theorem State.count_ports (n : Nat) (o : Ob) (a b k : Nat) : (s.count n o a b k).ports = s.ports := by
  unfold State.count
  split <;> rfl

/- The error log. -/

@[simp] theorem State.logWrite_ports (r : LogRec) : (s.logWrite r).ports = s.ports := by
  simp only [State.logWrite]
  split <;> split <;> simp

@[simp] theorem State.logRec_ports (code severity kind unit : Nat) (d0 d1 : BitVec 64) :
    (s.logRec code severity kind unit d0 d1).ports = s.ports := by
  simp only [State.logRec]
  split
  · exact State.logWrite_ports s _
  · split <;> rfl

@[simp] theorem State.logOpen_ports (code kind unit : Nat) (d0 : Option (BitVec 64)) : (s.logOpen code kind unit d0).ports = s.ports :=
  State.logRec_ports _ _ _ _ _ _ _

@[simp] theorem State.logImage_ports (code sev f t : Nat) (slot : Bool) (c : Nat) (d1 : Option (BitVec 64)) :
    (s.logImage code sev f t slot c d1).ports = s.ports :=
  State.logRec_ports _ _ _ _ _ _ _

/- The crown and readiness. -/

@[simp] theorem State.setCrown_ports (c : CrownState) : (s.setCrown c).ports = s.ports := by
  unfold State.setCrown
  split <;> simp

@[simp] theorem State.settle_ports : s.settle.ports = s.ports := by
  unfold State.settle
  split
  · split
    · rfl
    · split <;> simp
  · split <;> simp
  · split <;> simp
  · rfl

@[simp] theorem State.putReady_ports (r f : BitVec 64) : (s.putReady r f).ports = s.ports := by
  simp only [State.putReady]
  split <;> simp

@[simp] theorem State.leaveService_ports (i : Nat) : (s.leaveService i).ports = s.ports := State.putReady_ports _ _ _
@[simp] theorem State.reportReady_ports (i : Nat) : (s.reportReady i).ports = s.ports := State.putReady_ports _ _ _

@[simp] theorem State.halt_ports : s.halt.ports = s.ports := by
  unfold State.halt
  split <;> simp

/- Segments. -/

@[simp] theorem State.updSegs_ports (ns : List Nat) (f : Seg → Seg) : (s.updSegs ns f).ports = s.ports :=
  foldl_ports (fun s n => State.updSeg_ports s n f) ns s

@[simp] theorem State.lockSegs_ports (ns : List Nat) : (s.lockSegs ns).ports = s.ports := State.updSegs_ports _ _ _
@[simp] theorem State.unlockSegs_ports (ns : List Nat) : (s.unlockSegs ns).ports = s.ports := State.updSegs_ports _ _ _

/- Reads of memory. -/

@[simp] theorem State.condemn_ports (sm : SeamId) (die bank row : Nat) : (s.condemn sm die bank row).ports = s.ports := by
  simp only [State.condemn, State.recordRepair]
  split
  · split
    · rfl
    · split <;> simp
  · rfl

@[simp] theorem State.uncorrectable_ports (sm : SeamId) (g code : Nat) : (s.uncorrectable sm g code).ports = s.ports := by
  simp [State.uncorrectable, State.poisonBurst, State.countUe]

@[simp] theorem State.readBurst_ports (who : MemRequester) (act : Act) (a n : Nat) :
    (s.readBurst who act a n).2.ports = s.ports := by
  simp only [State.readBurst]
  split
  · rfl
  · split
    · rfl
    · split
      · split <;> simp
      · rfl

@[simp] theorem State.readDram_ports (who : MemRequester) (act : Act) (l : List (Nat × Nat)) :
    (s.readDram who act l).2.ports = s.ports := by
  induction l generalizing s with
  | nil => rfl
  | cons x l ih =>
    have first := State.readBurst_ports s who act x.1 x.2
    rw [State.readDram]
    split
    · next h => rw [h] at first; exact first
    · next t h =>
      rw [h] at first
      have others := ih t
      split
      · next h => rw [h] at others; exact others.trans first
      · next h => rw [h] at others; exact others.trans first

@[simp] theorem State.readMem_ports (who : MemRequester) (a len : Nat) : (s.readMem who a len).2.ports = s.ports := by
  simp only [State.readMem]
  split
  · rfl
  · split
    · simp
    · split <;> rfl
    · rfl

end Sys2Proof.Machine
end

section
/-! What leaves the ports as they are: jobs, their decisions and the start of descriptors. -/
namespace Sys2Proof.Machine
open Sys2Proof

variable (s : State)

@[simp] theorem State.updJob_ports (q : QueueId) (seq : BitVec 32) (f : Job → Job) : (s.updJob q seq f).ports = s.ports := rfl
@[simp] theorem State.updDesc_ports (q : QueueId) (seq : BitVec 32) (k : DKey) (f : JDesc → JDesc) :
    (s.updDesc q seq k f).ports = s.ports := rfl
@[simp] theorem State.setEvent_ports (b : BoughId) (c : Nat) (v : BitVec 32) : (s.setEvent b c v).ports = s.ports := rfl

@[simp] theorem State.touchAddr_ports (q : QueueId) (seq : BitVec 32) (a : Nat) : (s.touchAddr q seq a).ports = s.ports := by
  unfold State.touchAddr
  split <;> rfl

@[simp] theorem State.argWord_ports (j : Job) (n : Nat) : (s.argWord j n).2.ports = s.ports := by
  simp only [State.argWord]
  split
  · rfl
  · have read := State.readMem_ports (s.touchAddr j.queue j.seq (j.argAddr + 4 * n)) (.job j.claim) (j.argAddr + 4 * n) 4
    rw [State.touchAddr_ports] at read
    split
    · next h => rw [h] at read; exact read
    · next h => rw [h] at read; exact read

@[simp] theorem State.stopRun_ports (r : Run) : (s.stopRun r).ports = s.ports := by
  simp only [State.stopRun]
  refine (foldl_ports (fun t u => ?_) _ _).trans rfl
  split
  · exact foldl_ports (fun _ _ => by rfl) _ _
  · rfl

@[simp] theorem State.stopJob_ports (q : QueueId) (seq : BitVec 32) : (s.stopJob q seq).ports = s.ports :=
  foldl_ports State.stopRun_ports _ _

@[simp] theorem State.decide_ports (q : QueueId) (seq : BitVec 32) (status desc bough : Nat) :
    (s.decide q seq status desc bough).ports = s.ports := by
  simp only [State.decide]
  split
  · rfl
  · split <;> simp

@[simp] theorem State.failJob_ports (q : QueueId) (seq : BitVec 32) (status desc bough : Nat) :
    (s.failJob q seq status desc bough).ports = s.ports := by
  unfold State.failJob
  split
  · rfl
  · split <;> simp

@[simp] theorem State.signal_ports (d : Nat) : (s.signal d).ports = s.ports := by
  unfold State.signal
  split <;> rfl

@[simp] theorem State.jobDone_ports (q : QueueId) (seq : BitVec 32) : (s.jobDone q seq).ports = s.ports := by
  unfold State.jobDone
  split
  · rfl
  · split
    · split <;> simp
    · rfl

@[simp] theorem State.completeDesc_ports (q : QueueId) (seq : BitVec 32) (k : DKey) (d : Nat) (boughs : List BoughId) :
    (s.completeDesc q seq k d boughs).ports = s.ports := by
  have canaries (t : State) : (boughs.foldl (fun s b => s.bump .boughCanary 0 0 b.val) t).ports = t.ports :=
    foldl_ports (fun _ _ => by rfl) _ _
  simp only [State.completeDesc, State.jobDone_ports]
  split <;> simp [canaries]

@[simp] theorem State.becomeStartable_ports (j : Job) (x : JDesc) : (s.becomeStartable j x).ports = s.ports := by
  have count (d : Nat) : (if dRepeatArg d = 0 then (Except.ok (dRepeat d), s) else s.argWord j (dRepeatArg d)).2.ports = s.ports := by
    split <;> simp
  simp only [State.becomeStartable]
  split
  · simp [count]
  · split
    · simp [count]
    · split <;> simp [count]

@[simp] theorem State.wakeLoop_ports (fuel : Nat) : (State.wakeLoop fuel s).ports = s.ports := by
  induction fuel generalizing s with
  | zero => rfl
  | succ fuel ih =>
    rw [State.wakeLoop]
    split
    · rfl
    · rw [ih, State.becomeStartable_ports]

@[simp] theorem State.wake_ports : s.wake.ports = s.ports := State.wakeLoop_ports _ _

@[simp] theorem State.cancelWhere_ports (p : Job → Bool) : (s.cancelWhere p).ports = s.ports := by
  rw [State.cancelWhere, State.wake_ports]
  exact foldl_ports (fun _ _ => by simp) _ _

@[simp] theorem State.cancelJob_ports (q : QueueId) (seq : BitVec 32) : (s.cancelJob q seq).ports = s.ports := by
  simp [State.cancelJob]

end Sys2Proof.Machine
end

section
/-! What leaves the ports as they are: the effects of writes of control-plane and work-hub objects. -/
namespace Sys2Proof.Machine
open Sys2Proof

variable (s : State)

/- The crown's commands (R431 to R435). -/

@[simp] theorem expectedFx_ports (v : Word) : (expectedFx v s).ports = s.ports := State.settle_ports _

@[simp] theorem alertEnableFx_ports (v : Word) : (alertEnableFx v s).ports = s.ports := by
  simp only [alertEnableFx]
  split <;> simp

@[simp] theorem State.boughGoesDown_ports (b : BoughId) : (s.boughGoesDown b).ports = s.ports := State.leaveService_ports _ _

@[simp] theorem State.boughComesUp_ports (b : BoughId) : (s.boughComesUp b).ports = s.ports :=
  foldl_ports (fun _ _ => by split <;> rfl) _ _

@[simp] theorem State.boughCheck_ports (b : BoughId) : (s.boughCheck b).ports = s.ports := by
  unfold State.boughCheck
  split <;> simp

@[simp] theorem State.goToSleep_ports : s.goToSleep.ports = s.ports := by
  simp only [State.goToSleep, State.setCrown_ports]
  rw [foldl_ports State.leaveService_ports]
  exact foldl_ports (fun _ _ => by split <;> simp) _ _

@[simp] theorem State.wakeUp_ports : s.wakeUp.ports = s.ports := by
  simp only [State.wakeUp, State.settle_ports]
  rw [foldl_ports (fun _ _ => by split <;> simp), State.setCrown_ports]

@[simp] theorem crownFx_ports (v : Nat) : (crownFx v s).ports = s.ports := by
  simp only [crownFx]
  split
  case h_5 => exact foldl_ports State.boughGoesDown_ports _ _
  case h_6 => exact foldl_ports (fun _ _ => by simp) _ _
  all_goals simp

/- Bundles and bough resets. -/

@[simp] theorem loadRequestFx_ports (v : Nat) : (loadRequestFx v s).ports = s.ports := by
  have after {t u : State} {c : ClaimId} {a n : Nat} {x : Except MemFail (List Byte)}
      (h : t.readMem (.loader c) a n = (x, u)) : u.ports = t.ports := by
    rw [← t.readMem_ports (.loader c) a n, h]
  unfold loadRequestFx
  extract_lets busy none0 lr c head size span l bad
  have busy_ports (l : LoadRun) (t : State) : (busy l t).ports = t.ports := rfl
  clear_value busy bad
  split
  · rw [busy_ports]
  · split
    · rw [busy_ports]
    · split
      · next h1 => rw [busy_ports, after h1]
      · next h1 =>
        split
        · next h2 => rw [busy_ports, after h2, after h1]
        · next h2 =>
          extract_lets l'
          split
          · rw [busy_ports, after h2, after h1]
          · split
            · next h3 => rw [busy_ports, after h3, after h2, after h1]
            · next h3 =>
              split
              · rw [busy_ports, after h3, after h2, after h1]
              · rw [busy_ports, State.lockSegs_ports, after h3, after h2, after h1]

@[simp] theorem unloadFx_ports (v : Nat) : (unloadFx s v).ports = s.ports := by
  unfold unloadFx
  split
  · rfl
  · exact State.unlockSegs_ports _ _

@[simp] theorem State.strike_ports (b : BoughId) : (s.strike b).ports = s.ports := rfl

@[simp] theorem State.fence_ports (b : BoughId) (full : Bool) : (s.fence b full).ports = s.ports := by
  simp only [State.fence, State.strike_ports]
  rw [foldl_ports State.stopRun_ports, foldl_ports (fun _ _ => by rfl)]
  simp

/- Counters and handle queues. -/

@[simp] theorem State.clearGroup_ports (g : CounterGroup) : (s.clearGroup g).ports = s.ports :=
  foldl_ports (fun _ _ => by rfl) _ _

@[simp] theorem State.hqBindFx_ports (b : BoughId) (q : HqPos) : (s.hqBindFx b q).ports = s.ports := by
  unfold State.hqBindFx
  split <;> rfl

@[simp] theorem State.hqPostFx_ports (b : BoughId) (q : HqPos) (v : Word) : (s.hqPostFx b q v).ports = s.ports := by
  unfold State.hqPostFx State.hqPut
  split <;> rfl

@[simp] theorem State.hqPostRefused_ports (b : BoughId) (q : HqPos) : (s.hqPostRefused b q).ports = s.ports := by
  unfold State.hqPostRefused
  split <;> rfl

/- Foremen and firmware (R452 to R464). -/

@[simp] theorem updateFx_ports (v : Nat) : (updateFx v s).ports = s.ports := State.lockSegs_ports _ _

@[simp] theorem State.setEntry_ports (t : Nat) (e : BootEntry) : (s.setEntry t e).ports = s.ports := by
  simp only [State.setEntry]
@[simp] theorem State.updForeman_ports (f : Fin 5) (g : Foreman → Foreman) : (s.updForeman f g).ports = s.ports := rfl

@[simp] theorem State.foremanStops_ports (f : Fin 5) : (s.foremanStops f).ports = s.ports := by
  simp only [State.foremanStops]
  split <;> rfl

@[simp] theorem State.startLoad_ports (t : ImageSlot) (why : LoadWhy) : (s.startLoad t why).ports = s.ports := by
  simp only [State.startLoad]
  split
  · simp
  · split <;> simp

@[simp] theorem foremanRestartFx_ports (v : Nat) : (foremanRestartFx v s).ports = s.ports := by
  simp [foremanRestartFx]

@[simp] theorem State.revokeKeys_ports (t mask : Nat) (slot : Bool) : (s.revokeKeys t mask slot).ports = s.ports :=
  foldl_ports (fun _ _ => by split <;> simp) _ _

@[simp] theorem State.advanceCounter_ports (t sec : Nat) (slot : Bool) : (s.advanceCounter t sec slot).ports = s.ports := by
  simp only [State.advanceCounter]
  split <;> simp

@[simp] theorem confirmFx_ports (v : Nat) : (confirmFx v s).ports = s.ports := by
  simp only [confirmFx]
  split
  · rw [State.revokeKeys_ports, State.advanceCounter_ports, State.logImage_ports]
    split <;> simp
  · split <;> simp

end Sys2Proof.Machine
end

section
/-! What leaves the ports as they are: the effects of writes of the units' objects. -/
namespace Sys2Proof.Machine
open Sys2Proof

variable (s : State)

/- Cameras, frame sync, encoders and the sample pipeline. -/

@[simp] theorem State.freeFilling_ports (b : BoughId) (q : HqPos) (i : Nat) : (s.freeFilling b q i).ports = s.ports := rfl

@[simp] theorem State.dropFrame_ports (p : CamId) : (s.dropFrame p).ports = s.ports := by
  unfold State.dropFrame
  split
  · rfl
  · simp

@[simp] theorem csiConfigFx_ports (p : CamId) (v : Nat) : (csiConfigFx p v s).ports = s.ports := by
  simp only [csiConfigFx]
  split <;> split <;> simp

@[simp] theorem State.epochWritten_ports : s.epochWritten.ports = s.ports := foldl_ports (fun _ _ => by rfl) _ _

@[simp] theorem encConfigFx_ports (i : Fin 16) (v : Nat) : (encConfigFx i v s).ports = s.ports := by
  simp only [encConfigFx]
  split
  · simp
  · split <;> simp

@[simp] theorem State.spRelease_ports : s.spRelease.ports = s.ports := by
  simp only [State.spRelease]
  split <;> simp

@[simp] theorem spControlFx_ports (v : Nat) : (spControlFx v s).ports = s.ports := by
  unfold spControlFx
  split
  · simp [spStartFx]
  · unfold spStopFx
    split
    · rfl
    · split <;> simp [State.spStops]

/- DRAM groups, the system cache and domains. -/

@[simp] theorem State.flushLines_ports (k : Fin 8) : (s.flushLines k).ports = s.ports := by
  simp [State.flushLines]

@[simp] theorem State.dropLines_ports (k : Fin 8) : (s.dropLines k).ports = s.ports := by
  simp only [State.dropLines, State.updSlice_ports]
  exact foldl_ports (fun _ _ => by split <;> rfl) _ _

@[simp] theorem State.groupSeams_ports (b : BoughId) (f : Seam → Seam) : (s.groupSeams b f).ports = s.ports :=
  foldl_ports (fun _ _ => by simp) _ _

@[simp] theorem groupOnFx_ports (b : BoughId) : (groupOnFx b s).ports = s.ports := by
  simp only [groupOnFx]
  split <;> simp

@[simp] theorem groupKeepFx_ports (b : BoughId) : (groupKeepFx b s).ports = s.ports := by
  simp only [groupKeepFx]
  split
  · rfl
  · rw [State.groupSeams_ports, State.updGroup_ports, foldl_ports State.flushLines_ports]

@[simp] theorem groupDropFx_ports (b : BoughId) : (groupDropFx b s).ports = s.ports := by
  simp only [groupDropFx]
  split
  · rfl
  · rw [State.updHub_ports, State.loseSegs, State.updSegs_ports, State.groupSeams_ports, State.updGroup_ports,
      foldl_ports State.dropLines_ports]

@[simp] theorem earlyWaysFx_ports (v : Nat) : (earlyWaysFx v s).ports = s.ports := by
  unfold earlyWaysFx
  extract_lets old taken flushed cleared t
  have ports : t.ports = s.ports := by
    simp only [t, cleared, flushed, State.setReg_ports]
    split
    · exact foldl_ports (fun _ _ => by simp) _ _
    · rfl
  split
  · rw [State.leaveService_ports, ports]
  · split
    · rw [State.reportReady_ports, ports]
    · exact ports

@[simp] theorem State.domainInUse_ports (d : Nat) : (s.domainInUse d).2.ports = s.ports := by
  simp only [State.domainInUse, apply_ite Prod.snd, apply_ite State.ports, State.drawChoice_ports, ite_self]

@[simp] theorem State.anyInUse_ports (l : List Nat) : (s.anyInUse l).2.ports = s.ports := by
  induction l generalizing s with
  | nil => rfl
  | cons d l ih => simp [State.anyInUse, ih]

@[simp] theorem State.domainGoesOff_ports (d : Nat) : (s.domainGoesOff d).ports = s.ports := by
  unfold State.domainGoesOff
  extract_lets flushed linkOff pcieOff
  have ports : pcieOff.ports = s.ports := by
    simp only [pcieOff, linkOff, flushed, State.pciePortsDown, apply_ite State.ports, State.updLink_ports, State.flushLines_ports, ite_self]
  split
  · rw [State.leaveService_ports, ports]
  · exact ports

@[simp] theorem domainOffFx_ports (hi : Bool) (v : Word) : (domainOffFx hi v s).ports = s.ports := by
  have off (l : List Nat) (t : State) : (l.foldl State.domainGoesOff t).ports = t.ports := foldl_ports State.domainGoesOff_ports l t
  simp only [domainOffFx]
  split <;> simp [off]

/- Claims and segments. -/

@[simp] theorem State.assignSeg_ports (n : Nat) (c : ClaimId) (perm : BitVec 3) : (s.assignSeg n c perm).ports = s.ports := by
  simp only [State.assignSeg, State.updSeg_ports]
  split
  · exact foldl_ports (fun _ _ => by rfl) _ _
  · rfl

@[simp] theorem State.finishAssign_ports (c : ClaimId) : (s.finishAssign c).ports = s.ports := by
  unfold State.finishAssign
  split
  · split
    · exact foldl_ports (fun _ _ => by simp) _ _
    · rfl
  · rfl

@[simp] theorem State.closeClaim_ports (c : ClaimId) : (s.closeClaim c).ports = s.ports := by
  simp only [State.closeClaim, State.updClaim_ports]
  exact foldl_ports (fun _ _ => by simp) _ _

@[simp] theorem releaseFx_ports (c : ClaimId) : (releaseFx s c).ports = s.ports := by
  unfold releaseFx
  extract_lets assigned unpair grove unpaired cleared
  have ports : cleared.ports = s.ports := by
    rw [foldl_ports (fun _ _ => by rfl)]
    exact s.finishAssign_ports c
  split
  · rw [State.updClaim_ports, ports]
  · rw [State.closeClaim_ports, ports]

@[simp] theorem cryptFx_ports (exporting : Bool) : (cryptFx exporting s).ports = s.ports := State.updSegs_ports _ _ _

@[simp] theorem segRefused_ports (code : Nat) : (segRefused code s).ports = s.ports := by
  unfold segRefused
  split <;> rfl

@[simp] theorem peerClaimsFx_ports (r : Requester) (m : Fin 16) (v : Nat) : (peerClaimsFx r m v s).2.ports = s.ports := by
  unfold peerClaimsFx
  split <;> rfl

@[simp] theorem refusedFx_ports (h : Hit) (w : Word) (own : Bool) (code : Nat) : (refusedFx h w own code s).ports = s.ports := by
  unfold refusedFx
  split
  · split <;> simp
  · split <;> simp
  · rfl

end Sys2Proof.Machine
end

section
/-! Posted frames (R417): no write, open or commit that is applied, and no refusal, adds or drops one. -/
namespace Sys2Proof.Machine
open Sys2Proof

/-- The frames a requester's port holds. -/
def State.posted (s : State) (r : Requester) : List Posted := (s.port r).posted

theorem posted_of_ports {s t : State} (h : t.ports = s.ports) (r : Requester) : t.posted r = s.posted r := by
  rw [State.posted, State.posted, State.port, State.port, h]

/-- A change of one port keeps the frames of every port when it keeps those of the one it changes. -/
theorem posted_upd (s : State) (r : Requester) (p : Fin 5) {f : Port → Port} (hf : ∀ x, (f x).posted = x.posted) :
    ({ s with ports := upd s.ports p f } : State).posted r = s.posted r := by
  simp only [State.posted, State.port, upd, Fin.getElem_fin, Vector.getElem_set]
  split
  · next e => simp only [hf, e]
  · rfl

theorem foldl_posted {α : Type} {f : State → α → State} {r : Requester} (h : ∀ s a, (f s a).posted r = s.posted r) (l : List α)
    (s : State) : (l.foldl f s).posted r = s.posted r := foldl_keeps (fun s => s.posted r) h l s

variable (s : State) (r : Requester)

/- A requester's refusals and counts. -/

theorem State.updPort_posted (q : Requester) {f : Port → Port} (hf : ∀ x, (f x).posted = x.posted) :
    (s.updPort q f).posted r = s.posted r := posted_upd s r (reqNum q) hf

@[simp] theorem State.refuse_posted (q : Requester) (obj : BitVec 24) (isRead : Bool) (code : Nat) :
    (s.refuse q obj isRead code).posted r = s.posted r := by
  rw [State.refuse, posted_of_ports (State.alert_ports _ _), State.updPort_posted]
  exact fun _ => rfl

@[simp] theorem State.countDone_posted (q : Requester) : (s.countDone q).posted r = s.posted r := by
  rw [State.countDone, State.updPort_posted]
  exact fun _ => rfl

@[simp] theorem State.updBlk_posted (q : Requester) (f : Block → Block) : (s.updBlk q f).posted r = s.posted r := by
  rw [State.updBlk, State.updPort_posted]
  exact fun _ => rfl

@[simp] theorem declareFx_posted (p : Fin 5) (v : Nat) : (declareFx p v s).posted r = s.posted r := by
  rw [declareFx, posted_upd]
  exact fun _ => rfl

@[simp] theorem t5AcceptFx_posted (p : Fin 5) (v : Nat) : (t5AcceptFx p v s).posted r = s.posted r := by
  rw [t5AcceptFx, posted_upd]
  exact fun _ => rfl

/- A link or a member that is fenced drops its pairings, and each is a refused write of its requester (R531). -/

@[simp] theorem State.pairFails_posted (w : PairWait) : (s.pairFails w).posted r = s.posted r := by
  rw [State.pairFails, State.refuse_posted]
  rfl

@[simp] theorem State.dropPairs_posted (p : Nat → Bool) : (s.dropPairs p).posted r = s.posted r :=
  foldl_posted (fun t w => t.pairFails_posted r w) _ _

@[simp] theorem memberFenceFx_posted (v : Nat) : (memberFenceFx v s).posted r = s.posted r := by
  rw [memberFenceFx, State.dropPairs_posted]
  rfl

@[simp] theorem State.fenceLink_posted (k : LinkId) : (s.fenceLink k).posted r = s.posted r := by
  rw [State.fenceLink, State.dropPairs_posted]
  rfl

@[simp] theorem State.updLink_posted (k : LinkId) (f : Link → Link) : (s.updLink k f).posted r = s.posted r := rfl

@[simp] theorem State.leaveService_posted (i : Nat) : (s.leaveService i).posted r = s.posted r :=
  posted_of_ports (s.leaveService_ports i) r

@[simp] theorem State.linkFenced_posted (k : LinkId) : (s.linkFenced k).posted r = s.posted r := by
  simp [State.linkFenced]

@[simp] theorem linkControlFx_posted (k : LinkId) (v : Nat) : (linkControlFx k v s).posted r = s.posted r := by
  unfold linkControlFx
  extract_lets l en fe written trained
  have kept : trained.posted r = s.posted r := by
    simp only [trained, apply_ite (State.posted · r), State.updLink_posted, written, ite_self]
  split
  · simp
  · split
    · rw [State.linkFenced_posted, kept]
    · split
      · rw [State.updLink_posted, kept]
      · exact kept

/- The dictionary's writes (R409, R410). -/

/-- The effect of a write of a control-plane or work-hub object keeps the frames: only the two interface objects touch a port. -/
theorem coreFx_posted {h : Hit} {w : Word} {t : State} (e : coreFx h w s = some t) : t.posted r = s.posted r := by
  unfold coreFx at e
  split at e
  case h_27 => nomatch e
  all_goals
    replace e := Option.some.inj e
    subst e
  -- `if_declare` and `t5_accept` change a port; no other effect does.
  case h_1 => simp
  case h_2 => simp
  all_goals refine posted_of_ports ?_ r
  case h_5 | h_14 | h_15 | h_25 => rfl
  case h_7 => split <;> rfl
  case h_20 => split <;> simp [State.hqUnbindFx, State.updHq]
  case h_26 => split <;> rfl
  all_goals simp [apply_ite State.ports]

end Sys2Proof.Machine
end

section
/-! Posted frames through a write of the dictionary, an open and a commit (R409, R410, R417, R419, R439). -/
namespace Sys2Proof.Machine
open Sys2Proof

variable (s : State) (r : Requester)

/-- The effect of a write of a unit's object keeps the frames: a fence that drops pairings refuses their writes and no more. -/
theorem unitFx_posted {q : Requester} {h : Hit} {w : Word} {p : Bool × State} (e : unitFx q h w s = some p) :
    p.2.posted r = s.posted r := by
  unfold unitFx at e
  split at e
  case h_18 =>
    refine posted_of_ports ?_ r
    dsimp only at e
    split at e
    all_goals
      replace e := Option.some.inj e
      subst e
      rfl
  case h_21 => nomatch e
  all_goals
    replace e := Option.some.inj e
    subst e
  -- `grove_member_fence` and `link_control` may drop pairings, whose requesters' ports count the refusals; no other effect changes a port.
  case h_13 => simp
  case h_14 => simp
  all_goals refine posted_of_ports ?_ r
  case h_2 | h_5 | h_6 | h_7 | h_17 => rfl
  case h_16 => split <;> simp [claimOpenFx, openConfidentialFx, State.reseed, apply_ite State.ports]
  case h_19 => split <;> rfl
  all_goals simp [apply_ite State.ports]

/-- A write that takes effect keeps the frames. -/
@[simp] theorem ownFx_posted (q : Requester) (h : Hit) (w : Word) : (ownFx q h w s).2.posted r = s.posted r := by
  unfold ownFx
  split
  · next e => exact coreFx_posted s r e
  · split
    · next e => exact unitFx_posted s r e
    · rfl

/- What an object's own rules check changes no port. -/

@[simp] theorem domainOffCodes_ports (hi : Bool) (v : Word) : (domainOffCodes hi v s).2.ports = s.ports := by
  simp [domainOffCodes]

@[simp] theorem unitCodes_ports (h : Hit) (w : Word) : (unitCodes h w s).2.ports = s.ports := by
  unfold unitCodes
  extract_lets v b c
  split
  case h_51 => exact domainOffCodes_ports _ _ _
  case h_52 => exact domainOffCodes_ports _ _ _
  all_goals rfl

@[simp] theorem ownCodes_ports (q : Requester) (h : Hit) (w : Word) : (ownCodes q h w s).2.ports = s.ports := by
  unfold ownCodes
  split
  · rfl
  · exact unitCodes_ports s h w

/- The T5 views (R439). -/

theorem t5Cameras_ports {v : Nat} {l : List Nat} {t : State} (e : t5Cameras v l s = .ok t) : t.ports = s.ports := by
  induction l generalizing s with
  | nil => cases e; rfl
  | cons p l ih =>
    simp only [t5Cameras] at e
    split at e
    · rw [ih _ e, csiConfigFx_ports]
    · nomatch e

@[simp] theorem t5Codes_ports (o : T5Ob) (q : Requester) (h : Hit) (w : Word) : (t5Codes o q h w s).2.ports = s.ports := by
  unfold t5Codes
  split
  · split <;> rfl
  · rfl
  · exact ownCodes_ports s q h w

@[simp] theorem t5Fx_posted (o : T5Ob) (q : Requester) (h : Hit) (w : Word) : (t5Fx o q h w s).2.posted r = s.posted r := by
  unfold t5Fx
  split
  · split
    · next e => exact posted_of_ports (t5Cameras_ports s e) r
    · rfl
  · exact posted_of_ports (foldl_ports (fun _ _ => by simp) _ _) r
  · exact ownFx_posted s r q h w

/- A write as a whole, and an open or a commit. -/

@[simp] theorem refusedFx_posted (h : Hit) (w : Word) (own : Bool) (code : Nat) :
    (refusedFx h w own code s).posted r = s.posted r := posted_of_ports (refusedFx_ports s h w own code) r

@[simp] theorem State.writeTarget_posted (q : Requester) (idx sub sel : Nat) (t : Option Target) (v : Word) (extra : List Nat) :
    (s.writeTarget q idx sub sel t v extra).2.posted r = s.posted r := by
  match t with
  | none => exact State.refuse_posted _ _ _ _ _ _
  | some ⟨h, none⟩ =>
    have checked := posted_of_ports (ownCodes_ports s q h v) r
    simp only [State.writeTarget]
    split
    · simp [checked]
    · split <;> simp [checked]
  | some ⟨h, some o⟩ =>
    have checked := posted_of_ports (t5Codes_ports s o q h v) r
    simp only [State.writeTarget]
    split
    · simp [checked]
    · split <;> simp [checked]

@[simp] theorem State.blockStart_posted (q : Requester) (commit : Bool) (a : BlockArgs) :
    (s.blockStart q commit a).2.posted r = s.posted r := by
  simp only [State.blockStart]
  split
  · split <;> simp
  · simp

end Sys2Proof.Machine
end

section
/-! PORT_RESET and the posted frames at the Burlyn port (R417, R420). -/
namespace Sys2Proof.Machine
open Sys2Proof

/- One port's change. -/

@[simp] theorem State.port_updPort_self (s : State) (r : Requester) (f : Port → Port) : (s.updPort r f).port r = f (s.port r) := by
  simp [State.port, upd]

theorem reqNum_injective : Function.Injective reqNum := by
  intro q r h
  cases q <;> cases r <;> simp [reqNum] at h ⊢

theorem State.port_updPort_of_ne (s : State) {q r : Requester} (h : q ≠ r) (f : Port → Port) : (s.updPort r f).port q = s.port q := by
  have hn : (reqNum r).val ≠ (reqNum q).val := fun e => h (reqNum_injective (Fin.ext e)).symm
  simp only [State.port, State.updPort_ports, upd, Fin.getElem_fin]
  exact Vector.getElem_set_ne _ _ hn

/- The commands of the port. -/

theorem exec_portReset (frame : List Byte) (s : State) : exec (.portReset frame) s = done s (s.burlynFrame frame) := rfl

theorem exec_postedWriteApply (s : State) : exec .postedWriteApply s = done s (postedWriteApply s) := rfl

/-- A well-formed PORT_RESET frame (R413, R420): the operation, its complement and an address of zeros, and nothing more. -/
theorem burlynFrame_portReset {s : State} {f : List Byte} (hs : s.serves .burlyn = true) (length : f.length = 6)
    (op : leAt f 0 1 = 0x99) (complement : leAt f 1 1 = 0x66) (address : leNat (slice f 2 4) = 0) :
    s.burlynFrame f = s.blockReset .burlyn := by
  simp [State.burlynFrame, hs, length, op, complement, address]

theorem exec_portReset_serving {s : State} (hs : s.serves .burlyn = true) :
    exec (.portReset [0x99, 0x66, 0, 0, 0, 0]) s = .next (s.blockReset .burlyn) := by
  rw [exec_portReset, burlynFrame_portReset hs rfl (by decide) (by decide) (by decide)]
  exact done_eq rfl

theorem State.blockReset_port (s : State) (r : Requester) :
    (s.blockReset r).port r = { s.port r with blk := { (s.port r).blk with state := .idle, code := 0, op := none } } :=
  s.port_updPort_self r _

/-- POSTED_WRITE_APPLY takes the oldest frame and leaves the others held (R417). -/
theorem postedWriteApply_posted {s : State} {f : Posted} {rest : List Posted} (h : (s.port .burlyn).posted = f :: rest) :
    ((postedWriteApply s).port .burlyn).posted = rest := by
  have taken : (s.updPort .burlyn fun p => { p with posted := rest }).posted .burlyn = rest := by
    rw [State.posted, State.port_updPort_self]
  simp only [postedWriteApply, h]
  cases f with
  | write idx sub sel v => exact (State.writeTarget_posted _ _ _ _ _ _ _ _ _).trans taken
  | block commit a => exact (State.blockStart_posted _ _ _ _ _).trans taken

/-- Settles O18: PORT_RESET changes the block operation of the Burlyn port alone, and the frames held there are still applied in their
order. -/
theorem portResetEndsTheBlockOperation : Obligations.PortResetEndsTheBlockOperation := by
  unfold Obligations.PortResetEndsTheBlockOperation
  intro s hs
  refine ⟨s.blockReset .burlyn, exec_portReset_serving hs, rfl, ?_⟩
  have reset := s.blockReset_port .burlyn
  have others (r : Requester) (hr : r ≠ .burlyn) : (s.blockReset .burlyn).port r = s.port r := s.port_updPort_of_ne hr _
  have held : ((s.blockReset .burlyn).port .burlyn).posted = (s.port .burlyn).posted := by rw [reset]
  refine ⟨by rw [reset], by rw [reset], by rw [reset], held, others, by rw [reset], by rw [reset], by rw [reset], ?_⟩
  intro f rest hf
  exact ⟨_, exec_postedWriteApply _, postedWriteApply_posted (held.trans hf)⟩

end Sys2Proof.Machine
end
